-- ==== Sys2Proof/Word.lean ====
section
/-! DEFINITION. The words of the U832: octets, signalling codes, frame numbers, stamps, and the numbers of highways and slots. -/

namespace Sys2Proof

/-- An octet, 00H to FFH (00_scope.md, Conventions). -/
abbrev Octet := BitVec 8

/-- A 16-bit item: a counter, a check, or two octets sent high octet first (11). -/
abbrev Pair := BitVec 16

/-- The multiframe stamp, 0 to 65535, wrapping to 0 (R75). -/
abbrev Stamp := BitVec 16

/-- A signalling code, 0 to 15. -/
abbrev Code := BitVec 4

/-- A frame number, 0 to 15. It advances from 15 to 0 (R41, R75). -/
abbrev FrameNumber := BitVec 4

/-- The number of an input or output highway, 0 to 7. -/
abbrev Highway := Fin 8

/-- The number of a payload slot, TS0 to TS63. -/
abbrev Slot := Fin 64

/-- The 64 payload octets of one frame, TS0 to TS63. -/
abbrev Payload := Vector Octet 64

/-- The 67 octets of one frame on a line: marker, two signalling octets, TS0 to TS63 (11.1). -/
abbrev Line := Vector Octet 67

end Sys2Proof
end

