-- ==== Sys2Proof/Syntax.lean ====
section
/-! DEFINITION. The commands of the U832: one constructor of `Instr` for each row of spec/opcode_table.json, with the
operands the command brings from outside the part. -/

namespace Sys2Proof

/-- A management port: MPA or MPB (R129). -/
inductive PortId where
  | a
  | b
  deriving DecidableEq, Repr

/-- The scope of a RESET (R145). -/
inductive Scope where
  | warm
  | cold
  deriving DecidableEq, Repr

/-- The levels of the strap pins (R129): `ma` is MA2-MA0, `mbe` is MBE, `mb` is MB2-MB0, and `four` is MW naming
width four. -/
structure Straps where
  ma   : Highway
  mbe  : Bool
  mb   : Highway
  four : Bool
  deriving DecidableEq, Repr

/-- What the line carried after the marker of a frame: octets 1 and 2 (signalling) and octets 3 to 66 (payload), R40
and 11.1. -/
structure InFrame where
  sig1    : Octet
  sig2    : Octet
  payload : Payload
  deriving DecidableEq, Repr

/-- The parts of one output frame start that the spec leaves unordered among themselves (R37, R39, R74, R76, R77, R85,
R111, R143, R154): the advance of the output timing, the repeat slip of a highway, the swap with its response and event,
the sync copy, the octets that a port gives with the place reserved for its waiting command, the execution of that
command, the octet for the capture unit, the two tick readers, and a reset that takes effect. -/
inductive StartTask where
  | timing
  | slip (k : Highway)
  | swap
  | copy
  | take (p : PortId)
  | start (p : PortId)
  | capture
  | leaseTick
  | listTick
  | reset
  deriving DecidableEq, Repr

/-- The order taken within one output frame start, where the spec allows either (log 6). Only the first mention of a part
counts, and what is not mentioned follows in a standing order. `timerFirst` puts the notice timer before the hold of the
batch at a tick, and `resetBFirst` port B's reset before port A's. -/
structure StartOrder where
  tasks       : List StartTask
  timerFirst  : Bool
  resetBFirst : Bool
  deriving DecidableEq, Repr

/-- The blocks that take a share of a completed input frame, "without any order among them" (R51), and the guard
count. -/
inductive CompletionTask where
  | queue
  | supervisor
  | framer
  | capture
  | guard
  deriving DecidableEq, Repr

/-- The order in which the blocks take a completed frame (log 6). -/
abbrev CompletionOrder := List CompletionTask

/-- The commands, one per row of spec/opcode_table.json. -/
inductive Instr where
  /-- POWER_ON_RESET (R88): RST resets the part, and the straps are sampled at the levels given. -/
  | powerOnReset (pins : Straps)
  /-- COLD_RESET_EFFECT (R146): the output frame start that ends the response of an accepted RESET COLD. -/
  | coldResetEffect (pins : Straps) (order : StartOrder)
  /-- WARM_RESET_EFFECT (R146): the output frame start that ends the response of an accepted RESET WARM. -/
  | warmResetEffect (order : StartOrder)
  /-- OUTPUT_FRAME_START (R75). -/
  | outputFrameStart (order : StartOrder)
  /-- SWAP (R25): the boundary that finds the engine PENDING. -/
  | swap (order : StartOrder)
  /-- SYNC_COPY (R29): an output frame start that finds the engine SYNCING. -/
  | syncCopy (order : StartOrder)
  /-- SYNC_DONE (R29): the output frame start that copies OH7. -/
  | syncDone (order : StartOrder)
  /-- LEASE_EXPIRED (R154): the tick that brings the remaining time to 0. -/
  | leaseExpired (order : StartOrder)
  /-- BATCH_LAPSE (R119): the tick that brings the remaining hold to 0. -/
  | batchLapse (order : StartOrder)
  /-- NOTICE_TIMER_EXPIRY (R124): the tick that brings the notice timer to 0. -/
  | noticeTimerExpiry (order : StartOrder)
  /-- HUNT_CANDIDATE (R43): bits arrive on a hunting highway, up to the candidate's last bit. -/
  | huntCandidate (k : Highway) (bits : List Bool)
  /-- MARKER_POSITION (R41): the octet at the marker position of highway `k`. -/
  | markerPosition (k : Highway) (octet : Octet)
  /-- CONFIRMATION_COMPLETE (R44): the marker position of the third good marker. -/
  | confirmationComplete (k : Highway) (octet : Octet)
  /-- ALIGNMENT_LOSS (R48): the marker position of the fourth consecutive bad marker. -/
  | alignmentLoss (k : Highway) (octet : Octet)
  /-- GUARD_END (R46): the input multiframe completion that brings the guard count to 0. -/
  | guardEnd (k : Highway) (frame : InFrame) (order : CompletionOrder)
  /-- INPUT_FRAME_COMPLETION (R51): the 67th octet of a frame arrives on highway `k`. -/
  | inputFrameCompletion (k : Highway) (frame : InFrame) (order : CompletionOrder)
  /-- GOOD_MESSAGE (R135): a complete message with a correct check, given by its body. -/
  | goodMessage (p : PortId) (body : List Octet)
  /-- IDENTIFY (R144). -/
  | identify (p : PortId) (tag : Octet)
  /-- CLAIM (R151). -/
  | claim (p : PortId) (tag : Octet)
  /-- RELEASE (R156). -/
  | release (p : PortId) (tag : Octet)
  /-- SET_LEASE (R157). -/
  | setLease (p : PortId) (tag period : Octet)
  /-- RESET (R145). -/
  | reset (p : PortId) (tag scope : Octet)
  /-- WRITE_ENTRIES (R10): the entry octets are those after the count (11.2). -/
  | writeEntries (p : PortId) (tag highway first count : Octet) (octets : List Octet)
  /-- READ_ENTRIES (R15). -/
  | readEntries (p : PortId) (tag role highway first count : Octet)
  /-- CLEAR_STANDBY (R17). -/
  | clearStandby (p : PortId) (tag : Octet)
  /-- RESYNC (R33). -/
  | resync (p : PortId) (tag : Octet)
  /-- COMMIT (R22). -/
  | commit (p : PortId) (tag : Octet)
  /-- ABORT_COMMIT (R27). -/
  | abortCommit (p : PortId) (tag : Octet)
  /-- READ_BANKS (R19). -/
  | readBanks (p : PortId) (tag : Octet)
  /-- SET_INPUT (R55). -/
  | setInput (p : PortId) (tag highway enable persistence guard : Octet)
  /-- SET_OUTPUT (R86). -/
  | setOutput (p : PortId) (tag highway enable idleOctet idleCode : Octet)
  /-- READ_HIGHWAY (R56, R87). -/
  | readHighway (p : PortId) (tag highway : Octet)
  /-- READ_COUNTERS, group HIGHWAY (R58). -/
  | readCountersHighway (p : PortId) (tag number clear : Octet)
  /-- READ_COUNTERS, group PORT (R148). -/
  | readCountersPort (p : PortId) (tag number clear : Octet)
  /-- WATCH (R100). -/
  | watch (p : PortId) (tag highway first count setting : Octet)
  /-- READ_SIGNALING (R102). -/
  | readSignaling (p : PortId) (tag highway : Octet)
  /-- FETCH_EVENTS (R114). -/
  | fetchEvents (p : PortId) (tag : Octet) (ack : Option Octet)
  /-- SET_ATTENTION (R126): the mask's two octets, high octet first. -/
  | setAttention (p : PortId) (tag maskHigh maskLow interval hold : Octet)
  /-- ARM_CAPTURE (R162): `a`, `b` and `c` are the trigger octets A, B and C. -/
  | armCapture (p : PortId) (tag kind highway slot trigger a b c lengthHigh lengthLow : Octet)
  /-- READ_CAPTURE (R169). -/
  | readCapture (p : PortId) (tag : Octet)
  /-- CANCEL_CAPTURE (R170). -/
  | cancelCapture (p : PortId) (tag : Octet)
  /-- CAPTURE_DONE (R166): the octet that ends a capture at its length; `frame` is the completing frame where the
  source is an input slot. -/
  | captureDone (frame : InFrame) (completion : CompletionOrder) (start : StartOrder)
  deriving DecidableEq, Repr

end Sys2Proof
end

