-- ==== Sys2Proof/Decode.lean ====
section
/-! DEFINITION. The reading of table words. No row of spec/opcode_table.json gives bits (its rows have no fixed bits
and no fields), so no word spells a command. The bodies of management messages are read in Machine/Operands.lean. -/

namespace Sys2Proof

/-- The command that a word spells by the table's bits: none, since the table gives no bits. -/
def decodeTableWord (_nbits _w : Nat) : Option Instr := none

end Sys2Proof
end

