-- ==== Sys2Proof/Config.lean ====
section
/-! DEFINITION. What the spec fixes as constants of the part, and the values and orders it leaves unstated. -/

namespace Sys2Proof.Config

/-- Ordinary entries the event list holds at most (R112). -/
def ordinaryEntries : Nat := 63

/-- Entries of one batch at most (R115). -/
def batchEntries : Nat := 12

/-- Commands a command queue holds at most (R139). -/
def commandPlaces : Nat := 4

/-- Entries a response cache holds at most (R135). -/
def cachePlaces : Nat := 8

/-- Places of a transmit queue (R139). -/
def transmitPlaces : Nat := 6

/-- Complete frames a frame queue holds at most (R61). -/
def queuedFrames : Nat := 3

/-- Pools of the capture unit (R161). -/
def pools : Nat := 4

/-- Octets of one pool (R161). -/
def poolOctets : Nat := 64

/-- Bits of one frame, 67 octets (R40). -/
def frameBits : Nat := 536

/-- FREE VALUE (log 11). The octet that the part sends in a position whose content the spec does not state: `draw`
numbers the response and `item` the position in it. It has no body, so nothing can be proved of its value. -/
opaque unstated (draw item : Nat) : Octet

/-- FREE VALUE (log 14). Which of the two NOTICE_DROP occurrences of one NOTICE is taken first (R125: either). -/
opaque dropOrder (draw : Nat) : Bool

end Sys2Proof.Config
end

