-- ==== Sys2Proof/Machine/Types.lean ====
section
/-! DEFINITION. The pieces of the part's state, block by block, as plain data. -/

namespace Sys2Proof.Machine

/-! ### The map store (chapter 1) -/

/-- BANK 0 or BANK 1 (R1). -/
inductive BankId where
  | zero
  | one
  deriving DecidableEq, Repr

/-- The signalling mode of a SLOT entry; a fixed code is held under FIXED alone (R2). -/
inductive Signalling where
  | follow
  | fixed (code : Code)
  deriving DecidableEq, Repr

/-- What an entry holds according to its kind (R2): an absent field is not held at all. Every kind but SLOT is FIXED. -/
inductive Content where
  | idle (fixed : Code)
  | slot (highway : Highway) (slot : Slot) (signalling : Signalling)
  | constant (octet : Octet) (fixed : Code)
  | mgmt (fixed : Code)
  deriving DecidableEq, Repr

/-- An entry of the connection map (R2). -/
structure Entry where
  content   : Content
  condOctet : Octet
  condCode  : Code
  deriving DecidableEq, Repr

/-- The 64 entries of one output highway. -/
abbrev Row := Vector Entry 64

/-- The 512 entries of one bank, by output highway and slot (R1). -/
abbrev Bank := Vector Row 8

/-- One possible dirty mark for each output slot of the STANDBY bank (R21). -/
abbrev Marks := Vector (Vector Bool 64) 8

/-! ### The commit engine (chapter 2) -/

/-- The pending commit record (R21). The link to the reserved place is the place itself, which says that it is the
COMMIT's (`Reservation.commit`). `cached` is the link to the cache entry: it says that the entry of this tag in the
port's cache is the COMMIT's own. -/
structure PendingCommit where
  port   : PortId
  tag    : Octet
  cached : Bool
  deriving DecidableEq, Repr

/-- The commit engine (R21): the record is held in PENDING alone, the sync position and the dirty marks in SYNCING
alone (R31). -/
inductive Engine where
  | idle
  | pending (record : PendingCommit)
  | syncing (position : Highway) (marks : Marks)
  deriving DecidableEq, Repr

/-! ### The input receivers (chapter 3) -/

/-- The alignment state with the items that exist in it (R42). In SEARCH, `history` holds the received bits still to be
examined (R45): never 8 or more. In CONFIRM it holds every bit from the candidate's first bit on. -/
inductive Align where
  | disabled
  | search (history : List Bool)
  | confirm (expected : FrameNumber) (count : Nat) (history : List Bool)
  | guard (expected : FrameNumber) (count : Nat)
  | aligned (expected : FrameNumber)
  | flywheel (expected : FrameNumber) (bad : Nat)
  deriving DecidableEq, Repr

/-- The four counters of an input highway, each saturating at 65535 (R57). -/
structure HighwayCounters where
  markerErrors    : Pair
  alignmentLosses : Pair
  dropSlips       : Pair
  repeatSlips     : Pair
  deriving DecidableEq, Repr

/-- An input receiver (R42). `inFrame` is the frame position as the commands see it (R40): the marker of a frame has
been taken and the frame has not completed. -/
structure Receiver where
  align       : Align
  inFrame     : Bool
  receivedRA  : Bool
  persistence : Nat
  guardLength : Nat
  counters    : HighwayCounters
  deriving DecidableEq, Repr

/-! ### The frame queues (chapter 4) -/

/-- A frame queue: the complete frames, oldest first, and the reading frame (R61). -/
structure FrameQueue where
  frames  : List Payload
  reading : Option Payload
  deriving DecidableEq, Repr

/-! ### The output timing and the output assemblers (chapter 5) -/

/-- The output timing (R75). -/
structure Timing where
  frame        : FrameNumber
  stamp        : Stamp
  startPending : Bool
  deriving DecidableEq, Repr

/-- An output assembler (R78). `raSent` is the RA flag of the marker last built, or that it would have carried on a
disabled highway (R56, R87); `line` is what the highway is sending. -/
structure Output where
  enabled   : Bool
  idleOctet : Octet
  idleCode  : Code
  raSent    : Bool
  line      : Line
  deriving DecidableEq, Repr

/-! ### The signalling supervisor (chapter 6) -/

/-- A candidate code with its count (R90: the count is 0 whenever the candidate is absent). -/
structure Candidate where
  code  : Code
  count : Nat
  deriving DecidableEq, Repr

/-- What the supervisor holds for one input slot (R90). -/
structure SlotState where
  stable    : Option Code
  candidate : Option Candidate
  watched   : Bool
  deriving DecidableEq, Repr

/-- What the supervisor holds for one input highway (R90): its slots, the multiframe record and the last-evaluation
stamp. -/
structure Supervisor where
  slots          : Vector SlotState 64
  received       : Vector (Option Code) 64
  spoiled        : Bool
  lastEvaluation : Option Stamp
  deriving DecidableEq, Repr

/-! ### The event list (chapter 7) -/

/-- A coalescing key: the kind with its key where the kind has one (R107, R108). -/
inductive EventKey where
  | sigChange (highway : Highway) (slot : Slot)
  | alignState (highway : Highway)
  | remoteAlarm (highway : Highway)
  | slip (highway : Highway)
  | commit
  | lease (port : PortId)
  | capture
  | mgmtError (port : PortId)
  deriving DecidableEq, Repr

/-- The value of an occurrence (R108). -/
inductive EventValue where
  | code (c : Code)
  | outOfService
  | inService
  | alarm (ra : Bool)
  | drop
  | repeated
  | swapped (active : BankId)
  | aborted
  | syncDone
  | syncCancelled
  | expired
  | linkLost
  | poolReady
  | done
  | broken
  | overrun
  | check
  | length
  | busyDrop
  | noticeDrop
  deriving DecidableEq, Repr

/-- The fields that tell an ordinary entry from the OVERFLOW entry (R107). -/
inductive EventBody where
  | ordinary (key : EventKey) (first latest : EventValue) (count : Octet)
  | overflow (losses : Pair)
  deriving DecidableEq, Repr

/-- An entry of the event list (R107). -/
structure Event where
  body      : EventBody
  created   : Stamp
  updated   : Stamp
  delivered : Bool
  deriving DecidableEq, Repr

/-- The outstanding batch: the bound port and the remaining hold. It has lapsed when the hold is 0 (R106). -/
structure Batch where
  port : PortId
  hold : Octet
  deriving DecidableEq, Repr

/-- The event list (R106). Bit k - 1 of the mask is set when kind code k is unmasked (11.2). `timer` is absent while
the notice timer is stopped. -/
structure EventList where
  entries     : List Event
  losses      : Pair
  batchNumber : Octet
  batch       : Option Batch
  mask        : BitVec 9
  interval    : Octet
  holdTime    : Octet
  timer       : Option Octet
  attn        : Bool
  deriving DecidableEq, Repr

/-! ### The management ports (chapter 8) -/

/-- The receive framer with the partial message of each state (R130). `collected` holds the body octets so far. -/
inductive Framer where
  | hunt
  | length
  | body (expected : Octet) (collected : List Octet)
  | check (expected : Octet) (collected : List Octet) (high : Option Octet)
  deriving DecidableEq, Repr

/-- A command as its body gives it: the code with its argument octets, unjudged (11.2). -/
inductive Command where
  | identify
  | claim
  | release
  | setLease (period : Octet)
  | reset (scope : Octet)
  | writeEntries (highway first count : Octet) (octets : List Octet)
  | readEntries (role highway first count : Octet)
  | clearStandby
  | resync
  | commit
  | abortCommit
  | readBanks
  | setInput (highway enable persistence guard : Octet)
  | setOutput (highway enable idleOctet idleCode : Octet)
  | readHighway (highway : Octet)
  | readCounters (group number clear : Octet)
  | watch (highway first count setting : Octet)
  | readSignaling (highway : Octet)
  | fetchEvents (ack : Option Octet)
  | setAttention (maskHigh maskLow interval hold : Octet)
  | armCapture (kind highway slot trigger a b c lengthHigh lengthLow : Octet)
  | readCapture
  | cancelCapture
  deriving DecidableEq, Repr

/-- An accepted command in a command queue (R137). `cached` says that the cache entry of its tag is its own; `started`
marks an accepted RESET that waits at the head for its reset (R145). -/
structure Queued where
  tag     : Octet
  check   : Pair
  command : Command
  cached  : Bool
  started : Bool
  deriving DecidableEq, Repr

/-- The state of a cache entry, with the response it holds in DONE (R135). -/
inductive CacheState where
  | inProgress
  | done (response : List Octet)
  deriving DecidableEq, Repr

/-- An entry of a response cache (R135). -/
structure CacheEntry where
  tag   : Octet
  check : Pair
  state : CacheState
  deriving DecidableEq, Repr

/-- For which response a place is reserved: that of the command being executed, or that of the pending COMMIT (R22). -/
inductive Reservation where
  | command
  | commit
  deriving DecidableEq, Repr

/-- A place of a transmit queue (R141): a waiting message with its unsent octets, or a reserved place. `resets` marks
the response of an accepted RESET, whose last octet brings the reset about (R146). -/
inductive Place where
  | message (unsent : List Octet) (resets : Option Scope)
  | reserved (response : Reservation)
  deriving DecidableEq, Repr

/-- The five counters of a port, each saturating at 65535 (R147). -/
structure PortCounters where
  checkErrors   : Pair
  lengthErrors  : Pair
  busyRefusals  : Pair
  dropped       : Pair
  duplicates    : Pair
  deriving DecidableEq, Repr

/-- A management port (R130). -/
structure Port where
  framer   : Framer
  commands : List Queued
  cache    : List CacheEntry
  transmit : List Place
  counters : PortCounters
  deriving DecidableEq, Repr

/-! ### The lease unit (chapter 9) -/

/-- The holder of the editor lease with its remaining time (R150). -/
structure Holder where
  port      : PortId
  remaining : Octet
  deriving DecidableEq, Repr

/-- The lease unit (R150). -/
structure Lease where
  holder : Option Holder
  period : Octet
  deriving DecidableEq, Repr

/-! ### The capture unit (chapter 10) -/

/-- The source of a capture (R161). -/
inductive Source where
  | input (highway : Highway) (slot : Slot)
  | output (highway : Highway) (slot : Slot)
  deriving DecidableEq, Repr

/-- The trigger of a capture (R161). -/
inductive Trigger where
  | now
  | octet (value : Octet)
  | code (highway : Highway) (slot : Slot) (code : Code)
  deriving DecidableEq, Repr

/-- What an ARM_CAPTURE asked for (R162). -/
structure Job where
  source  : Source
  trigger : Trigger
  length  : Nat
  deriving DecidableEq, Repr

/-- How a capture ended (R166 to R168). -/
inductive Ending where
  | done
  | broken
  | overrun
  deriving DecidableEq, Repr

/-- The state of the capture unit with the items present in it (R161). The captured count is 0 in ARMED, and the lost
count is 1 in OVERRUN alone. -/
inductive Phase where
  | idle
  | armed (job : Job)
  | running (job : Job) (captured : Nat) (stamp : Stamp)
  | ended (how : Ending) (job : Job) (captured : Nat) (stamp : Stamp)
  deriving DecidableEq, Repr

/-- A READY pool; its length is that of its octets (R161). -/
structure Pool where
  sequence : Octet
  final    : Bool
  octets   : List Octet
  deriving DecidableEq, Repr

/-- The capture unit (R161). `filling` holds the octets of the FILLING pool, none when no pool is FILLING; `ready` is
the queue of READY pools, oldest first. The other pools of the four are EMPTY. -/
structure Capture where
  phase        : Phase
  filling      : List Octet
  ready        : List Pool
  nextSequence : Octet
  deriving DecidableEq, Repr

end Sys2Proof.Machine
end

