-- ==== Sys2Proof/Machine/Straps.lean ====
section
/-! DEFINITION. What follows from the strap readings: the placement of the ports and the protected slots (R5, R129). -/

namespace Sys2Proof.Machine

/-- Port B is ENABLED when MBE is asserted and MB2-MB0 names a pair other than port A's (R129). -/
def portBEnabled (t : Straps) : Bool := t.mbe && t.mb != t.ma

/-- Port A is enabled after every sampling, port B in status ENABLED alone (R129). -/
def strapEnabled (t : Straps) : PortId → Bool
  | .a => true
  | .b => portBEnabled t

/-- The highway pair of a port (R129). -/
def strapPair (t : Straps) : PortId → Highway
  | .a => t.ma
  | .b => t.mb

/-- The number of management slots of a port: one, or four (R5). -/
def strapWidth (t : Straps) : Nat := if t.four then 4 else 1

/-- The enabled port on highway pair `k`, if any (R5). -/
def portOn (t : Straps) (k : Highway) : Option PortId :=
  if t.ma = k then some .a else if portBEnabled t && decide (t.mb = k) then some .b else none

/-- Whether slot `n` is one of the management slots: TS63, or TS60 to TS63 (R5). -/
def mgmtSlot (t : Straps) (n : Slot) : Bool := decide (64 - strapWidth t ≤ n.val)

/-- Whether slot `n` of pair `k` is protected, on the output highway and on the input highway alike (R5). -/
def protectedSlot (t : Straps) (k : Highway) (n : Slot) : Bool := (portOn t k).isSome && mgmtSlot t n

end Sys2Proof.Machine
end

