-- ==== Sys2Proof/Machine/Initial.lean ====
section
/-! DEFINITION. The power-on value of each block (R7, R37, R59, R73, R88, R104, R127, R149, R160, R172). -/

namespace Sys2Proof.Machine

/-- The initial content of a non-protected entry (R7). -/
def initialEntry : Entry := { content := .idle 0, condOctet := 0xFF, condCode := 0 }

/-- The content of a protected entry (R6). -/
def protectedEntry : Entry := { content := .mgmt 0, condOctet := 0xFF, condCode := 0 }

/-- Both banks after a power-on or cold reset (R7). -/
def initialBank (t : Straps) : Bank :=
  Vector.ofFn fun k => Vector.ofFn fun n => if protectedSlot t k n then protectedEntry else initialEntry

/-- No dirty marks (R25, R33). -/
def noMarks : Marks := Vector.replicate 8 (Vector.replicate 64 false)

def zeroHighwayCounters : HighwayCounters :=
  { markerErrors := 0, alignmentLosses := 0, dropSlips := 0, repeatSlips := 0 }

/-- A receiver after a power-on or cold reset: enabled, P = 2, G = 4, in SEARCH with a fresh hunt (R59). -/
def initialReceiver : Receiver :=
  { align := .search [], inFrame := false, receivedRA := false, persistence := 2, guardLength := 4,
    counters := zeroHighwayCounters }

/-- An empty frame queue (R68, R73). -/
def emptyQueue : FrameQueue := { frames := [], reading := none }

/-- The output timing after a power-on or cold reset (R88). -/
def initialTiming : Timing := { frame := 0, stamp := 0, startPending := true }

/-- A highway that sends all ones (R83, R88). -/
def onesLine : Line := Vector.replicate 67 0xFF

/-- An output assembler after a power-on reset (R88). The RA flag is the one its first marker carries, since every
receiver is then in SEARCH. DESIGN CHOICE, unsafe (log 5). -/
def initialOutput : Output :=
  { enabled := true, idleOctet := 0xFF, idleCode := 0, raSent := true, line := onesLine }

/-- An input slot without codes and not watched (R104). -/
def initialSlot : SlotState := { stable := none, candidate := none, watched := false }

/-- An empty multiframe record (R90). -/
def emptyRecord : Vector (Option Code) 64 := Vector.replicate 64 none

/-- The supervisor of one highway after a power-on or cold reset (R104). -/
def initialSupervisor : Supervisor :=
  { slots := Vector.replicate 64 initialSlot, received := emptyRecord, spoiled := false, lastEvaluation := none }

/-- The event list after a power-on or cold reset: the default mask is 0122H (R121, R127, 11.2). -/
def initialEvents : EventList :=
  { entries := [], losses := 0, batchNumber := 0, batch := none, mask := 0x122, interval := 32, holdTime := 32,
    timer := none, attn := false }

def zeroPortCounters : PortCounters :=
  { checkErrors := 0, lengthErrors := 0, busyRefusals := 0, dropped := 0, duplicates := 0 }

/-- A port after any reset (R149). -/
def initialPort : Port :=
  { framer := .hunt, commands := [], cache := [], transmit := [], counters := zeroPortCounters }

/-- The lease unit after a power-on or cold reset (R160). -/
def initialLease : Lease := { holder := none, period := 125 }

/-- The capture unit after any reset (R172). -/
def initialCapture : Capture := { phase := .idle, filling := [], ready := [], nextSequence := 0 }

end Sys2Proof.Machine
end

