-- ==== Sys2Proof/Machine/State.lean ====
section
/-! DEFINITION. The state of the part as plain data, its reasons to stop (none), and the state right after reset. -/

namespace Sys2Proof.Machine

/-- The whole state. `pins` are the levels at the strap pins, `straps` the readings of the last sampling (R129).
`draws` and `pending` are the model's own: how many free values have been used (log 12), and the commands that wait. -/
structure State where
  pins       : Straps
  straps     : Straps
  bank0      : Bank
  bank1      : Bank
  activeBank : BankId
  engine     : Engine
  receivers  : Vector Receiver 8
  queues     : Vector FrameQueue 8
  timing     : Timing
  outputs    : Vector Output 8
  sups       : Vector Supervisor 8
  events     : EventList
  portA      : Port
  portB      : Port
  lease      : Lease
  capture    : Capture
  draws      : Nat
  pending    : List Instr
  deriving DecidableEq, Repr

/-- Reasons for a step to stop with a fault. The manual names no happening that stops the part, so there is none and
nothing raises one: safe. -/
inductive Fault where
  deriving DecidableEq, Repr

/-- Reasons for a step to refuse a command. -/
inductive Refusal where
  /-- Raised by an arm of `exec` whose command has no meaning yet: safe. No arm raises it. -/
  | notModelled (mnemonic : String)
  deriving DecidableEq, Repr

/-- The state every block takes at power-on reset with the straps sampled at the levels `t` (R7, R37, R59, R73, R88,
R104, R127, R129, R149, R160, R172). -/
def State.powerOn (t : Straps) : State where
  pins := t
  straps := t
  bank0 := initialBank t
  bank1 := initialBank t
  activeBank := .zero
  engine := .idle
  receivers := Vector.replicate 8 initialReceiver
  queues := Vector.replicate 8 emptyQueue
  timing := initialTiming
  outputs := Vector.replicate 8 initialOutput
  sups := Vector.replicate 8 initialSupervisor
  events := initialEvents
  portA := initialPort
  portB := initialPort
  lease := initialLease
  capture := initialCapture
  draws := 0
  pending := []

/-- Strap pins all low: port A on pair 0, MBE off, width one. DESIGN CHOICE, unsafe (log 3): the straps are inputs, and
the spec gives them no level. -/
def lowStraps : Straps := { ma := 0, mbe := false, mb := 0, four := false }

/-- The part right after a power-on reset, with no command waiting. -/
def State.reset : State := State.powerOn lowStraps

end Sys2Proof.Machine
end

