-- ==== Sys2Proof/Machine/Ops.lean ====
section
/-! DEFINITION. The named operations over the state: reading and replacing one block, one highway or one port. -/

namespace Sys2Proof.Machine

/-- The other port. -/
def otherPort : PortId → PortId
  | .a => .b
  | .b => .a

/-- The other bank (R1). -/
def otherBank : BankId → BankId
  | .zero => .one
  | .one => .zero

/-- A counter goes up by one and saturates at its greatest value (00_scope.md, Counters). -/
def saturate {w : Nat} (x : BitVec w) : BitVec w := if x = BitVec.allOnes w then x else x + 1

def highways : List Highway := [0, 1, 2, 3, 4, 5, 6, 7]

def slots : List Slot := List.finRange 64

/-- The list with each member kept at its first mention only. -/
def firstMentions {α : Type} [DecidableEq α] : List α → List α
  | [] => []
  | x :: xs => x :: (firstMentions xs).filter (fun y => y ≠ x)

/-! ### Reading -/

def State.bank (s : State) : BankId → Bank
  | .zero => s.bank0
  | .one => s.bank1

def State.standbyBank (s : State) : BankId := otherBank s.activeBank

/-- The ACTIVE entry of an output slot (R1). -/
def State.activeEntry (s : State) (k : Highway) (n : Slot) : Entry := (s.bank s.activeBank)[k][n]

/-- The STANDBY entry of an output slot (R1). -/
def State.standbyEntry (s : State) (k : Highway) (n : Slot) : Entry := (s.bank s.standbyBank)[k][n]

def State.receiver (s : State) (k : Highway) : Receiver := s.receivers[k]

def State.queue (s : State) (k : Highway) : FrameQueue := s.queues[k]

def State.output (s : State) (k : Highway) : Output := s.outputs[k]

def State.sup (s : State) (k : Highway) : Supervisor := s.sups[k]

/-- What the supervisor holds for input slot `n` of highway `k` (R90). -/
def State.slotState (s : State) (k : Highway) (n : Slot) : SlotState := (s.sup k).slots[n]

def State.port (s : State) : PortId → Port
  | .a => s.portA
  | .b => s.portB

def State.portEnabled (s : State) (p : PortId) : Bool := strapEnabled s.straps p

def State.portPair (s : State) (p : PortId) : Highway := strapPair s.straps p

/-- The port that holds the lease (R150). -/
def State.leaseHolder (s : State) : Option PortId := s.lease.holder.map (·.port)

/-! ### Replacing -/

def State.setBank (s : State) (b : BankId) (x : Bank) : State :=
  match b with
  | .zero => { s with bank0 := x }
  | .one => { s with bank1 := x }

def State.setActiveBank (s : State) (b : BankId) : State := { s with activeBank := b }

def State.setEngine (s : State) (e : Engine) : State := { s with engine := e }

def State.setReceiver (s : State) (k : Highway) (r : Receiver) : State :=
  { s with receivers := s.receivers.set k r }

def State.setQueue (s : State) (k : Highway) (q : FrameQueue) : State :=
  { s with queues := s.queues.set k q }

def State.setQueues (s : State) (q : Vector FrameQueue 8) : State := { s with queues := q }

def State.setTiming (s : State) (t : Timing) : State := { s with timing := t }

def State.setOutput (s : State) (k : Highway) (o : Output) : State :=
  { s with outputs := s.outputs.set k o }

def State.setOutputs (s : State) (o : Vector Output 8) : State := { s with outputs := o }

def State.setSup (s : State) (k : Highway) (x : Supervisor) : State :=
  { s with sups := s.sups.set k x }

def State.setEvents (s : State) (e : EventList) : State := { s with events := e }

def State.setPort (s : State) (p : PortId) (x : Port) : State :=
  match p with
  | .a => { s with portA := x }
  | .b => { s with portB := x }

def State.setLease (s : State) (l : Lease) : State := { s with lease := l }

def State.setCapture (s : State) (c : Capture) : State := { s with capture := c }

def State.setPins (s : State) (t : Straps) : State := { s with pins := t }

/-- One more free value has been used (log 12). -/
def State.useDraw (s : State) : State := { s with draws := s.draws + 1 }

/-! ### Counters -/

/-- Change the four counters of an input highway (R57). -/
def State.countHighway (s : State) (k : Highway) (f : HighwayCounters → HighwayCounters) : State :=
  s.setReceiver k { s.receiver k with counters := f (s.receiver k).counters }

/-- Change the five counters of a port (R147). -/
def State.countPort (s : State) (p : PortId) (f : PortCounters → PortCounters) : State :=
  s.setPort p { s.port p with counters := f (s.port p).counters }

end Sys2Proof.Machine
end

