-- ==== Sys2Proof/Machine/Operands.lean ====
section
/-! DEFINITION. The layouts of chapter 11 and of R131: octets and bits of the highway frame, of the message envelope, of
command bodies, of map entries, and of delivered events, with the code tables. -/

namespace Sys2Proof.Machine

/-! ### Octets, pairs and bits -/

def octet (n : Nat) : Octet := BitVec.ofNat 8 n

/-- The two octets of a 16-bit item, high octet first (11). -/
def pairOctets (x : Pair) : List Octet := [x.extractLsb' 8 8, x.extractLsb' 0 8]

/-- The 16-bit item that two octets carry, high octet first. -/
def pairOf (high low : Octet) : Pair := high ++ low

/-- A yes-or-no item: 00H or 01H (11.2). -/
def flagOctet (b : Bool) : Octet := if b then 1 else 0

/-- A one-octet item that may be absent: FFH when it is (R176). -/
def orAbsent : Option Octet → Octet
  | none => 0xFF
  | some o => o

def highwayOctet (k : Highway) : Octet := octet k.val

def slotOctet (n : Slot) : Octet := octet n.val

/-- The bits of an octet, most significant first (R40). -/
def octetBits (o : Octet) : List Bool :=
  [o.getLsbD 7, o.getLsbD 6, o.getLsbD 5, o.getLsbD 4, o.getLsbD 3, o.getLsbD 2, o.getLsbD 1, o.getLsbD 0]

/-- The octet whose bits, most significant first, are the first eight of a list. -/
def octetOfBits (bits : List Bool) : Octet :=
  (bits.take 8).foldl (fun o b => (o <<< 1) ||| (if b then 1 else 0)) 0

/-- The bits of the 66 octets that follow a marker (R40). -/
def frameBodyBits (f : InFrame) : List Bool :=
  octetBits f.sig1 ++ octetBits f.sig2 ++ f.payload.toList.flatMap octetBits

/-! ### The highway frame (11.1) -/

/-- A marker octet: pattern 101, RA in bit 4, the frame number in bits 3-0. -/
def markerOctet (ra : Bool) (n : FrameNumber) : Octet :=
  (0b101#3 ++ (BitVec.ofBool ra)) ++ n

def markerPattern (o : Octet) : BitVec 3 := o.extractLsb' 5 3

def markerRA (o : Octet) : Bool := o.getLsbD 4

def markerNumber (o : Octet) : FrameNumber := o.extractLsb' 0 4

/-- A marker is good when its pattern is 101 and its frame number is the expected one (R41). -/
def goodMarker (o : Octet) (expected : FrameNumber) : Bool :=
  markerPattern o == 0b101#3 && markerNumber o == expected

/-- A signalling octet: the code of the lower slot in bits 7-4, that of the next in bits 3-0. -/
def signallingOctet (first second : Code) : Octet := first ++ second

def highCode (o : Octet) : Code := o.extractLsb' 4 4

def lowCode (o : Octet) : Code := o.extractLsb' 0 4

/-- The slot whose code is the `i`-th of the four that frame number `n` carries: TS(4n + i) (R40, R82). -/
def signallingSlot (n : FrameNumber) (i : Fin 4) : Slot := ⟨4 * n.toNat + i.val, by have := n.isLt; omega⟩

/-! ### The message envelope (R131) -/

/-- One bit through the check register: generator x^16 + x^12 + x^5 + 1. -/
def checkBit (r : Pair) (b : Bool) : Pair :=
  if r.msb != b then (r <<< 1) ^^^ 0x1021#16 else r <<< 1

/-- The check over a run of octets, the register starting at FFFFH and sent as it stands. -/
def checkOf (octets : List Octet) : Pair := (octets.flatMap octetBits).foldl checkBit 0xFFFF#16

/-- The check of a message: over the length octet and the body. -/
def messageCheck (body : List Octet) : Pair := checkOf (octet body.length :: body)

/-- One envelope: lead B4H, length, body, check. -/
def envelope (body : List Octet) : List Octet :=
  0xB4 :: octet body.length :: (body ++ pairOctets (messageCheck body))

/-! ### Codes of 11.2 and 11.5 -/

def portOctet : PortId → Octet
  | .a => 0
  | .b => 1

def bankOctet : BankId → Octet
  | .zero => 0
  | .one => 1

/-- Status values (11.5). -/
inductive Status where
  | ok | busy | badLength | unknownCommand | badArgument | noLease | leaseHeld | protectedSlot | commitPending
  | syncing | notPending | tooLate | aborted | staleBatch | batchHeld | captureBusy | notReady
  deriving DecidableEq, Repr

def statusOctet : Status → Octet
  | .ok => 0x00
  | .busy => 0x01
  | .badLength => 0x02
  | .unknownCommand => 0x03
  | .badArgument => 0x04
  | .noLease => 0x05
  | .leaseHeld => 0x06
  | .protectedSlot => 0x07
  | .commitPending => 0x08
  | .syncing => 0x09
  | .notPending => 0x0A
  | .tooLate => 0x0B
  | .aborted => 0x0C
  | .staleBatch => 0x0D
  | .batchHeld => 0x0E
  | .captureBusy => 0x0F
  | .notReady => 0x10

def alignOctet : Align → Octet
  | .disabled => 0
  | .search _ => 1
  | .confirm _ _ _ => 2
  | .guard _ _ => 3
  | .aligned _ => 4
  | .flywheel _ _ => 5

def engineOctet : Engine → Octet
  | .idle => 0
  | .pending _ => 1
  | .syncing _ _ => 2

def framerOctet : Framer → Octet
  | .hunt => 0
  | .length => 1
  | .body _ _ => 2
  | .check _ _ _ => 3

def captureOctet : Phase → Octet
  | .idle => 0
  | .armed _ => 1
  | .running _ _ _ => 2
  | .ended .done _ _ _ => 3
  | .ended .broken _ _ _ => 4
  | .ended .overrun _ _ _ => 5

/-- Port B status: ENABLED, OFF or CONFLICT (R129). -/
def portBStatusOctet (t : Straps) : Octet :=
  if portBEnabled t then 0 else if t.mbe then 2 else 1

/-- Kind codes 1 to 8 of the ordinary kinds (11.5). -/
def EventKey.kindCode : EventKey → Nat
  | .sigChange _ _ => 1
  | .alignState _ => 2
  | .remoteAlarm _ => 3
  | .slip _ => 4
  | .commit => 5
  | .lease _ => 6
  | .capture => 7
  | .mgmtError _ => 8

/-- The kind code of an entry; OVERFLOW is 9 (11.5). -/
def Event.kindCode (e : Event) : Nat :=
  match e.body with
  | .ordinary key _ _ _ => key.kindCode
  | .overflow _ => 9

/-- Bits 2-0 of the first octet of a delivered event: the highway or the port of the key (11.4). -/
def EventKey.keyNumber : EventKey → Nat
  | .sigChange k _ | .alignState k | .remoteAlarm k | .slip k => k.val
  | .lease p | .mgmtError p => (portOctet p).toNat
  | .commit | .capture => 0

/-- The slot of a SIG_CHANGE key, 00H otherwise (11.4). -/
def EventKey.slotNumber : EventKey → Nat
  | .sigChange _ n => n.val
  | _ => 0

/-- Value encodings (11.5). -/
def EventValue.octet : EventValue → Octet
  | .code c => c.setWidth 8
  | .outOfService => 0x00
  | .inService => 0x01
  | .alarm ra => flagOctet ra
  | .drop => 0x01
  | .repeated => 0x02
  | .swapped .zero => 0x10
  | .swapped .one => 0x11
  | .aborted => 0x20
  | .syncDone => 0x30
  | .syncCancelled => 0x40
  | .expired => 0x01
  | .linkLost => 0x02
  | .poolReady => 0x01
  | .done => 0x02
  | .broken => 0x03
  | .overrun => 0x04
  | .check => 0x01
  | .length => 0x02
  | .busyDrop => 0x03
  | .noticeDrop => 0x04

/-- The nine octets of a delivered event (11.4). -/
def Event.octets (e : Event) : List Octet :=
  (match e.body with
    | .ordinary key first latest count =>
      [Machine.octet (key.kindCode * 16 + key.keyNumber), Machine.octet key.slotNumber, first.octet, latest.octet, count]
    | .overflow losses => [0x90, 0x00] ++ pairOctets losses ++ [0x00])
  ++ pairOctets e.created ++ pairOctets e.updated

/-! ### The map entry (11.3) -/

/-- The four octets of an entry, its absent fields given as 0 (R2). -/
def Entry.octets (e : Entry) : List Octet :=
  match e.content with
  | .idle fixed => [0x00, 0x00, e.condOctet, fixed ++ e.condCode]
  | .slot h n .follow => [0x60 ||| highwayOctet h, slotOctet n, e.condOctet, 0#4 ++ e.condCode]
  | .slot h n (.fixed code) => [0x40 ||| highwayOctet h, slotOctet n, e.condOctet, code ++ e.condCode]
  | .constant value fixed => [0x80, value, e.condOctet, fixed ++ e.condCode]
  | .mgmt fixed => [0xC0, 0x00, e.condOctet, fixed ++ e.condCode]

/-- The four octets of an entry as WRITE_ENTRIES supplies them. -/
structure RawEntry where
  o0 : Octet
  o1 : Octet
  o2 : Octet
  o3 : Octet
  deriving DecidableEq, Repr

/-- The entries of a WRITE_ENTRIES, four octets each, in order. -/
def rawEntries : List Octet → List RawEntry
  | a :: b :: c :: d :: rest => ⟨a, b, c, d⟩ :: rawEntries rest
  | _ => []

def RawEntry.kind (e : RawEntry) : BitVec 2 := e.o0.extractLsb' 6 2

def RawEntry.follow (e : RawEntry) : Bool := e.o0.getLsbD 5

def RawEntry.sourceHighway (e : RawEntry) : Highway := (e.o0.extractLsb' 0 3).toFin

def RawEntry.fixedCode (e : RawEntry) : Code := highCode e.o3

/-- The entry that passes the checks of R12, with the fields its kind and mode call for (R2). The reserved bits and the
positions of absent fields are disregarded (R174). -/
def RawEntry.entry (e : RawEntry) : Entry where
  content :=
    if e.kind = 0 then .idle e.fixedCode
    else if e.kind = 1 then
      .slot e.sourceHighway (Fin.ofNat 64 e.o1.toNat) (if e.follow then .follow else .fixed e.fixedCode)
    else if e.kind = 2 then .constant e.o1 e.fixedCode
    else .mgmt e.fixedCode
  condOctet := e.o2
  condCode := lowCode e.o3

/-! ### Command bodies (11.2) -/

def Command.code : Command → Octet
  | .identify => 0x01
  | .claim => 0x02
  | .release => 0x03
  | .setLease _ => 0x04
  | .reset _ => 0x05
  | .writeEntries _ _ _ _ => 0x08
  | .readEntries _ _ _ _ => 0x09
  | .clearStandby => 0x0A
  | .resync => 0x0B
  | .commit => 0x0C
  | .abortCommit => 0x0D
  | .readBanks => 0x0E
  | .setInput _ _ _ _ => 0x10
  | .setOutput _ _ _ _ => 0x11
  | .readHighway _ => 0x12
  | .readCounters _ _ _ => 0x13
  | .watch _ _ _ _ => 0x14
  | .readSignaling _ => 0x15
  | .fetchEvents _ => 0x18
  | .setAttention _ _ _ _ => 0x19
  | .armCapture _ _ _ _ _ _ _ _ _ => 0x1C
  | .readCapture => 0x1D
  | .cancelCapture => 0x1E

/-- The argument octets of a command, in the order of 11.2. -/
def Command.arguments : Command → List Octet
  | .identify | .claim | .release | .clearStandby | .resync | .commit | .abortCommit | .readBanks | .readCapture
  | .cancelCapture => []
  | .setLease period => [period]
  | .reset scope => [scope]
  | .writeEntries k n c es => k :: n :: c :: es
  | .readEntries r k n c => [r, k, n, c]
  | .setInput k e p g => [k, e, p, g]
  | .setOutput k e o c => [k, e, o, c]
  | .readHighway k => [k]
  | .readCounters g n c => [g, n, c]
  | .watch k n c v => [k, n, c, v]
  | .readSignaling k => [k]
  | .fetchEvents ack => ack.toList
  | .setAttention h l i t => [h, l, i, t]
  | .armCapture k h n t a b c lh ll => [k, h, n, t, a, b, c, lh, ll]

/-- The body of a command: tag, code, arguments (R131). -/
def Command.body (tag : Octet) (c : Command) : List Octet := tag :: c.code :: c.arguments

/-- What the port makes of a body on receipt (R136): a command, or the status of its answer. -/
inductive Reading where
  | command (c : Command)
  | refused (status : Status)
  deriving DecidableEq, Repr

/-- Read a code and its argument octets (R136, R175): octets beyond the command's layout are disregarded, a body below
the minimum is BAD_LENGTH, and a code absent from the table, or of 80H and above, is UNKNOWN_COMMAND. -/
def readArguments (code : Octet) (arguments : List Octet) : Reading :=
  if code = 0x01 then .command .identify
  else if code = 0x02 then .command .claim
  else if code = 0x03 then .command .release
  else if code = 0x04 then
    match arguments with
    | period :: _ => .command (.setLease period)
    | _ => .refused .badLength
  else if code = 0x05 then
    match arguments with
    | scope :: _ => .command (.reset scope)
    | _ => .refused .badLength
  else if code = 0x08 then
    match arguments with
    | k :: n :: c :: es => .command (.writeEntries k n c es)
    | _ => .refused .badLength
  else if code = 0x09 then
    match arguments with
    | r :: k :: n :: c :: _ => .command (.readEntries r k n c)
    | _ => .refused .badLength
  else if code = 0x0A then .command .clearStandby
  else if code = 0x0B then .command .resync
  else if code = 0x0C then .command .commit
  else if code = 0x0D then .command .abortCommit
  else if code = 0x0E then .command .readBanks
  else if code = 0x10 then
    match arguments with
    | k :: e :: p :: g :: _ => .command (.setInput k e p g)
    | _ => .refused .badLength
  else if code = 0x11 then
    match arguments with
    | k :: e :: o :: c :: _ => .command (.setOutput k e o c)
    | _ => .refused .badLength
  else if code = 0x12 then
    match arguments with
    | k :: _ => .command (.readHighway k)
    | _ => .refused .badLength
  else if code = 0x13 then
    match arguments with
    | g :: n :: c :: _ => .command (.readCounters g n c)
    | _ => .refused .badLength
  else if code = 0x14 then
    match arguments with
    | k :: n :: c :: v :: _ => .command (.watch k n c v)
    | _ => .refused .badLength
  else if code = 0x15 then
    match arguments with
    | k :: _ => .command (.readSignaling k)
    | _ => .refused .badLength
  else if code = 0x18 then .command (.fetchEvents arguments.head?)
  else if code = 0x19 then
    match arguments with
    | h :: l :: i :: t :: _ => .command (.setAttention h l i t)
    | _ => .refused .badLength
  else if code = 0x1C then
    match arguments with
    | k :: h :: n :: t :: a :: b :: c :: lh :: ll :: _ => .command (.armCapture k h n t a b c lh ll)
    | _ => .refused .badLength
  else if code = 0x1D then .command .readCapture
  else if code = 0x1E then .command .cancelCapture
  else .refused .unknownCommand

/-- What the port needs of a good message (R135, R136): tag, code, check, and the reading of code and arguments. -/
structure Message where
  tag     : Octet
  code    : Octet
  check   : Pair
  reading : Reading
  deriving DecidableEq, Repr

/-- The message that a body carries; a body has at least a tag and a code (R131). -/
def messageOf : List Octet → Option Message
  | tag :: code :: arguments =>
    some { tag := tag, code := code, check := messageCheck (tag :: code :: arguments),
           reading := readArguments code arguments }
  | _ => none

/-- The message of a command sent with its own layout and no excess octets. -/
def commandMessage (tag : Octet) (c : Command) : Message :=
  { tag := tag, code := c.code, check := messageCheck (c.body tag), reading := .command c }

/-- A response: its status and its data (R131). -/
structure Reply where
  status : Status
  data   : List Octet
  deriving DecidableEq, Repr

/-- The octets of a response: tag, the code with its top bit set, status, data (R131, R136). -/
def responseMessage (tag code : Octet) (r : Reply) : List Octet :=
  envelope (tag :: (code ||| 0x80) :: statusOctet r.status :: r.data)

end Sys2Proof.Machine
end

