-- ==== Sys2Proof/Machine/Flags.lean ====
section
/-! DEFINITION. The conditions and flags that the rules compute from the state. -/

namespace Sys2Proof.Machine

/-! ### Receivers -/

/-- In service: ALIGNED or FLYWHEEL (R52). -/
def Align.inService : Align → Bool
  | .aligned _ | .flywheel _ _ => true
  | .disabled | .search _ | .confirm _ _ _ | .guard _ _ => false

/-- The states in which completed frames are handed to the supervisor and the framer (R51). -/
def Align.handsOver : Align → Bool
  | .guard _ _ | .aligned _ | .flywheel _ _ => true
  | .disabled | .search _ | .confirm _ _ _ => false

/-- The states in which the paired output sends RA = 1 (R53). -/
def Align.sendsRA : Align → Bool
  | .search _ | .confirm _ _ _ => true
  | .disabled | .guard _ _ | .aligned _ | .flywheel _ _ => false

/-- SEARCH or CONFIRM, in which a CLAIM is refused (R151). -/
def Align.hunting : Align → Bool
  | .search _ | .confirm _ _ _ => true
  | .disabled | .guard _ _ | .aligned _ | .flywheel _ _ => false

def Align.enabled : Align → Bool
  | .disabled => false
  | _ => true

/-- The expected number, held in CONFIRM, GUARD, ALIGNED and FLYWHEEL (R42). -/
def Align.expected : Align → Option FrameNumber
  | .confirm e _ _ | .guard e _ | .aligned e | .flywheel e _ => some e
  | .disabled | .search _ => none

def State.inService (s : State) (k : Highway) : Bool := (s.receiver k).align.inService

/-- The reading frame of a highway for the output frame being assembled; absent when it is conditioned (R69). -/
def State.readingFrame (s : State) (k : Highway) : Option Payload :=
  if s.inService k then (s.queue k).reading else none

/-! ### Output timing -/

/-- Whether the next output frame start is an output multiframe boundary (R75). -/
def State.boundaryNext (s : State) : Bool := s.timing.startPending || s.timing.frame == 15

/-- Whether the next output frame start hands out a tick (R76). -/
def State.tickNext (s : State) : Bool :=
  !s.timing.startPending && s.timing.frame == 15 && (s.timing.stamp + 1).toNat % 8 == 0

/-! ### Map store -/

def State.isProtected (s : State) (k : Highway) (n : Slot) : Bool := protectedSlot s.straps k n

/-- Whether highway `k` is the highway of an enabled management port (R55, R86). -/
def State.isMgmtHighway (s : State) (k : Highway) : Bool := (portOn s.straps k).isSome

/-! ### Event list -/

def Event.isOrdinary (e : Event) : Bool :=
  match e.body with
  | .ordinary _ _ _ _ => true
  | .overflow _ => false

/-- An UNDELIVERED entry of the coalescing key (R109). -/
def Event.accepts (key : EventKey) (e : Event) : Bool :=
  match e.body with
  | .ordinary k _ _ _ => decide (k = key) && !e.delivered
  | .overflow _ => false

/-- An entry of a kind that the mask leaves unmasked: kind code k is bit k - 1 (11.2). -/
def EventList.unmasked (l : EventList) (e : Event) : Bool := l.mask.getLsbD (e.kindCode - 1)

def EventList.ordinaryCount (l : EventList) : Nat := l.entries.countP Event.isOrdinary

def EventList.undeliveredCount (l : EventList) : Nat := l.entries.countP fun e => !e.delivered

/-- UNDELIVERED entries of unmasked kinds, oldest first (R122, R123). -/
def EventList.waiting (l : EventList) : List Event := l.entries.filter fun e => !e.delivered && l.unmasked e

/-- The outstanding batch has lapsed (R119). -/
def EventList.lapsed (l : EventList) : Bool :=
  match l.batch with
  | some b => b.hold == 0
  | none => false

/-- The attention condition (R122). -/
def EventList.condition (l : EventList) : Bool := !l.waiting.isEmpty || l.lapsed

/-! ### Ports and lease -/

/-- A transmit queue has a free place (R139). -/
def Port.hasPlace (p : Port) : Bool := decide (p.transmit.length < Config.transmitPlaces)

def State.holdsLease (s : State) (p : PortId) : Bool := decide (s.leaseHolder = some p)

/-- The holder as an octet; FFH while the lease is free (R176). -/
def State.holderOctet (s : State) : Octet := orAbsent (s.leaseHolder.map portOctet)

/-- The framer of port `p` can take octets: the port is enabled and its input highway hands frames over (R51, R132). -/
def State.portReceives (s : State) (p : PortId) : Bool :=
  s.portEnabled p && (s.receiver (s.portPair p)).align.handsOver

end Sys2Proof.Machine
end

