-- ==== Sys2Proof/Machine/EventList.lean ====
section
/-! DEFINITION. The event list (chapter 7): taking an occurrence, losses, batches, the attention condition, NOTICE
offers and the notice timer. -/

namespace Sys2Proof.Machine

/-! ### Taking an occurrence (R109 to R113) -/

/-- Merge an occurrence into the UNDELIVERED entry of its key (R109, R110). -/
def mergeEntry (key : EventKey) (v : EventValue) (now : Stamp) : List Event → List Event
  | [] => []
  | e :: es =>
    match e.body with
    | .ordinary k first _ count =>
      if k = key ∧ e.delivered = false then
        { e with body := .ordinary k first v (saturate count), updated := now } :: es
      else e :: mergeEntry key v now es
    | .overflow _ => e :: mergeEntry key v now es

/-- A new UNDELIVERED entry (R109). -/
def newEntry (key : EventKey) (v : EventValue) (now : Stamp) : Event :=
  { body := .ordinary key v v 1, created := now, updated := now, delivered := false }

def Event.isOverflow (e : Event) : Bool := !e.isOrdinary

/-- Whenever L is greater than 0 and no OVERFLOW entry exists, one is appended with count L, and L becomes 0 (R113). -/
def EventList.spill (now : Stamp) (l : EventList) : EventList :=
  if l.losses ≠ 0 ∧ l.entries.all Event.isOrdinary then
    { l with
      entries := l.entries ++ [{ body := .overflow l.losses, created := now, updated := now, delivered := false }]
      losses := 0 }
  else l

/-- Count one more loss in the OVERFLOW entry (R113). -/
def bumpOverflow (now : Stamp) (e : Event) : Event :=
  match e.body with
  | .overflow n => if e.delivered then e else { e with body := .overflow (saturate n), updated := now }
  | .ordinary _ _ _ _ => e

/-- An occurrence is lost: it is counted in an UNDELIVERED OVERFLOW entry, or else in L (R113). -/
def EventList.lose (now : Stamp) (l : EventList) : EventList :=
  if l.entries.any fun e => e.isOverflow && !e.delivered then
    { l with entries := l.entries.map (bumpOverflow now) }
  else EventList.spill now { l with losses := saturate l.losses }

/-- The list takes an occurrence: it merges, or it makes a new entry while there is room, or it is lost (R109, R112). -/
def EventList.take (key : EventKey) (v : EventValue) (now : Stamp) (l : EventList) : EventList :=
  if l.entries.any (Event.accepts key) then { l with entries := mergeEntry key v now l.entries }
  else if l.ordinaryCount < Config.ordinaryEntries then { l with entries := l.entries ++ [newEntry key v now] }
  else l.lose now

/-! ### NOTICE offers (R123, R125) -/

/-- The NOTICE message, with its data as they stand at the offer (R123, 11.2). -/
def EventList.notice (l : EventList) : List Octet :=
  envelope
    [0x00, 0xC0, octet l.waiting.length,
     (match l.waiting with
      | [] => 0x00
      | e :: _ => octet e.kindCode),
     octet l.undeliveredCount, flagOctet l.lapsed,
     (if l.lapsed then l.batchNumber else 0xFF),
     (match l.batch with
      | some b => if l.lapsed then portOctet b.port else 0xFF
      | none => 0xFF)]

/-- The occurrence alone, without the re-evaluation of the attention condition. -/
def State.takeOccurrence (s : State) (key : EventKey) (v : EventValue) : State :=
  s.setEvents (s.events.take key v s.timing.stamp)

/-- Whether a NOTICE offered to the port is dropped: the port is enabled and has no free place (R125). -/
def State.dropsNotice (s : State) (p : PortId) : Bool := s.portEnabled p && !(s.port p).hasPlace

/-- A NOTICE enters at the tail of the transmit queue of an enabled port with a free place (R123). -/
def State.queueNotice (s : State) (p : PortId) (notice : List Octet) : State :=
  if s.portEnabled p && (s.port p).hasPlace then
    s.setPort p { s.port p with transmit := (s.port p).transmit ++ [.message notice none] }
  else s

/-- A NOTICE dropped at a port: the port counts it, and the list takes MGMT_ERROR NOTICE_DROP. The condition is true
and stays true, so nothing is re-evaluated (R125). -/
def State.noticeDropped (s : State) (p : PortId) : State :=
  (s.countPort p fun c => { c with dropped := saturate c.dropped }).takeOccurrence (.mgmtError p) .noticeDrop

/-- Offer a NOTICE to each enabled port (R123). Both offers carry the data of the moment of the change. When both
ports drop, their occurrences are taken in either order: a free value (log 14). NOTICE_DROP reaches the list at once,
before what else the happening raises after the change, where R111 leaves either order. DESIGN CHOICE, unsafe for a claim
about that order (log 14). -/
def State.offerNotices (s : State) : State :=
  let n := s.events.notice
  let t := (s.queueNotice .a n).queueNotice .b n
  match s.dropsNotice .a, s.dropsNotice .b with
  | false, false => t
  | true, false => t.noticeDropped .a
  | false, true => t.noticeDropped .b
  | true, true =>
    if Config.dropOrder t.draws then ((t.useDraw).noticeDropped .b).noticeDropped .a
    else ((t.useDraw).noticeDropped .a).noticeDropped .b

/-! ### The attention condition (R122) and the notice timer (R124) -/

/-- The timer started or restarted at an interval: an interval of 0 leaves it stopped (R124). -/
def startedTimer (interval : Octet) : Option Octet := if interval = 0 then none else some interval

/-- The condition is re-evaluated (R122): from false to true, ATTN is asserted, the timer starts and a NOTICE is offered
(R123, R124); from true to false, ATTN is deasserted and the timer stops. -/
def State.settleAttention (s : State) : State :=
  if s.events.condition = s.events.attn then s
  else if s.events.condition then
    (s.setEvents { s.events with attn := true, timer := startedTimer s.events.interval }).offerNotices
  else s.setEvents { s.events with attn := false, timer := none }

/-- An occurrence reaches the list: it is taken, and the attention condition is re-evaluated (R109, R122). -/
def State.raise (s : State) (key : EventKey) (v : EventValue) : State :=
  (s.takeOccurrence key v).settleAttention

/-- After a delivery or a SET_ATTENTION the timer restarts when the condition is true and is stopped when it is false
(R124). -/
def State.restartTimer (s : State) : State :=
  s.setEvents
    { s.events with timer := if s.events.attn then startedTimer s.events.interval else none }

/-! ### The tick at the list (R119, R124) -/

/-- The remaining hold of an outstanding batch that has not lapsed goes down by one; at 0 the batch lapses (R119). -/
def State.holdTick (s : State) : State :=
  match s.events.batch with
  | none => s
  | some b =>
    if b.hold = 0 then s
    else (s.setEvents { s.events with batch := some { b with hold := b.hold - 1 } }).settleAttention

/-- The notice timer expires: a NOTICE is offered and the timer restarts at the interval (R124). -/
def State.timerExpiry (s : State) : State :=
  (s.setEvents { s.events with timer := startedTimer s.events.interval }).offerNotices

/-- A timer that was running when the tick came goes down by one, and expires at 0 (R124). At a tick that comes together
with a delivery and after it, the timer does not expire (R124): a timer that has one tick left keeps it. DEDUCED
(log 30). -/
def State.timerTick (s : State) (running : Option Octet) (delivered : Bool) : State :=
  match running with
  | none => s
  | some t =>
    if 1 < t.toNat then s.setEvents { s.events with timer := some (t - 1) }
    else if delivered then s
    else s.timerExpiry

/-- A tick at the list. The timer that counts is the one that was running when the tick came: one started by the lapse
that this tick makes is first lowered at the next tick (R124). The order of hold and timer is an operand (log 6). `delivered`
says that a delivery which reached the list together with the tick has been taken first (R124). -/
def State.listTick (s : State) (timerFirst delivered : Bool) : State :=
  if timerFirst then (s.timerTick s.events.timer delivered).holdTick
  else s.holdTick.timerTick s.events.timer delivered

/-! ### Batches (R114 to R118) -/

/-- Mark the first `n` UNDELIVERED entries DELIVERED, in list order (R115). -/
def deliverFirst : Nat → List Event → List Event
  | 0, es => es
  | _, [] => []
  | n + 1, e :: es =>
    if e.delivered then e :: deliverFirst (n + 1) es else { e with delivered := true } :: deliverFirst n es

/-- Form a new batch for a port from the UNDELIVERED entries, if there are any (R115). -/
def EventList.form (p : PortId) (l : EventList) : EventList :=
  if l.undeliveredCount = 0 then { l with batch := none }
  else
    { l with
      entries := deliverFirst Config.batchEntries l.entries
      batchNumber := l.batchNumber + 1
      batch := some { port := p, hold := l.holdTime } }

/-- Remove every DELIVERED entry; losses that waited behind a DELIVERED OVERFLOW entry make a new one (R116). -/
def EventList.acknowledge (now : Stamp) (l : EventList) : EventList :=
  EventList.spill now { l with entries := l.entries.filter fun e => !e.delivered, batch := none }

/-- Bind the outstanding batch to a port with a fresh hold: re-delivery (R117) or takeover (R118). -/
def EventList.rebind (p : PortId) (l : EventList) : EventList :=
  { l with batch := some { port := p, hold := l.holdTime } }

/-- The outcome of a FETCH_EVENTS (R114). -/
inductive FetchOutcome where
  | held
  | takenOver (former : PortId)
  | acknowledged
  | stale
  | redelivered
  | formed
  deriving DecidableEq, Repr

/-- The first case of R114 that applies. -/
def EventList.fetchOutcome (l : EventList) (p : PortId) (ack : Option Octet) : FetchOutcome :=
  match l.batch, ack with
  | some b, a =>
    if b.port ≠ p then (if b.hold = 0 then .takenOver b.port else .held)
    else
      match a with
      | some n => if n = l.batchNumber then .acknowledged else .stale
      | none => .redelivered
  | none, some _ => .stale
  | none, none => .formed

/-- The list after the outcome (R115 to R118). -/
def EventList.fetched (now : Stamp) (p : PortId) (l : EventList) : FetchOutcome → EventList
  | .held | .stale => l
  | .takenOver _ | .redelivered => l.rebind p
  | .acknowledged => (l.acknowledge now).form p
  | .formed => l.form p

/-- The entries of the outstanding batch: the DELIVERED ones, in list order (R106). -/
def EventList.deliveredEntries (l : EventList) : List Event := l.entries.filter (·.delivered)

end Sys2Proof.Machine
end

