-- ==== Sys2Proof/Machine/MapStore.lean ====
section
/-! DEFINITION. The map store (chapter 1): checks and writes of entries, the clear, and the two counts of READ_BANKS. -/

namespace Sys2Proof.Machine

/-! ### The checks of WRITE_ENTRIES (R12) -/

/-- The first failing check of one entry aimed at slot number `target` of output highway `k` (R12). -/
def State.checkEntry (s : State) (k : Highway) (target : Nat) (e : RawEntry) : Option Status :=
  if h : target < 64 then
    if s.isProtected k ⟨target, h⟩ then some .protectedSlot
    else if e.kind = 3 then some .badArgument
    else if e.follow && e.kind != 1 then some .badArgument
    else if e.kind = 1 then
      if h2 : e.o1.toNat < 64 then
        if s.isProtected e.sourceHighway ⟨e.o1.toNat, h2⟩ then some .protectedSlot else none
      else some .badArgument
    else none
  else some .badArgument

/-- The checks entry by entry, from index `i` on: the first offending entry with its status (R11, step 4). -/
def State.checkEntries (s : State) (k : Highway) (first : Nat) : Nat → List RawEntry → Option (Status × Nat)
  | _, [] => none
  | i, e :: es =>
    match s.checkEntry k (first + i) e with
    | some status => some (status, i)
    | none => s.checkEntries k first (i + 1) es

/-! ### Writing (R10, R13) -/

/-- Entry i goes to slot first + i; every other slot of the row keeps its entry (R10). -/
def writeRow (row : Row) (first : Nat) (es : List Entry) : Row :=
  Vector.ofFn fun n : Slot => if first ≤ n.val then (es[n.val - first]?).getD row[n] else row[n]

/-- The slots that a write of `count` entries marks (R13). -/
def markRow (marks : Vector Bool 64) (first count : Nat) : Vector Bool 64 :=
  Vector.ofFn fun n : Slot => decide (first ≤ n.val ∧ n.val < first + count) || marks[n]

/-- Write checked entries into the STANDBY bank (R10) and, in SYNCING, mark their slots (R13). -/
def State.writeStandby (s : State) (k : Highway) (first : Nat) (es : List Entry) : State :=
  let b := s.bank s.standbyBank
  let t := s.setBank s.standbyBank (b.set k (writeRow b[k] first es))
  match t.engine with
  | .syncing pos marks => t.setEngine (.syncing pos (marks.set k (markRow marks[k] first es.length)))
  | .idle | .pending _ => t

/-! ### Clearing (R17) -/

/-- Every non-protected entry takes the initial content; protected entries keep theirs (R17). -/
def clearedBank (t : Straps) (b : Bank) : Bank :=
  Vector.ofFn fun k => Vector.ofFn fun n => if protectedSlot t k n then b[k][n] else initialEntry

def State.clearStandbyBank (s : State) : State :=
  s.setBank s.standbyBank (clearedBank s.straps (s.bank s.standbyBank))

/-! ### The copy of a sync (R29, R30) -/

/-- A row after its copy: a slot without a dirty mark takes the ACTIVE entry, a marked slot keeps its own (R29). -/
def copyRow (active standby : Row) (marks : Vector Bool 64) : Row :=
  Vector.ofFn fun n : Slot => if marks[n] then standby[n] else active[n]

/-- Copy output highway `k` from the ACTIVE bank into the STANDBY bank (R29). -/
def State.copyHighway (s : State) (k : Highway) (marks : Marks) : State :=
  let b := s.bank s.standbyBank
  s.setBank s.standbyBank (b.set k (copyRow (s.bank s.activeBank)[k] b[k] marks[k]))

/-! ### The counts of READ_BANKS (R19, R20) -/

/-- How many of the 512 output slots satisfy a test. -/
def countSlots (test : Highway → Slot → Bool) : Nat :=
  (highways.map fun k => slots.countP (test k)).sum

/-- The number of dirty marks, 0 outside SYNCING (R19, R31). -/
def State.dirtyCount (s : State) : Nat :=
  match s.engine with
  | .syncing _ marks => countSlots fun k n => marks[k][n]
  | .idle | .pending _ => 0

/-- The number of non-protected slots whose STANDBY and ACTIVE entries are not equal (R20). -/
def State.differenceCount (s : State) : Nat :=
  countSlots fun k n => !s.isProtected k n && s.standbyEntry k n != s.activeEntry k n

/-- The entries of `count` slots from `first` on, as READ_ENTRIES returns them (R15). -/
def State.readRun (s : State) (b : BankId) (k : Highway) (first count : Nat) : List Octet :=
  (((s.bank b)[k].toList.drop first).take count).flatMap Entry.octets

end Sys2Proof.Machine
end

