-- ==== Sys2Proof/Machine/FrameQueues.lean ====
section
/-! DEFINITION. The frame queues (chapter 4): appending at completions, selecting at output frame starts, slips. -/

namespace Sys2Proof.Machine

/-- Append a completed frame: a list of three drops its oldest first (R62, R63). -/
def FrameQueue.append (q : FrameQueue) (f : Payload) : FrameQueue :=
  { q with frames := (if q.frames.length < Config.queuedFrames then q.frames else q.frames.drop 1) ++ [f] }

/-- A frame queue takes a completed frame; finding three, it counts a drop slip and raises SLIP DROP (R63, R70). -/
def State.appendFrame (s : State) (k : Highway) (f : Payload) : State :=
  let t := s.setQueue k ((s.queue k).append f)
  if (s.queue k).frames.length < Config.queuedFrames then t
  else (t.countHighway k fun c => { c with dropSlips := saturate c.dropSlips }).raise (.slip k) .drop

/-- The queue of a highway after the selection of an output frame start: the head of the list becomes the reading frame
(R64), or what there is stays (R65, R66). A highway out of service selects nothing. -/
def State.selectedQueue (s : State) (k : Highway) : FrameQueue :=
  if s.inService k then
    match (s.queue k).frames with
    | f :: rest => { frames := rest, reading := some f }
    | [] => s.queue k
  else s.queue k

/-- Every frame queue selects (R64). -/
def State.selectAll (s : State) : State := s.setQueues (Vector.ofFn fun k => s.selectedQueue k)

/-- An output frame start repeats the reading frame of the highway: it is in service with an empty list and a reading
frame (R65). -/
def State.repeats (s : State) (k : Highway) : Bool :=
  s.inService k && (s.queue k).frames.isEmpty && (s.queue k).reading.isSome

/-- A repeat slip is counted and raises SLIP REPEAT, in one step (R65, R70). -/
def State.repeatSlip (s : State) (k : Highway) : State :=
  (s.countHighway k fun c => { c with repeatSlips := saturate c.repeatSlips }).raise (.slip k) .repeated

end Sys2Proof.Machine
end

