-- ==== Sys2Proof/Machine/LeaseUnit.lean ====
section
/-! DEFINITION. The lease unit (chapter 9): renewal, expiry and link loss. -/

namespace Sys2Proof.Machine

/-- The lease with a port as holder and the remaining time at the lease period (R151). -/
def Lease.granted (l : Lease) (p : PortId) : Lease := { l with holder := some { port := p, remaining := l.period } }

/-- The lease freed: holder and remaining time become absent (R154 to R156, R160). -/
def Lease.freed (l : Lease) : Lease := { l with holder := none }

/-- A command that starts at the holder's port renews the lease (R153). -/
def State.renewLease (s : State) (p : PortId) : State :=
  if s.holdsLease p then s.setLease (s.lease.granted p) else s

/-- A tick at the lease unit: the remaining time goes down by one, and at 0 the lease expires (R154). -/
def State.leaseTick (s : State) : State :=
  match s.lease.holder with
  | none => s
  | some h =>
    if h.remaining.toNat ≤ 1 then (s.setLease s.lease.freed).raise (.lease h.port) .expired
    else s.setLease { s.lease with holder := some { h with remaining := h.remaining - 1 } }

/-- Entry of highway `k` into SEARCH frees a lease held by the port on it (R155). -/
def State.loseLink (s : State) (k : Highway) : State :=
  match portOn s.straps k with
  | none => s
  | some p => if s.holdsLease p then (s.setLease s.lease.freed).raise (.lease p) .linkLost else s

end Sys2Proof.Machine
end

