-- ==== Sys2Proof/Machine/PortQueues.lean ====
section
/-! DEFINITION. The port's queues (chapter 8): reserved places, answers on receipt, the response cache, and the framer. -/

namespace Sys2Proof.Machine

/-! ### Transmit places (R139, R141) -/

/-- Fill the first place reserved for the response named; it becomes a waiting message where it stands (R141). -/
def fillPlace (r : Reservation) (message : List Octet) (resets : Option Scope) : List Place → List Place
  | [] => []
  | .reserved r' :: rest =>
    if r' = r then .message message resets :: rest else .reserved r' :: fillPlace r message resets rest
  | .message m x :: rest => .message m x :: fillPlace r message resets rest

/-- The place of an accepted COMMIT stays reserved for its deferred response (R22, R140). -/
def keepForCommit : List Place → List Place
  | [] => []
  | .reserved .command :: rest => .reserved .commit :: rest
  | .reserved .commit :: rest => .reserved .commit :: keepForCommit rest
  | .message m x :: rest => .message m x :: keepForCommit rest

def Place.isReserved : Place → Bool
  | .reserved _ => true
  | .message _ _ => false

def Place.isReservedFor (r : Reservation) : Place → Bool
  | .reserved r' => decide (r' = r)
  | .message _ _ => false

/-- An answer made on receipt is offered to the transmit queue; without a free place it is dropped, counted, and
reported as BUSY_DROP (R138, R147). -/
def State.offerAnswer (s : State) (p : PortId) (message : List Octet) : State :=
  if (s.port p).hasPlace then
    s.setPort p { s.port p with transmit := (s.port p).transmit ++ [.message message none] }
  else
    (s.countPort p fun c => { c with dropped := saturate c.dropped }).raise (.mgmtError p) .busyDrop

/-! ### The response cache (R135, R137) -/

def CacheState.isDone : CacheState → Bool
  | .inProgress => false
  | .done _ => true

/-- Remove the oldest DONE entry (R137). -/
def evictDone : List CacheEntry → List CacheEntry
  | [] => []
  | e :: es => if e.state.isDone then es else e :: evictDone es

/-- Insert an entry at the end; a full cache first evicts its oldest DONE entry (R137). -/
def insertEntry (e : CacheEntry) (cache : List CacheEntry) : List CacheEntry :=
  (if cache.length < Config.cachePlaces then cache else evictDone cache) ++ [e]

/-- The entry of a tag becomes DONE with a response (R26, R140). -/
def completeEntry (tag : Octet) (response : List Octet) (cache : List CacheEntry) : List CacheEntry :=
  cache.map fun e => if e.tag = tag then { e with state := .done response } else e

def Port.cached (x : Port) (tag : Octet) : Option CacheEntry := x.cache.find? fun e => e.tag = tag

/-- An entry whose tag returns with a different check is removed (R135). The command it was made for keeps its place
and is answered, but its response is then not cached: the queued command and the pending commit record lose their
link. -/
def State.forgetEntry (s : State) (p : PortId) (tag : Octet) : State :=
  let x := s.port p
  let t := s.setPort p
    { x with
      cache := x.cache.filter fun e => e.tag ≠ tag
      commands := x.commands.map fun c => if c.tag = tag then { c with cached := false } else c }
  match t.engine with
  | .pending r => if r.port = p ∧ r.tag = tag then t.setEngine (.pending { r with cached := false }) else t
  | .idle | .syncing _ _ => t

/-! ### The deferred response of a COMMIT (R26, R27) -/

/-- The deferred response fills the place reserved for it and, for a cached tag, the cache entry becomes DONE. When a
reset has taken the place away nothing is made (R27, R38). -/
def State.answerCommit (s : State) (r : PendingCommit) (reply : Reply) : State :=
  let x := s.port r.port
  if x.transmit.any (Place.isReservedFor .commit) then
    let m := responseMessage r.tag Command.commit.code reply
    s.setPort r.port
      { x with
        transmit := fillPlace .commit m none x.transmit
        cache := if r.cached then completeEntry r.tag m x.cache else x.cache }
  else s

/-! ### The receive framer (R132, R133) -/

/-- What one octet makes of the framer's message. -/
inductive FramerEvent where
  | none
  | lengthError
  | checkError
  | good (body : List Octet)
  deriving DecidableEq, Repr

/-- The framer takes one octet (R132). -/
def Framer.take (f : Framer) (o : Octet) : Framer × FramerEvent :=
  match f with
  | .hunt => (if o = 0xB4 then .length else .hunt, .none)
  | .length =>
    if 2 ≤ o.toNat ∧ o.toNat ≤ 124 then (.body o [], .none) else (.hunt, .lengthError)
  | .body expected collected =>
    if collected.length + 1 = expected.toNat then (.check expected (collected ++ [o]) none, .none)
    else (.body expected (collected ++ [o]), .none)
  | .check expected collected none => (.check expected collected (some o), .none)
  | .check expected collected (some high) =>
    if pairOf high o = checkOf (expected :: collected) then (.hunt, .good collected) else (.hunt, .checkError)

def State.setFramer (s : State) (p : PortId) (f : Framer) : State := s.setPort p { s.port p with framer := f }

/-- A length error: counted and reported (R133). -/
def State.lengthError (s : State) (p : PortId) : State :=
  (s.countPort p fun c => { c with lengthErrors := saturate c.lengthErrors }).raise (.mgmtError p) .length

/-- A check error: counted and reported (R133). -/
def State.checkError (s : State) (p : PortId) : State :=
  (s.countPort p fun c => { c with checkErrors := saturate c.checkErrors }).raise (.mgmtError p) .check

/-- The framer of the port on highway `k` returns to HUNT and discards its partial message (R134). -/
def State.resetFramer (s : State) (k : Highway) : State :=
  match portOn s.straps k with
  | some p => s.setFramer p .hunt
  | none => s

end Sys2Proof.Machine
end

