-- ==== Sys2Proof/Machine/CaptureUnit.lean ====
section
/-! DEFINITION. The capture unit (chapter 10): triggers, filling of the pools, and endings. -/

namespace Sys2Proof.Machine

def Phase.job : Phase → Option Job
  | .idle => none
  | .armed j | .running j _ _ | .ended _ j _ _ => some j

/-- The captured count, absent in IDLE and 0 in ARMED (R161). -/
def Phase.captured : Phase → Option Nat
  | .idle => none
  | .armed _ => some 0
  | .running _ n _ | .ended _ _ n _ => some n

/-- The lost count, absent in IDLE and 1 in OVERRUN alone (R161). -/
def Phase.lost : Phase → Option Nat
  | .idle => none
  | .ended .overrun _ _ _ => some 1
  | .armed _ | .running _ _ _ | .ended .done _ _ _ | .ended .broken _ _ _ => some 0

/-- The trigger stamp, held from RUNNING on (R161). -/
def Phase.stamp : Phase → Option Stamp
  | .idle | .armed _ => none
  | .running _ _ t | .ended _ _ _ t => some t

/-- The pools that are neither FILLING nor READY (R161). -/
def Capture.emptyPools (u : Capture) : Nat :=
  Config.pools - (u.ready.length + if u.filling.isEmpty then 0 else 1)

/-- The FILLING pool with the octets given becomes READY under the next sequence number (R165, R166, R168). -/
def Capture.makeReady (u : Capture) (octets : List Octet) (final : Bool) : Capture :=
  { u with
    filling := []
    ready := u.ready ++ [{ sequence := u.nextSequence, final := final, octets := octets }]
    nextSequence := u.nextSequence + 1 }

/-- An octet reaches a RUNNING capture (R165 to R167): it overruns for want of a pool, or it is stored, and then the
length is looked at before the pool. -/
def Capture.store (u : Capture) (job : Job) (captured : Nat) (stamp : Stamp) (o : Octet) :
    Capture × Option EventValue :=
  if u.filling.isEmpty && u.emptyPools == 0 then
    ({ u with phase := .ended .overrun job captured stamp }, some .overrun)
  else if captured + 1 = job.length then
    ({ u.makeReady (u.filling ++ [o]) true with phase := .ended .done job (captured + 1) stamp }, some .done)
  else if u.filling.length + 1 = Config.poolOctets then
    ({ u.makeReady (u.filling ++ [o]) false with phase := .running job (captured + 1) stamp }, some .poolReady)
  else
    ({ u with filling := u.filling ++ [o], phase := .running job (captured + 1) stamp }, none)

/-- The trigger is met by an octet of the source: NOW by any, OCTET by its value, CODE by none (R164). -/
def Trigger.metBy (t : Trigger) (o : Octet) : Bool :=
  match t with
  | .now => true
  | .octet v => o == v
  | .code _ _ _ => false

/-- The unit takes an octet that its source hands over (R163, R164). -/
def Capture.take (u : Capture) (now : Stamp) (o : Octet) : Capture × Option EventValue :=
  match u.phase with
  | .armed job => if job.trigger.metBy o then u.store job 0 now o else (u, none)
  | .running job captured stamp => u.store job captured stamp o
  | .idle | .ended _ _ _ _ => (u, none)

/-- The octet would end the capture at its length (R166). -/
def Capture.endsWith (u : Capture) (now : Stamp) (o : Octet) : Bool := (u.take now o).2 == some .done

/-- The source hands an octet to the unit; a pool or an ending raises its event in the same step (R171). -/
def State.captureOctet (s : State) (o : Octet) : State :=
  match s.capture.take s.timing.stamp o with
  | (u, none) => s.setCapture u
  | (u, some v) => (s.setCapture u).raise .capture v

/-- The supervisor hands over an acceptance: an ARMED capture with that CODE trigger enters RUNNING (R164). -/
def Capture.acceptance (u : Capture) (now : Stamp) (k : Highway) (n : Slot) (c : Code) : Capture :=
  match u.phase with
  | .armed job => if job.trigger = .code k n c then { u with phase := .running job 0 now } else u
  | .idle | .running _ _ _ | .ended _ _ _ _ => u

/-- The source goes down while RUNNING: the FILLING pool becomes READY with the final flag, and the unit enters BROKEN
(R168). -/
def Capture.break (u : Capture) (job : Job) (captured : Nat) (stamp : Stamp) : Capture :=
  { (if u.filling.isEmpty then u else u.makeReady u.filling true) with
    phase := .ended .broken job captured stamp }

def Source.onInput (k : Highway) : Source → Bool
  | .input h _ => decide (h = k)
  | .output _ _ => false

def Source.onOutput (k : Highway) : Source → Bool
  | .output h _ => decide (h = k)
  | .input _ _ => false

/-- A RUNNING capture whose source is on the highway that goes down ends as BROKEN; an ARMED one goes on waiting
(R168). -/
def State.breakCapture (s : State) (down : Source → Bool) : State :=
  match s.capture.phase with
  | .running job captured stamp =>
    if down job.source then (s.setCapture (s.capture.break job captured stamp)).raise .capture .broken else s
  | .idle | .armed _ | .ended _ _ _ _ => s

end Sys2Proof.Machine
end

