-- ==== Sys2Proof/Machine/Supervision.lean ====
section
/-! DEFINITION. The signalling supervisor (chapter 6): collection, evaluation, the persistence filter, and freezing. -/

namespace Sys2Proof.Machine

/-! ### Collecting (R91) -/

/-- Store the four codes of frame number `n`; a flywheel frame sets the spoiled flag (R91). -/
def Supervisor.collect (x : Supervisor) (n : FrameNumber) (f : InFrame) (flywheel : Bool) : Supervisor :=
  { x with
    received :=
      (((x.received.set (signallingSlot n 0) (some (highCode f.sig1))).set (signallingSlot n 1)
        (some (lowCode f.sig1))).set (signallingSlot n 2) (some (highCode f.sig2))).set (signallingSlot n 3)
        (some (lowCode f.sig2))
    spoiled := x.spoiled || flywheel }

/-- The record emptied (R92). -/
def Supervisor.emptied (x : Supervisor) : Supervisor := { x with received := emptyRecord, spoiled := false }

/-! ### The persistence filter (R93) -/

/-- The slot accepts a code: it becomes the stable code, and the candidate becomes absent (R93). -/
def SlotState.accept (x : SlotState) (c : Code) : SlotState := { x with stable := some c, candidate := none }

/-- One slot filtered with its received code under persistence P (R93); the flag tells an acceptance. -/
def SlotState.filter (x : SlotState) (p : Nat) (c : Code) : SlotState × Bool :=
  if x.stable = some c then ({ x with candidate := none }, false)
  else
    match x.candidate with
    | some d =>
      if d.code = c then
        if p ≤ d.count + 1 then (x.accept c, true)
        else ({ x with candidate := some { code := c, count := d.count + 1 } }, false)
      else if p = 1 then (x.accept c, true)
      else ({ x with candidate := some { code := c, count := 1 } }, false)
    | none =>
      if p = 1 then (x.accept c, true)
      else ({ x with candidate := some { code := c, count := 1 } }, false)

/-- The slot filtered with what the record holds for it. An absent position leaves it as it was. -/
def SlotState.filterReceived (x : SlotState) (p : Nat) (c : Option Code) : SlotState × Bool :=
  match c with
  | some c => x.filter p c
  | none => (x, false)

/-- The multiframe is evaluated: not spoiled, and all 64 positions hold a code (R92). -/
def Supervisor.complete (x : Supervisor) : Bool := !x.spoiled && x.received.toList.all Option.isSome

/-- All 64 slots filtered, and the last-evaluation stamp set (R92, R93). -/
def Supervisor.evaluated (x : Supervisor) (p : Nat) (now : Stamp) : Supervisor :=
  { x with
    slots := Vector.ofFn fun n : Slot => (x.slots[n].filterReceived p x.received[n]).1
    lastEvaluation := some now }

/-- The acceptances of an evaluation in slot order: slot, new stable code, watched or not (R95). -/
def Supervisor.acceptances (x : Supervisor) (p : Nat) : List (Slot × Code × Bool) :=
  Machine.slots.filterMap fun n =>
    match x.received[n] with
    | some c => if (x.slots[n].filter p c).2 then some (n, c, x.slots[n].watched) else none
    | none => none

/-- One acceptance handed on: SIG_CHANGE for a watched slot, and the capture unit's CODE trigger in any case (R95). -/
def State.handAcceptance (s : State) (k : Highway) (x : Slot × Code × Bool) : State :=
  let t := s.setCapture (s.capture.acceptance s.timing.stamp k x.1 x.2.1)
  if x.2.2 then t.raise (.sigChange k x.1) (.code x.2.1) else t

/-- The end of an input multiframe: a complete record is evaluated under the P that the receiver then holds (R94), and
the record is emptied in any case (R92). -/
def State.endMultiframe (s : State) (k : Highway) : State :=
  let x := s.sup k
  let p := (s.receiver k).persistence
  if x.complete then
    (x.acceptances p).foldl (fun t a => t.handAcceptance k a)
      (s.setSup k (x.evaluated p s.timing.stamp).emptied)
  else s.setSup k x.emptied

/-- A frame handed to the supervisor, and the end of the multiframe after the frame numbered 15 (R91, R92). -/
def State.superviseFrame (s : State) (k : Highway) (n : FrameNumber) (f : InFrame) (flywheel : Bool) : State :=
  let t := s.setSup k ((s.sup k).collect n f flywheel)
  if n = 15 then t.endMultiframe k else t

/-! ### Freezing (R97) -/

def SlotState.frozen (x : SlotState) : SlotState := { x with candidate := none }

/-- Entry into SEARCH or DISABLED: candidates and counts are cleared and the record is emptied; stable codes, watch
flags and the last-evaluation stamp are kept (R97). -/
def Supervisor.frozen (x : Supervisor) : Supervisor :=
  { x with slots := Vector.ofFn fun n : Slot => x.slots[n].frozen, received := emptyRecord, spoiled := false }

/-! ### Watching (R100) -/

/-- Set or clear the watch flags of `count` slots from `first` on (R100). -/
def Supervisor.watch (x : Supervisor) (first count : Nat) (setting : Bool) : Supervisor :=
  { x with
    slots := Vector.ofFn fun n : Slot =>
      if first ≤ n.val ∧ n.val < first + count then { x.slots[n] with watched := setting } else x.slots[n] }

def Supervisor.watchedCount (x : Supervisor) : Nat := x.slots.toList.countP (·.watched)

end Sys2Proof.Machine
end

