-- ==== Sys2Proof/Machine/Receivers.lean ====
section
/-! DEFINITION. The input receivers (chapter 3): the hunt, the search history, marker positions, and entry into SEARCH
and DISABLED. -/

namespace Sys2Proof.Machine

def State.setAlign (s : State) (k : Highway) (a : Align) (inFrame : Bool) : State :=
  s.setReceiver k { s.receiver k with align := a, inFrame := inFrame }

/-! ### Entry into SEARCH and DISABLED (R49, R50) -/

/-- What entry into SEARCH and entry into DISABLED have in common: the frame queue is emptied (R68) and the supervisor
frozen (R97). -/
def State.leaveTraffic (s : State) (k : Highway) : State :=
  (s.setQueue k emptyQueue).setSup k (s.sup k).frozen

/-- Entry into SEARCH (R49): the hunt begins with `history` to examine, the queue is emptied, the port's framer reset,
a lease held by that port freed, candidates cleared, and a RUNNING capture of this highway broken. Its events are raised
in the order LEASE, CAPTURE; the ALIGN_STATE of an exit from service is raised before. -/
def State.enterSearch (s : State) (k : Highway) (history : List Bool) : State :=
  ((((s.setAlign k (.search history) false).leaveTraffic k).resetFramer k).loseLink k).breakCapture
    (Source.onInput k)

/-- Entry into DISABLED (R50): as entry into SEARCH for the queue, the supervisor and the capture; an exit from service
raises OUT_OF_SERVICE first. R49 and R168 put ALIGN_STATE before CAPTURE for an entry into SEARCH alone, and R111 leaves
either order for different producers. DESIGN CHOICE, unsafe for a claim about the order of the two at an entry into
DISABLED (log 31). -/
def State.enterDisabled (s : State) (k : Highway) : State :=
  let t := (s.setAlign k .disabled false).leaveTraffic k
  let u := if s.inService k then t.raise (.alignState k) .outOfService else t
  u.breakCapture (Source.onInput k)

/-! ### The hunt (R43, R45) -/

/-- The first eight bits begin with 101, so the octet they make is a candidate (R43). -/
def isCandidate : List Bool → Bool
  | true :: false :: true :: _ :: _ :: _ :: _ :: _ :: _ => true
  | _ => false

/-- The last `n` bits of a list. -/
def lastBits (n : Nat) (bits : List Bool) : List Bool := bits.drop (bits.length - n)

/-- The first candidate among bits examined in order: its eight bits (R43). -/
def huntLive : List Bool → Option (List Bool)
  | [] => none
  | b :: rest => if isCandidate (b :: rest) then some ((b :: rest).take 8) else huntLive rest

/-- The octet at marker position `i` of a candidate whose first bit is the first of `bits` (R44): `i` frames on. -/
def markerAt (bits : List Bool) (i : Nat) : Octet := octetOfBits (bits.drop (Config.frameBits * i))

/-- The marker positions of a candidate found among history bits, examined as far as the history reaches (R45): the
confirmation count, or nothing when a position holds a bad marker. A history holds at most three frames and a marker,
and a candidate found in it begins after the first bit, so its third position is never in it. -/
def confirmInHistory (bits : List Bool) : Option Nat :=
  let n := markerNumber (octetOfBits bits)
  if bits.length < Config.frameBits + 8 then some 0
  else if goodMarker (markerAt bits 1) (n + 1) then
    if bits.length < 2 * Config.frameBits + 8 then some 1
    else if goodMarker (markerAt bits 2) (n + 2) then some 2
    else none
  else none

/-- Whether the bits held since the candidate's first bit stand past a whole marker: the frame after it is arriving. -/
def pastMarker (bits : List Bool) : Bool := decide (8 ≤ bits.length % Config.frameBits)

/-- The hunt resumed inside the history (R45): each bit is examined as though it were arriving. The answer is the
alignment state and whether a frame is arriving. -/
def huntHistory : List Bool → Align × Bool
  | [] => (.search [], false)
  | b :: rest =>
    if rest.length < 7 then (.search (b :: rest), false)
    else if isCandidate (b :: rest) then
      match confirmInHistory (b :: rest) with
      | some count =>
        (.confirm (markerNumber (octetOfBits (b :: rest)) + BitVec.ofNat 4 (count + 1)) count (b :: rest),
          pastMarker (b :: rest))
      | none => huntHistory rest
    else huntHistory rest

/-- A failed confirmation (R45): entry into SEARCH, and the hunt resumes at the bit after the candidate's first bit.
The whole search history is examined in the step of the failed marker, and the SEARCH that still holds bits to examine
(R42) is no state that another happening or a READ_HIGHWAY finds: no rule says how long the examination lasts. DESIGN
CHOICE, unsafe for a claim about what stands between the failed marker and the end of the examination (log 28). -/
def State.failConfirmation (s : State) (k : Highway) (history : List Bool) : State :=
  let r := huntHistory (history.drop 1)
  (s.enterSearch k []).setAlign k r.1 r.2

/-- Bits arrive on a hunting highway (R43): at the first candidate the receiver enters CONFIRM with count 0, the expected
number one above the candidate's, and a history that begins with the candidate. Without one it goes on hunting with the
last seven bits, which the next octets share. -/
def State.huntBits (s : State) (k : Highway) (bits : List Bool) : State :=
  match (s.receiver k).align with
  | .search history =>
    match huntLive (history ++ bits) with
    | some c => s.setAlign k (.confirm (markerNumber (octetOfBits c) + 1) 0 c) true
    | none => s.setAlign k (.search (lastBits 7 (history ++ bits))) false
  | .disabled | .confirm _ _ _ | .guard _ _ | .aligned _ | .flywheel _ _ => s

/-! ### Marker positions (R41, R44 to R48) -/

/-- The RA flag of a good marker taken in service: a change is stored and raises REMOTE_ALARM (R54). -/
def State.takeRA (s : State) (k : Highway) (ra : Bool) : State :=
  if (s.receiver k).receivedRA = ra then s
  else (s.setReceiver k { s.receiver k with receivedRA := ra }).raise (.remoteAlarm k) (.alarm ra)

/-- Entry into ALIGNED from CONFIRM or GUARD is entry into service and raises IN_SERVICE (R52). -/
def State.enterService (s : State) (k : Highway) (expected : FrameNumber) (inFrame : Bool) : State :=
  (s.setAlign k (.aligned expected) inFrame).raise (.alignState k) .inService

def State.countMarkerError (s : State) (k : Highway) : State :=
  s.countHighway k fun c => { c with markerErrors := saturate c.markerErrors }

/-- The fourth consecutive bad marker (R48): marker error and alignment loss counted, OUT_OF_SERVICE raised, and a fresh
hunt. -/
def State.loseAlignment (s : State) (k : Highway) : State :=
  (((s.countMarkerError k).countHighway k
    fun c => { c with alignmentLosses := saturate c.alignmentLosses }).raise (.alignState k) .outOfService).enterSearch
    k []

/-- The bits of the present marker position that a resumed hunt left in the history (R45): fewer than eight. -/
def heldMarkerBits (history : List Bool) : List Bool := lastBits (history.length % Config.frameBits) history

/-- The octet at the marker position: bits of it that the history already holds come first (log 8). -/
def markerOctetAt (history : List Bool) (o : Octet) : Octet :=
  match heldMarkerBits history with
  | [] => o
  | held => octetOfBits (held ++ (octetBits o).drop held.length)

/-- A marker position in CONFIRM (R44, R45). `history` includes this marker's bits. -/
def State.markerInConfirm (s : State) (k : Highway) (expected : FrameNumber) (count : Nat) (history : List Bool)
    (o : Octet) : State :=
  if goodMarker o expected then
    if count + 1 < 3 then s.setAlign k (.confirm (expected + 1) (count + 1) history) true
    else if (s.receiver k).guardLength = 0 then (s.enterService k (expected + 1) true).takeRA k (markerRA o)
    else s.setAlign k (.guard (expected + 1) (s.receiver k).guardLength) true
  else s.failConfirmation k history

/-- The octet at a marker position (R41): judged against the expected number, and acted on by the state (R44 to R48).
A receiver in SEARCH or DISABLED, or with a frame still arriving, is at no marker position and is left as it was. -/
def State.markerPosition (s : State) (k : Highway) (o : Octet) : State :=
  if (s.receiver k).inFrame then s
  else
    match (s.receiver k).align with
    | .disabled | .search _ => s
    | .confirm expected count history =>
      s.markerInConfirm k expected count (history ++ (octetBits o).drop (heldMarkerBits history).length)
        (markerOctetAt history o)
    | .guard expected count =>
      if goodMarker o expected then s.setAlign k (.guard (expected + 1) count) true else s.enterSearch k []
    | .aligned expected =>
      if goodMarker o expected then (s.setAlign k (.aligned (expected + 1)) true).takeRA k (markerRA o)
      else (s.setAlign k (.flywheel (expected + 1) 1) true).countMarkerError k
    | .flywheel expected bad =>
      if goodMarker o expected then (s.setAlign k (.aligned (expected + 1)) true).takeRA k (markerRA o)
      else if bad + 1 < 4 then (s.setAlign k (.flywheel (expected + 1) (bad + 1)) true).countMarkerError k
      else s.loseAlignment k

end Sys2Proof.Machine
end

