-- ==== Sys2Proof/Machine/Replies.lean ====
section
/-! DEFINITION. The data of the longer responses (11.2, 11.4): READ_HIGHWAY, READ_COUNTERS, READ_SIGNALING, FETCH_EVENTS,
ARM_CAPTURE and READ_CAPTURE. -/

namespace Sys2Proof.Machine

/-- A refusal that carries no data (11.2). -/
def refusal (status : Status) : Reply := { status := status, data := [] }

def okReply (data : List Octet) : Reply := { status := .ok, data := data }

/-- NO_LEASE carries the holder as it stands (R158). -/
def State.noLease (s : State) : Reply := { status := .noLease, data := [s.holderOctet] }

/-! ### READ_HIGHWAY (R56, R87) -/

def Align.expectedOctet (a : Align) : Octet := orAbsent (a.expected.map fun e => e.setWidth 8)

def Align.confirmOctet : Align → Octet
  | .confirm _ n _ => octet n
  | _ => 0xFF

def Align.guardOctet : Align → Octet
  | .guard _ n => octet n
  | _ => 0xFF

def Align.badOctet : Align → Octet
  | .flywheel _ n => octet n
  | _ => 0xFF

def State.inputPart (s : State) (k : Highway) : List Octet :=
  let r := s.receiver k
  let q := s.queue k
  [flagOctet r.align.enabled, octet r.persistence, octet r.guardLength, alignOctet r.align, flagOctet r.align.inService,
   r.align.expectedOctet, r.align.confirmOctet, r.align.guardOctet, r.align.badOctet, flagOctet r.receivedRA,
   flagOctet (s.output k).raSent, octet q.frames.length, flagOctet q.reading.isSome]

def State.outputPart (s : State) (k : Highway) : List Octet :=
  let o := s.output k
  [flagOctet o.enabled, o.idleOctet, o.idleCode.setWidth 8, orAbsent ((portOn s.straps k).map portOctet),
   s.timing.frame.setWidth 8] ++ pairOctets s.timing.stamp

/-! ### READ_COUNTERS (R58, R148) -/

def HighwayCounters.octets (c : HighwayCounters) : List Octet :=
  pairOctets c.markerErrors ++ pairOctets c.alignmentLosses ++ pairOctets c.dropSlips ++ pairOctets c.repeatSlips

def PortCounters.octets (c : PortCounters) : List Octet :=
  pairOctets c.checkErrors ++ pairOctets c.lengthErrors ++ pairOctets c.busyRefusals ++ pairOctets c.dropped
    ++ pairOctets c.duplicates

/-- Framer state, commands queued, transmit places taken and reserved, cache entries and those IN_PROGRESS (R148). -/
def Port.figures (x : Port) : List Octet :=
  [framerOctet x.framer, octet x.commands.length, octet x.transmit.length,
   octet (x.transmit.countP Place.isReserved), octet x.cache.length,
   octet (x.cache.countP fun e => !e.state.isDone)]

/-- The PORT group: a disabled port B has counters of 0 and its other items absent (R148, R176). -/
def State.portGroup (s : State) (p : PortId) : List Octet :=
  if s.portEnabled p then flagOctet true :: ((s.port p).counters.octets ++ (s.port p).figures)
  else flagOctet false :: (zeroPortCounters.octets ++ List.replicate 6 0xFF)

/-! ### READ_SIGNALING (R102) -/

/-- The octet of one slot: the stable code in bits 3-0, its presence in bit 4, the candidate flag in bit 5, the watch
flag in bit 6. The code bits of an absent stable code are a free value (log 11). -/
def SlotState.octet (x : SlotState) (free : Octet) : Octet :=
  (((BitVec.ofBool false ++ BitVec.ofBool x.watched) ++ BitVec.ofBool x.candidate.isSome)
    ++ BitVec.ofBool x.stable.isSome) ++ (x.stable.getD (lowCode free))

def State.signallingData (s : State) (k : Highway) : List Octet :=
  let x := s.sup k
  [highwayOctet k, alignOctet (s.receiver k).align, Machine.octet (s.receiver k).persistence,
   flagOctet x.lastEvaluation.isSome]
  ++ pairOctets (x.lastEvaluation.getD 0)
  ++ slots.map fun n => x.slots[n].octet (Config.unstated s.draws n.val)

/-! ### FETCH_EVENTS (R120, 11.4) -/

/-- The outcome is answered OK (R114, R120). -/
def FetchOutcome.accepted : FetchOutcome → Bool
  | .held | .stale => false
  | .takenOver _ | .acknowledged | .redelivered | .formed => true

def FetchOutcome.status : FetchOutcome → Status
  | .held => .batchHeld
  | .stale => .staleBatch
  | .takenOver _ | .acknowledged | .redelivered | .formed => .ok

/-- The entries that the response carries: those of the batch outstanding after an accepted FETCH_EVENTS (R115, R117,
R118). -/
def FetchOutcome.entries (x : FetchOutcome) (l : EventList) : List Event :=
  if x.accepted && l.batch.isSome then l.deliveredEntries else []

/-- The flags octet of the fetch header: acknowledged, taken over, the port taken over from, batch outstanding, the port
to which it is bound. A port bit whose own flag is 0 is a free value (log 11); the other bits are reserved. -/
def FetchOutcome.flags (x : FetchOutcome) (l : EventList) (free : Octet) : Octet :=
  let bound := l.batch.map fun b => b.port == PortId.b
  let former : Option Bool := match x with
    | .takenOver p => some (p == PortId.b)
    | _ => none
  ((((0#3 ++ BitVec.ofBool (bound.getD (free.getLsbD 4))) ++ BitVec.ofBool bound.isSome)
    ++ BitVec.ofBool (former.getD (free.getLsbD 2))) ++ BitVec.ofBool former.isSome)
    ++ BitVec.ofBool (x == .acknowledged)

/-- The header and the entries, as they stand at the end of the execution (R120, 11.4). -/
def FetchOutcome.data (x : FetchOutcome) (l : EventList) (free : Octet) : List Octet :=
  let es := x.entries l
  [x.flags l free, (if l.batch.isSome then l.batchNumber else 0), (l.batch.map (·.hold)).getD 0,
   octet es.length, octet l.undeliveredCount] ++ pairOctets l.losses ++ es.flatMap Event.octets

/-! ### The capture unit (R162, R169) -/

/-- The trigger octets of the ARM_CAPTURE response: those the trigger kind uses are as received, the others free values
(log 11). -/
def triggerOctets (kind a b c : Octet) (draw : Nat) : List Octet :=
  if kind = 1 then [a, Config.unstated draw 1, Config.unstated draw 2]
  else if kind = 2 then [a, b, c]
  else [Config.unstated draw 0, Config.unstated draw 1, Config.unstated draw 2]

/-- The captured count as two octets; in IDLE, where it is absent, a free value (log 11). -/
def Phase.capturedOctets (x : Phase) (draw : Nat) : List Octet :=
  match x.captured with
  | some n => pairOctets (BitVec.ofNat 16 n)
  | none => [Config.unstated draw 0, Config.unstated draw 1]

def Phase.lostOctet (x : Phase) : Octet := orAbsent (x.lost.map octet)

/-- The data of a READ_CAPTURE that returns a pool, after its freeing (R169, 11.2). -/
def Capture.poolData (u : Capture) (pool : Pool) (draw : Nat) : List Octet :=
  [captureOctet u.phase, pool.sequence, octet pool.octets.length, flagOctet pool.final, octet u.ready.length]
  ++ u.phase.capturedOctets draw ++ [u.phase.lostOctet] ++ pairOctets (u.phase.stamp.getD 0) ++ pool.octets

end Sys2Proof.Machine
end

