-- ==== Sys2Proof/Machine/RunCommands.lean ====
section
/-! DEFINITION. What each manager command does when it starts at its port (R139): one definition per command, written
from its own rule. Each answers the state after it and its result. -/

namespace Sys2Proof.Machine

/-- How a started command completes (R140). -/
inductive Result where
  | reply (r : Reply)
  | deferred
  | resetAccepted (scope : Scope) (r : Reply)
  deriving DecidableEq, Repr

/-- A lease-required command first passes the check of the lease (R158). -/
def State.leased (s : State) (p : PortId) (run : State × Result) : State × Result :=
  if s.holdsLease p then run else (s, .reply s.noLease)

/-- An octet that names a highway; above 7 it names none (R174). -/
def highwayOf (o : Octet) : Option Highway := if h : o.toNat < 8 then some ⟨o.toNat, h⟩ else none

/-- An octet that names a slot; above 63 it names none (R174). -/
def slotOf (o : Octet) : Option Slot := if h : o.toNat < 64 then some ⟨o.toNat, h⟩ else none

/-- An octet that answers yes or no: 00H or 01H (11.2, R174). -/
def flagOf (o : Octet) : Option Bool := if o = 0 then some false else if o = 1 then some true else none

/-- IDENTIFY (R144). -/
def runIdentify (p : PortId) (s : State) : State × Result :=
  let t := s.straps
  (s, .reply (okReply [0x6B, 0x08, 0x32, 0x01, portOctet p, highwayOctet t.ma, flagOctet t.mbe, highwayOctet t.mb,
    portBStatusOctet t, flagOctet t.four]))

/-- CLAIM (R151). -/
def runClaim (p : PortId) (s : State) : State × Result :=
  if (s.receiver (s.portPair p)).align.hunting then (s, .reply s.noLease)
  else
    match s.lease.holder with
    | none =>
      (s.setLease (s.lease.granted p), .reply (okReply [portOctet p, s.lease.period, s.lease.period, flagOctet false]))
    | some h =>
      if h.port = p then
        (s.setLease (s.lease.granted p), .reply (okReply [portOctet p, s.lease.period, s.lease.period, flagOctet true]))
      else (s, .reply { status := .leaseHeld, data := [portOctet h.port, h.remaining] })

/-- RELEASE (R156). -/
def runRelease (p : PortId) (s : State) : State × Result :=
  if s.holdsLease p then (s.setLease s.lease.freed, .reply (okReply [s.lease.period])) else (s, .reply s.noLease)

/-- SET_LEASE (R157): the new period is stored and is the renewal of this very command. -/
def runSetLease (p : PortId) (period : Octet) (s : State) : State × Result :=
  s.leased p
    (if period = 0 then (s, .reply (refusal .badArgument))
    else (s.setLease (Lease.granted { s.lease with period := period } p), .reply (okReply [period, period])))

/-- RESET (R145): an accepted one is answered OK with its scope and waits for the response to leave. -/
def runReset (p : PortId) (scope : Octet) (s : State) : State × Result :=
  s.leased p
    (if scope = 0 then (s, .resetAccepted .warm (okReply [scope]))
    else if scope = 1 then (s, .resetAccepted .cold (okReply [scope]))
    else (s, .reply (refusal .badArgument)))

/-- WRITE_ENTRIES (R10 to R14). -/
def runWriteEntries (p : PortId) (highway first count : Octet) (octets : List Octet) (s : State) : State × Result :=
  s.leased p
    (match s.engine with
    | .pending _ => (s, .reply (refusal .commitPending))
    | .idle | .syncing _ _ =>
      match highwayOf highway with
      | none => (s, .reply (refusal .badArgument))
      | some k =>
        if 63 < first.toNat ∨ count.toNat = 0 ∨ 24 < count.toNat ∨ octets.length ≠ 4 * count.toNat then
          (s, .reply (refusal .badArgument))
        else
          match s.checkEntries k first.toNat 0 (rawEntries octets) with
          | some (status, i) => (s, .reply { status := status, data := [octet i] })
          | none =>
            (s.writeStandby k first.toNat ((rawEntries octets).map RawEntry.entry),
              .reply (okReply [bankOctet s.standbyBank, highway, first, count, engineOctet s.engine])))

/-- READ_ENTRIES (R15, R16). -/
def runReadEntries (role highway first count : Octet) (s : State) : State × Result :=
  match flagOf role, highwayOf highway with
  | some standby, some k =>
    if 63 < first.toNat ∨ count.toNat = 0 ∨ 24 < count.toNat ∨ 64 < first.toNat + count.toNat then
      (s, .reply (refusal .badArgument))
    else
      let b := if standby then s.standbyBank else s.activeBank
      (s, .reply (okReply ([bankOctet b, highway, first, count] ++ s.readRun b k first.toNat count.toNat)))
  | _, _ => (s, .reply (refusal .badArgument))

/-- CLEAR_STANDBY (R17, R18, R32). -/
def runClearStandby (p : PortId) (s : State) : State × Result :=
  s.leased p
    (match s.engine with
    | .pending _ => (s, .reply (refusal .commitPending))
    | .idle => (s.clearStandbyBank, .reply (okReply [bankOctet s.standbyBank, flagOctet false]))
    | .syncing _ _ =>
      ((s.clearStandbyBank.setEngine .idle).raise .commit .syncCancelled,
        .reply (okReply [bankOctet s.standbyBank, flagOctet true])))

/-- RESYNC (R33). -/
def runResync (p : PortId) (s : State) : State × Result :=
  s.leased p
    (match s.engine with
    | .pending _ => (s, .reply (refusal .commitPending))
    | .syncing _ _ => (s, .reply (refusal .syncing))
    | .idle => (s.setEngine (.syncing 0 noMarks), .reply (okReply [bankOctet s.activeBank])))

/-- COMMIT (R22): accepted in IDLE, with its response deferred. -/
def runCommit (p : PortId) (tag : Octet) (cached : Bool) (s : State) : State × Result :=
  s.leased p
    (match s.engine with
    | .pending _ => (s, .reply (refusal .commitPending))
    | .syncing _ _ => (s, .reply (refusal .syncing))
    | .idle => (s.setEngine (.pending { port := p, tag := tag, cached := cached }), .deferred))

/-- ABORT_COMMIT (R27). -/
def runAbortCommit (p : PortId) (s : State) : State × Result :=
  s.leased p
    (match s.engine with
    | .idle => (s, .reply (refusal .notPending))
    | .syncing pos _ =>
      (s, .reply { status := .tooLate, data := [bankOctet s.activeBank, highwayOctet pos] })
    | .pending r =>
      (((s.setEngine .idle).answerCommit r
          { status := .aborted, data := bankOctet s.activeBank :: pairOctets s.timing.stamp }).raise .commit .aborted,
        .reply (okReply [portOctet r.port, r.tag])))

/-- READ_BANKS (R19). -/
def runReadBanks (s : State) : State × Result :=
  let pos := match s.engine with
    | .syncing pos _ => some (highwayOctet pos)
    | .idle | .pending _ => none
  (s, .reply (okReply ([bankOctet s.activeBank, engineOctet s.engine, orAbsent pos]
    ++ pairOctets (BitVec.ofNat 16 s.dirtyCount) ++ pairOctets (BitVec.ofNat 16 s.differenceCount))))

/-- The enable of a SET_INPUT taken by the receiver (R50, R55): it enters DISABLED, or SEARCH with a fresh hunt, when the
enable differs from its present state. -/
def State.setInputEnable (s : State) (k : Highway) (enable : Bool) : State :=
  if enable = (s.receiver k).align.enabled then s
  else if enable then s.enterSearch k []
  else s.enterDisabled k

/-- SET_INPUT (R55). -/
def runSetInput (p : PortId) (highway enable persistence guard : Octet) (s : State) : State × Result :=
  s.leased p
    (match highwayOf highway, flagOf enable with
    | some k, some e =>
      if persistence.toNat = 0 ∨ 7 < persistence.toNat ∨ 15 < guard.toNat then (s, .reply (refusal .badArgument))
      else if !e && s.isMgmtHighway k then (s, .reply (refusal .protectedSlot))
      else
        let t := s.setReceiver k
          { s.receiver k with persistence := persistence.toNat, guardLength := guard.toNat }
        let u := t.setInputEnable k e
        (u, .reply (okReply [highway, enable, persistence, guard, alignOctet (u.receiver k).align]))
    | _, _ => (s, .reply (refusal .badArgument)))

/-- SET_OUTPUT (R86): disabling a highway breaks a RUNNING capture whose source it is (R168). -/
def runSetOutput (p : PortId) (highway enable idleOctet idleCode : Octet) (s : State) : State × Result :=
  s.leased p
    (match highwayOf highway, flagOf enable with
    | some k, some e =>
      if 15 < idleCode.toNat then (s, .reply (refusal .badArgument))
      else if !e && s.isMgmtHighway k then (s, .reply (refusal .protectedSlot))
      else
        let t := s.setOutput k
          { s.output k with enabled := e, idleOctet := idleOctet, idleCode := lowCode idleCode }
        let u := if (s.output k).enabled && !e then t.breakCapture (Source.onOutput k) else t
        (u, .reply (okReply [highway, enable, idleOctet, idleCode]))
    | _, _ => (s, .reply (refusal .badArgument)))

/-- READ_HIGHWAY (R56, R87). -/
def runReadHighway (highway : Octet) (s : State) : State × Result :=
  match highwayOf highway with
  | some k => (s, .reply (okReply (highway :: (s.inputPart k ++ s.outputPart k))))
  | none => (s, .reply (refusal .badArgument))

/-- READ_COUNTERS of one highway (R58): with clear, the counters are reported and set to 0 in one step. -/
def runReadCountersHighway (number : Octet) (clear : Bool) (s : State) : State × Result :=
  match highwayOf number with
  | some k =>
    (if clear then s.countHighway k (fun _ => zeroHighwayCounters) else s,
      .reply (okReply ([0x00, number] ++ (s.receiver k).counters.octets)))
  | none => (s, .reply (refusal .badArgument))

/-- READ_COUNTERS of one port (R148). -/
def runReadCountersPort (number : Octet) (clear : Bool) (s : State) : State × Result :=
  match flagOf number with
  | some b =>
    let q : PortId := if b then .b else .a
    (if clear then s.countPort q (fun _ => zeroPortCounters) else s,
      .reply (okReply ([0x01, number] ++ s.portGroup q)))
  | none => (s, .reply (refusal .badArgument))

/-- READ_COUNTERS (R58, R148): the lease is asked for with clear = 1 alone. -/
def runReadCounters (p : PortId) (group number clear : Octet) (s : State) : State × Result :=
  if clear = 1 ∧ s.holdsLease p = false then (s, .reply s.noLease)
  else
    match flagOf group, flagOf clear with
    | some false, some c => runReadCountersHighway number c s
    | some true, some c => runReadCountersPort number c s
    | _, _ => (s, .reply (refusal .badArgument))

/-- WATCH (R100). -/
def runWatch (p : PortId) (highway first count setting : Octet) (s : State) : State × Result :=
  s.leased p
    (match highwayOf highway, flagOf setting with
    | some k, some v =>
      if 63 < first.toNat ∨ count.toNat = 0 ∨ 64 < count.toNat ∨ 64 < first.toNat + count.toNat then
        (s, .reply (refusal .badArgument))
      else
        let x := (s.sup k).watch first.toNat count.toNat v
        (s.setSup k x, .reply (okReply [highway, first, count, setting, octet x.watchedCount]))
    | _, _ => (s, .reply (refusal .badArgument)))

/-- READ_SIGNALING (R102). -/
def runReadSignaling (highway : Octet) (s : State) : State × Result :=
  match highwayOf highway with
  | some k => (s.useDraw, .reply (okReply (s.signallingData k)))
  | none => (s, .reply (refusal .badArgument))

/-- The state and the outcome of a FETCH_EVENTS before the timer is looked at (R114 to R118, R122). -/
def State.fetch (s : State) (p : PortId) (ack : Option Octet) : State × FetchOutcome :=
  let x := s.events.fetchOutcome p ack
  ((s.setEvents (s.events.fetched s.timing.stamp p x)).settleAttention, x)

/-- A FETCH_EVENTS is a delivery: its response carries entries (R120). -/
def State.fetchDelivers (s : State) (p : PortId) (ack : Option Octet) : Bool :=
  let f := s.fetch p ack
  !(f.2.entries f.1.events).isEmpty

/-- FETCH_EVENTS (R114 to R120): the list after the outcome, the attention condition re-evaluated, and the timer
restarted or stopped at a delivery (R124). The response gives the list at the end of the execution. -/
def runFetchEvents (p : PortId) (ack : Option Octet) (s : State) : State × Result :=
  let f := s.fetch p ack
  let u := if s.fetchDelivers p ack then f.1.restartTimer else f.1
  (u.useDraw, .reply { status := f.2.status, data := f.2.data u.events (Config.unstated s.draws 0) })

/-- SET_ATTENTION (R126). -/
def runSetAttention (p : PortId) (maskHigh maskLow interval hold : Octet) (s : State) : State × Result :=
  s.leased p
    (if hold = 0 then (s, .reply (refusal .badArgument))
    else
      let mask : BitVec 9 := (pairOf maskHigh maskLow).extractLsb' 0 9
      let t := (s.setEvents { s.events with mask := mask, interval := interval, holdTime := hold }).settleAttention
      let u := t.restartTimer
      (u, .reply (okReply (pairOctets (mask.setWidth 16) ++ [interval, hold, flagOctet u.events.attn]))))

/-- The source that an ARM_CAPTURE names, if its octets are in range (R162). -/
def sourceOf (kind highway slot : Octet) : Option Source :=
  match flagOf kind, highwayOf highway, slotOf slot with
  | some false, some k, some n => some (.input k n)
  | some true, some k, some n => some (.output k n)
  | _, _, _ => none

/-- The trigger that an ARM_CAPTURE names, if its octets are in range (R162); octets its kind does not use are
disregarded (R174). -/
def triggerOf (kind a b c : Octet) : Option Trigger :=
  if kind = 0 then some .now
  else if kind = 1 then some (.octet a)
  else if kind = 2 then
    match highwayOf a, slotOf b with
    | some k, some n => if 15 < c.toNat then none else some (.code k n (lowCode c))
    | _, _ => none
  else none

/-- The length, judged as one number: 1 to 1024 (R162, R174). -/
def lengthOf (high low : Octet) : Option Nat :=
  let n := (pairOf high low).toNat
  if n = 0 ∨ 1024 < n then none else some n

/-- The unit cannot be armed: ARMED or RUNNING, or ended with READY pools left (R162). -/
def Capture.busy (u : Capture) : Bool :=
  match u.phase with
  | .idle => false
  | .armed _ | .running _ _ _ => true
  | .ended _ _ _ _ => !u.ready.isEmpty

/-- An OUTPUT source on a disabled output highway (R162). -/
def State.sourceDisabled (s : State) : Source → Bool
  | .output k _ => !(s.output k).enabled
  | .input _ _ => false

/-- ARM_CAPTURE (R162). -/
def runArmCapture (p : PortId) (kind highway slot trigger a b c lengthHigh lengthLow : Octet) (s : State) :
    State × Result :=
  s.leased p
    (match sourceOf kind highway slot, triggerOf trigger a b c, lengthOf lengthHigh lengthLow with
    | some source, some t, some n =>
      if s.capture.busy then (s, .reply (refusal .captureBusy))
      else if s.sourceDisabled source then (s, .reply (refusal .badArgument))
      else
        ((s.setCapture
            { s.capture with
              phase := .armed { source := source, trigger := t, length := n }, filling := [], ready := [] }).useDraw,
          .reply (okReply ([kind, highway, slot, trigger] ++ triggerOctets trigger a b c s.draws
            ++ [lengthHigh, lengthLow, s.capture.nextSequence])))
    | _, _, _ => (s, .reply (refusal .badArgument)))

/-- READ_CAPTURE (R169). -/
def runReadCapture (s : State) : State × Result :=
  match s.capture.ready with
  | [] =>
    (s.useDraw, .reply
      { status := .notReady
        data := [captureOctet s.capture.phase] ++ s.capture.phase.capturedOctets s.draws
          ++ [s.capture.phase.lostOctet, 0x00] })
  | pool :: rest =>
    let u := { s.capture with ready := rest }
    ((s.setCapture u).useDraw, .reply (okReply (u.poolData pool s.draws)))

/-- CANCEL_CAPTURE (R170): the next sequence number is kept. -/
def runCancelCapture (p : PortId) (s : State) : State × Result :=
  s.leased p
    (s.setCapture { s.capture with phase := .idle, filling := [], ready := [] },
      .reply (okReply [captureOctet s.capture.phase, octet s.capture.ready.length]))

/-- The command executed whole against the block it addresses (R139). -/
def runCommand (p : PortId) (q : Queued) (s : State) : State × Result :=
  match q.command with
  | .identify => runIdentify p s
  | .claim => runClaim p s
  | .release => runRelease p s
  | .setLease period => runSetLease p period s
  | .reset scope => runReset p scope s
  | .writeEntries k n c es => runWriteEntries p k n c es s
  | .readEntries r k n c => runReadEntries r k n c s
  | .clearStandby => runClearStandby p s
  | .resync => runResync p s
  | .commit => runCommit p q.tag q.cached s
  | .abortCommit => runAbortCommit p s
  | .readBanks => runReadBanks s
  | .setInput k e pp g => runSetInput p k e pp g s
  | .setOutput k e o c => runSetOutput p k e o c s
  | .readHighway k => runReadHighway k s
  | .readCounters g n c => runReadCounters p g n c s
  | .watch k n c v => runWatch p k n c v s
  | .readSignaling k => runReadSignaling k s
  | .fetchEvents ack => runFetchEvents p ack s
  | .setAttention h l i t => runSetAttention p h l i t s
  | .armCapture k h n t a b c lh ll => runArmCapture p k h n t a b c lh ll s
  | .readCapture => runReadCapture s
  | .cancelCapture => runCancelCapture p s

end Sys2Proof.Machine
end

