-- ==== Sys2Proof/Machine/Execute.lean ====
section
/-! DEFINITION. The path of a command through its port (R135 to R140): the duplicate check, the judgement on receipt,
admission, the start with its reserved place, and the completion. -/

namespace Sys2Proof.Machine

/-! ### Start and completion (R139, R140) -/

/-- At its start a command reserves the place of its response at the tail of the transmit queue (R139). -/
def State.reservePlace (s : State) (p : PortId) : State :=
  s.setPort p { s.port p with transmit := (s.port p).transmit ++ [.reserved .command] }

/-- The response fills the reserved place and, for a cached tag, the cache entry becomes DONE (R140). -/
def State.answerCommand (s : State) (p : PortId) (q : Queued) (r : Reply) (resets : Option Scope) : State :=
  let x := s.port p
  let m := responseMessage q.tag q.command.code r
  s.setPort p
    { x with
      transmit := fillPlace .command m resets x.transmit
      cache := if q.cached then completeEntry q.tag m x.cache else x.cache }

/-- The head command leaves the command queue (R140). -/
def State.dropHead (s : State) (p : PortId) : State :=
  s.setPort p { s.port p with commands := (s.port p).commands.drop 1 }

/-- An accepted RESET stays at the head, and the commands behind it never start (R140, R145). -/
def State.holdHead (s : State) (p : PortId) : State :=
  s.setPort p
    { s.port p with
      commands := match (s.port p).commands with
        | q :: rest => { q with started := true } :: rest
        | [] => [] }

/-- The place of an accepted COMMIT stays reserved (R140). -/
def State.keepPlace (s : State) (p : PortId) : State :=
  s.setPort p { s.port p with transmit := keepForCommit (s.port p).transmit }

/-- A started command completes in one of three ways (R140). -/
def State.complete (s : State) (p : PortId) (q : Queued) : Result → State
  | .reply r => (s.answerCommand p q r none).dropHead p
  | .deferred => (s.keepPlace p).dropHead p
  | .resetAccepted scope r => (s.answerCommand p q r (some scope)).holdHead p

/-- A command whose place is reserved is executed: the lease is renewed when the port is the holder (R153), the command
is executed whole against the block it addresses, and it completes (R139, R140). -/
def State.executeCommand (s : State) (p : PortId) (q : Queued) : State :=
  let r := runCommand p q (s.renewLease p)
  r.1.complete p q r.2

/-- The head command starts: its place is reserved and it is executed (R139). -/
def State.startCommand (s : State) (p : PortId) (q : Queued) : State := (s.reservePlace p).executeCommand p q

/-- The head command of a port can start: a place is free and the head is no accepted RESET (R139, R145). -/
def Port.canStart (x : Port) : Bool :=
  match x.commands with
  | q :: _ => x.hasPlace && !q.started
  | [] => false

/-- The head command starts while the transmit queue has a free place; an accepted RESET at the head lets nothing start
(R139, R145). `n` bounds how many commands can start one after another. -/
def runQueue : Nat → PortId → State → State
  | 0, _, s => s
  | n + 1, p, s =>
    match (s.port p).commands with
    | [] => s
    | q :: _ => if (s.port p).hasPlace && !q.started then runQueue n p (s.startCommand p q) else s

/-- The commands of a port start as far as they can (R139). -/
def State.runPort (s : State) (p : PortId) : State := runQueue (s.port p).commands.length p s

/-- The execution of a command is a delivery: a FETCH_EVENTS whose response carries entries (R120). -/
def State.delivers (s : State) (p : PortId) (q : Queued) : Bool :=
  match q.command with
  | .fetchEvents ack => (s.renewLease p).fetchDelivers p ack
  | .identify | .claim | .release | .setLease _ | .reset _ | .writeEntries _ _ _ _ | .readEntries _ _ _ _
  | .clearStandby | .resync | .commit | .abortCommit | .readBanks | .setInput _ _ _ _ | .setOutput _ _ _ _
  | .readHighway _ | .readCounters _ _ _ | .watch _ _ _ _ | .readSignaling _ | .setAttention _ _ _ _
  | .armCapture _ _ _ _ _ _ _ _ _ | .readCapture | .cancelCapture => false

/-- One of the commands that `runQueue` starts is a delivery (R120, R139). -/
def queueDelivers : Nat → PortId → State → Bool
  | 0, _, _ => false
  | n + 1, p, s =>
    match (s.port p).commands with
    | [] => false
    | q :: _ =>
      if (s.port p).hasPlace && !q.started then s.delivers p q || queueDelivers n p (s.startCommand p q) else false

/-- One of the commands that `State.runPort` starts is a delivery (R120, R139). -/
def State.portDelivers (s : State) (p : PortId) : Bool := queueDelivers (s.port p).commands.length p s

/-! ### Receipt (R135 to R138) -/

/-- Insert a cache entry for a message with a non-zero tag (R136, R137). -/
def State.cacheMessage (s : State) (p : PortId) (m : Message) (state : CacheState) : State :=
  if m.tag = 0 then s
  else
    s.setPort p
      { s.port p with cache := insertEntry { tag := m.tag, check := m.check, state := state } (s.port p).cache }

/-- An UNKNOWN_COMMAND or BAD_LENGTH answer: cached as DONE for a non-zero tag, and offered (R136). -/
def State.answerReceipt (s : State) (p : PortId) (m : Message) (status : Status) : State :=
  let a := responseMessage m.tag m.code (refusal status)
  (s.cacheMessage p m (.done a)).offerAnswer p a

/-- A BUSY answer: counted, offered, not cached (R137). -/
def State.answerBusy (s : State) (p : PortId) (m : Message) : State :=
  (s.countPort p fun c => { c with busyRefusals := saturate c.busyRefusals }).offerAnswer p
    (responseMessage m.tag m.code (refusal .busy))

/-- A command is admitted to the command queue and starts when it can (R137, R139). -/
def State.enqueue (s : State) (p : PortId) (m : Message) (c : Command) : State :=
  let t := s.cacheMessage p m .inProgress
  let q : Queued := { tag := m.tag, check := m.check, command := c, cached := decide (m.tag ≠ 0), started := false }
  (t.setPort p { t.port p with commands := (t.port p).commands ++ [q] }).runPort p

/-- A new message (R136, R137). -/
def State.receiveNew (s : State) (p : PortId) (m : Message) : State :=
  match m.reading with
  | .refused status => s.answerReceipt p m status
  | .command c =>
    if (s.port p).commands.length < Config.commandPlaces then s.enqueue p m c else s.answerBusy p m

def State.countDuplicate (s : State) (p : PortId) : State :=
  s.countPort p fun c => { c with duplicates := saturate c.duplicates }

/-- A good message is handed to the duplicate check (R135). A message with tag 0 is not compared. -/
def State.receive (s : State) (p : PortId) (m : Message) : State :=
  if m.tag = 0 then s.receiveNew p m
  else
    match (s.port p).cached m.tag with
    | none => s.receiveNew p m
    | some e =>
      if e.check = m.check then
        match e.state with
        | .done response => (s.countDuplicate p).offerAnswer p response
        | .inProgress => s.countDuplicate p
      else (s.forgetEntry p m.tag).receiveNew p m

/-! ### The framer's octets (R132) -/

/-- One octet taken by the framer of a port, with what it brings about (R132, R133, R135). -/
def State.framerOctet (s : State) (p : PortId) (o : Octet) : State :=
  let r := (s.port p).framer.take o
  let t := s.setFramer p r.1
  match r.2 with
  | .none => t
  | .lengthError => t.lengthError p
  | .checkError => t.checkError p
  | .good body =>
    match messageOf body with
    | some m => t.receive p m
    | none => t

/-- The management octets of a completed frame, in slot order: TS63 alone, or TS60 to TS63 (R132). -/
def mgmtOctetsOf (t : Straps) (f : Payload) : List Octet := f.toList.drop (64 - strapWidth t)

/-- The framer of the port on highway `k` takes the management octets of a completed frame (R51, R132). -/
def State.framerFrame (s : State) (k : Highway) (f : Payload) : State :=
  match portOn s.straps k with
  | some p => (mgmtOctetsOf s.straps f).foldl (fun t o => t.framerOctet p o) s
  | none => s

end Sys2Proof.Machine
end

