-- ==== Sys2Proof/Machine/Assembly.lean ====
section
/-! DEFINITION. The building of the output frames (chapter 5) and the octets taken from the transmit queues (R141). -/

namespace Sys2Proof.Machine

/-! ### The transmit stream (R81, R141) -/

/-- One octet from the head of a transmit queue: the next unsent octet of a waiting message, or 00H. A message whose last
octet is taken leaves the queue; the answer's last part says which reset it brings about, if it is the response of an
accepted RESET (R141, R146). -/
def takeOctet : List Place → Octet × List Place × Option Scope
  | .message [o] resets :: rest => (o, rest, resets)
  | .message (o :: os) resets :: rest => (o, .message os resets :: rest, none)
  | places => (0x00, places, none)

/-- The octets for `n` management slots, in slot order (R141). -/
def takeOctets : Nat → List Place → List Octet × List Place × Option Scope
  | 0, places => ([], places, none)
  | n + 1, places =>
    let a := takeOctet places
    let b := takeOctets n a.2.1
    (a.1 :: b.1, b.2.1, a.2.2.or b.2.2)

/-- Whether port `p` gives octets at an output frame start: it is enabled and so is its output highway (R81). -/
def State.portSends (s : State) (p : PortId) : Bool := s.portEnabled p && (s.output (s.portPair p)).enabled

/-- The octets that port `p` gives at an output frame start from its transmit queue, with the queue after them and the
reset they bring about. -/
def State.octetsFrom (s : State) (p : PortId) (places : List Place) : List Octet × List Place × Option Scope :=
  if s.portSends p then takeOctets (strapWidth s.straps) places else ([], places, none)

/-- The octets that port `p` gives from its transmit queue as it stands. -/
def State.portOctets (s : State) (p : PortId) : List Octet × List Place × Option Scope :=
  s.octetsFrom p (s.port p).transmit

/-! ### One frame (R78 to R82) -/

/-- The octet placed in slot `n` of output highway `k` (R80, R81). -/
def State.slotOctet (s : State) (k : Highway) (mgmt : List Octet) (n : Slot) : Octet :=
  let e := s.activeEntry k n
  match e.content with
  | .idle _ => (s.output k).idleOctet
  | .constant value _ => value
  | .slot h m _ =>
    match s.readingFrame h with
    | some f => f[m]
    | none => e.condOctet
  | .mgmt _ => if mgmtSlot s.straps n then (mgmt[n.val - (64 - strapWidth s.straps)]?).getD 0x00 else 0x00

/-- The code sent for slot `n` of output highway `k` (R82). -/
def State.slotCode (s : State) (k : Highway) (n : Slot) : Code :=
  let e := s.activeEntry k n
  match e.content with
  | .idle _ => (s.output k).idleCode
  | .constant _ fixed => fixed
  | .slot _ _ (.fixed code) => code
  | .slot h m .follow =>
    if (s.readingFrame h).isSome then ((s.slotState h m).stable).getD e.condCode else e.condCode
  | .mgmt _ => 0

/-- The frame that the assembler of highway `k` builds from the state at the output frame start (R78, R79, R82). -/
def State.buildLine (s : State) (k : Highway) (mgmt : List Octet) : Line :=
  let n := s.timing.frame
  Vector.ofFn fun i : Fin 67 =>
    if h : 3 ≤ i.val then s.slotOctet k mgmt ⟨i.val - 3, by omega⟩
    else if i.val = 0 then markerOctet (s.receiver k).align.sendsRA n
    else if i.val = 1 then
      signallingOctet (s.slotCode k (signallingSlot n 0)) (s.slotCode k (signallingSlot n 1))
    else signallingOctet (s.slotCode k (signallingSlot n 2)) (s.slotCode k (signallingSlot n 3))

/-- What highway `k` sends from this start on: a built frame, or all ones when it is disabled (R83, R84). The RA flag is
the one that its marker carries or would carry (R53, R87). Management slots hold the idle fill until the port gives its
octets. -/
def State.nextOutput (s : State) (k : Highway) : Output :=
  let o := s.output k
  { o with
    raSent := (s.receiver k).align.sendsRA
    line := if o.enabled then s.buildLine k [] else onesLine }

/-- Every assembler builds its frame from state `f` (R78). -/
def State.buildFrames (s f : State) : State := s.setOutputs (Vector.ofFn fun k => f.nextOutput k)

/-- The management octets are placed into the frame that is built from state `f`, which is otherwise the same (R81). -/
def State.placeOctets (s f : State) (k : Highway) (mgmt : List Octet) : State :=
  s.setOutput k { s.output k with line := f.buildLine k mgmt }

/-- The frames are built anew from state `f`, with the octets that the management slots hold (R78, R81). -/
def State.rebuildFrames (s f : State) : State :=
  s.setOutputs (Vector.ofFn fun k =>
    let o := s.output k
    { o with
      line :=
        if (f.output k).enabled then f.buildLine k (o.line.toList.drop (67 - strapWidth f.straps)) else o.line })

/-- The slot of an output highway is filled from the transmit stream of this port (R81, R85). -/
def State.filledBy (s : State) (k : Highway) (n : Slot) : Option PortId :=
  if mgmtSlot s.straps n then portOn s.straps k else none

end Sys2Proof.Machine
end

