-- ==== Sys2Proof/Machine/InputFrames.lean ====
section
/-! DEFINITION. The completion of an input frame (R51) and the end of a guard period (R46). -/

namespace Sys2Proof.Machine

/-- The number of the frame that completes: one below the expected number (R41). -/
def Align.frameNumber (a : Align) : FrameNumber := (a.expected.getD 0) - 1

/-- FLYWHEEL frames are marked for the supervisor (R51). -/
def Align.isFlywheel : Align → Bool
  | .flywheel _ _ => true
  | _ => false

/-- The guard count at an input multiframe completion: down by one, and at 0 the receiver enters ALIGNED (R46). -/
def State.guardTick (s : State) (k : Highway) (n : FrameNumber) : State :=
  match (s.receiver k).align with
  | .guard expected count =>
    if n = 15 then
      if count ≤ 1 then s.enterService k expected false else s.setAlign k (.guard expected (count - 1)) false
    else s
  | .disabled | .search _ | .confirm _ _ _ | .aligned _ | .flywheel _ _ => s

/-- The share of one block in a frame that completed in alignment state `a` (R51). -/
def State.completionTask (s : State) (k : Highway) (a : Align) (f : InFrame) : CompletionTask → State
  | .queue => if a.inService then s.appendFrame k f.payload else s
  | .supervisor => if a.handsOver then s.superviseFrame k a.frameNumber f a.isFlywheel else s
  | .framer => if a.handsOver then s.framerFrame k f.payload else s
  | .capture =>
    if a.inService then
      match s.capture.phase.job with
      | some { source := .input h n, trigger := _, length := _ } => if h = k then s.captureOctet f.payload[n] else s
      | some { source := .output _ _, trigger := _, length := _ } | none => s
    else s
  | .guard => s.guardTick k a.frameNumber

/-- The standing order of the blocks. -/
def completionTasks : List CompletionTask := [.queue, .supervisor, .framer, .capture, .guard]

/-- Every block takes its share once, in the order given and then in the standing order (R51, log 6). A share is taken
whole: the SIG_CHANGE events of one evaluation (R95) stand together, and no SLIP, ALIGN_STATE, CAPTURE, MGMT_ERROR or
FETCH_EVENTS of the same completion falls between two of them, where R111 leaves either order. DESIGN CHOICE, unsafe for a
claim that nothing falls between them (log 29). -/
def State.handOver (s : State) (k : Highway) (a : Align) (f : InFrame) (order : CompletionOrder) : State :=
  (firstMentions (order ++ completionTasks)).foldl (fun t x => t.completionTask k a f x) s

/-- The bits of the frame body that a history in CONFIRM does not hold yet (R45). -/
def newBodyBits (history : List Bool) (f : InFrame) : List Bool :=
  (frameBodyBits f).drop (history.length % Config.frameBits - 8)

/-- The 67th octet of a frame arrives (R51). In CONFIRM the frame goes to no block and its bits join the search history
(R43, R44). A receiver with no frame arriving has no completion (R40). -/
def State.completeFrame (s : State) (k : Highway) (f : InFrame) (order : CompletionOrder) : State :=
  if (s.receiver k).inFrame then
    match (s.receiver k).align with
    | .disabled | .search _ => s
    | .confirm expected count history =>
      s.setAlign k (.confirm expected count (history ++ newBodyBits history f)) false
    | a => (s.setAlign k a false).handOver k a f order
  else s

end Sys2Proof.Machine
end

