-- ==== Sys2Proof/Machine/Resets.lean ====
section
/-! DEFINITION. The three resets, block by block. -/

namespace Sys2Proof.Machine

/-- Power-on reset (R88): the straps are sampled and every block takes its power-on state. The queue of waiting commands
and the count of free values are the model's and stay. -/
def State.resetPowerOn (s : State) (pins : Straps) : State :=
  { State.powerOn pins with draws := s.draws, pending := s.pending }

/-- Cold reset (R146): every block takes its power-on state and the straps are sampled. The frames being sent are sent to
their end (R88), and RA sent goes with them (R56; log 4). -/
def State.resetCold (s : State) : State :=
  let t := s.resetPowerOn s.pins
  t.setOutputs (Vector.ofFn fun k => { t.outputs[k] with raSent := s.outputs[k].raSent, line := s.outputs[k].line })

/-- The event list after a warm reset: emptied, with mask, interval and hold time kept (R128). -/
def EventList.warm (l : EventList) : EventList :=
  { l with entries := [], losses := 0, batchNumber := 0, batch := none, timer := none, attn := false }

/-- Warm reset: the highway counters are 0 (R60), the event list is emptied (R128), the ports take their reset state
(R149), the lease is freed with its period kept (R160), and the capture unit enters IDLE (R172). The map store and the
commit engine (R8, R38, R39), the receivers' other items (R60), the frame queues (R74), the output assemblers and timing
(R89) and the supervisor (R105) are left as they were. -/
def State.resetWarm (s : State) : State :=
  { s with
    receivers := Vector.ofFn fun k : Highway => { s.receivers[k] with counters := zeroHighwayCounters }
    events := s.events.warm
    portA := initialPort
    portB := initialPort
    lease := { s.lease with holder := none }
    capture := initialCapture }

end Sys2Proof.Machine
end

