-- ==== Sys2Proof/Machine/OutputStart.lean ====
section
/-! DEFINITION. The output frame start (R75): timing, selection of reading frames, frames, swap and sync, the octets and
the command starts of the ports, the capture unit's octet, the tick, and a reset that takes effect at it.

The frames are built from the state as the start finds it (R78), with the bank that is ACTIVE after the swap. Everything
else that comes about at the start is a part of its own, and the order of the parts is an operand where the spec leaves
it open (log 6). Where a rule fixes an order, a part takes with it what comes before it. -/

namespace Sys2Proof.Machine

/-- The output timing begins the next frame (R75). -/
def Timing.advance (t : Timing) : Timing :=
  if t.startPending then { t with startPending := false }
  else { t with frame := t.frame + 1, stamp := if t.frame = 15 then t.stamp + 1 else t.stamp }

/-- An output frame start on its way. `frame` is the state that the frames are built from. `swap` is the swap still to
be made, and `swaps` says that the start has one. `boundary` says that the start is an output multiframe boundary, and
`begun` that the boundary has been taken. `slips` are the highways whose reading frame is repeated. `taken` are
the ports that have given their octets, and `reserved` those whose waiting command has its place but has not been
executed yet. `delivered` says that one of the commands executed was a delivery of the event list (R120, R124). `handed`
lists the highways whose assemblers have handed over their octet. `resetA` and `resetB` are the resets whose response
ended in the frames. `cold` says that a cold reset has taken effect. -/
structure StartRun where
  state     : State
  frame     : State
  swap      : Option PendingCommit
  swaps     : Bool
  boundary  : Bool
  begun     : Bool
  slips     : List Highway
  tick      : Bool
  taken     : List PortId
  reserved  : List PortId
  delivered : Bool
  handed    : List Highway
  resetA    : Option Scope
  resetB    : Option Scope
  cold      : Bool
  deriving DecidableEq, Repr

/-! ### What the start finds -/

/-- The pending commit record, present in PENDING alone (R21). -/
def Engine.record : Engine → Option PendingCommit
  | .pending r => some r
  | .idle | .syncing _ _ => none

/-- The pending commit that the next output frame start swaps: it is a boundary and the engine is PENDING (R25). -/
def State.dueSwap (s : State) : Option PendingCommit := if s.boundaryNext then s.engine.record else none

/-- The state that the frames of the next start are built from (R78): the timing of the frame that begins (R75), the
reading frames that the start selects (R64), and the bank that is ACTIVE after its swap (R25). -/
def State.frameState (s : State) : State :=
  let t := (s.setTiming s.timing.advance).selectAll
  if s.dueSwap.isSome then t.setActiveBank s.standbyBank else t

/-- The frames are built and the reading frames are selected (R64, R78). -/
def State.beginStart (s : State) : StartRun :=
  { state := s.selectAll.buildFrames s.frameState
    frame := s.frameState
    swap := s.dueSwap
    swaps := s.dueSwap.isSome
    boundary := s.boundaryNext
    begun := false
    slips := highways.filter s.repeats
    tick := s.tickNext
    taken := []
    reserved := []
    delivered := false
    handed := []
    resetA := none
    resetB := none
    cold := false }

/-! ### The parts -/

/-- The timing held is that of the frame that begins (R75). A happening taken before this part carries the stamp of the
multiframe that is ending, one taken after it that of the multiframe that begins (R77, log 6). -/
def StartRun.takeTiming (r : StartRun) : StartRun :=
  { r with state := r.state.setTiming r.frame.timing, begun := true }

/-- The repeat slip of a highway, where there is one (R65). -/
def StartRun.takeSlip (r : StartRun) (k : Highway) : StartRun :=
  if k ∈ r.slips then { r with state := r.state.repeatSlip k } else r

/-- The swap, in one step (R25, R26): the bank roles are exchanged, the engine enters SYNCING at OH0 without dirty marks,
the deferred response is made with the new ACTIVE bank and the stamp held, and SWAPPED is raised. -/
def State.makeSwap (s : State) (r : PendingCommit) : State :=
  let t := (s.setActiveBank s.standbyBank).setEngine (.syncing 0 noMarks)
  (t.answerCommit r { status := .ok, data := bankOctet t.activeBank :: pairOctets t.timing.stamp }).raise .commit
    (.swapped t.activeBank)

/-- The engine takes the boundary: the swap of this start, once, or nothing when it finds no commit PENDING (R24, R25).
The swap carries the stamp of the multiframe that begins, so the timing comes before it (R26, R77). -/
def StartRun.takeSwap (r : StartRun) : StartRun :=
  match r.swap with
  | some c => { r.takeTiming with state := r.takeTiming.state.makeSwap c, swap := none }
  | none => { r with begun := true }

/-- The copy of a sync at an output frame start that finds the engine SYNCING (R29): the highway at the sync position is
copied; after OH7 the marks are cleared, the engine enters IDLE and SYNC_DONE is raised. -/
def State.syncStep (s : State) : State :=
  match s.engine with
  | .syncing pos marks =>
    let t := s.copyHighway pos marks
    if pos = 7 then (t.setEngine .idle).raise .commit .syncDone
    else t.setEngine (.syncing (pos + 1) marks)
  | .idle | .pending _ => s

/-- The engine takes the start with the copy of a sync, if one runs. No copy is made at the start that swaps (R25). -/
def StartRun.takeCopy (r : StartRun) : StartRun :=
  if r.swaps then r else { r with state := r.state.syncStep, begun := true }

/-- A port gives its octets to the frame, and in the same step the command waiting at the head of its command queue
reserves its place (R141, R143). -/
def StartRun.takeOctets (r : StartRun) (p : PortId) : StartRun :=
  if p ∈ r.taken then r
  else
    let x := r.state.port p
    let a := r.frame.octetsFrom p x.transmit
    let y := { x with transmit := a.2.1 }
    let t := r.state.setPort p y
    let u := if r.frame.portSends p then t.placeOctets r.frame (r.frame.portPair p) a.1 else t
    { r with
      state := if y.canStart then u.reservePlace p else u
      taken := p :: r.taken
      reserved := if y.canStart then p :: r.reserved else r.reserved
      resetA := if p = .a then a.2.2 else r.resetA
      resetB := if p = .b then a.2.2 else r.resetB }

/-- The assembler of a highway hands over its octets, once (R163). The capture unit takes the one of its source when the
highway was enabled at the start (R85), and disregards it in every state but ARMED and RUNNING: an octet handed over
before an ARM_CAPTURE is no more there for the unit that it arms. An octet of the transmit stream is placed first. -/
def StartRun.handOctet (r : StartRun) (h : Highway) : StartRun :=
  if h ∈ r.handed then r
  else
    match r.state.capture.phase.job with
    | some { source := .output k n, trigger := _, length := _ } =>
      if k = h ∧ (r.frame.output k).enabled = true then
        let q := match r.frame.filledBy k n with
          | some p => r.takeOctets p
          | none => r
        { q with
          state := q.state.captureOctet ((q.state.output k).line[3 + n.val]'(by omega))
          handed := h :: r.handed
          begun := true }
      else { r with handed := h :: r.handed }
    | some { source := .input _ _, trigger := _, length := _ } | none => { r with handed := h :: r.handed }

/-- Every assembler that has not yet handed over its octets does (R85, R163). -/
def StartRun.takeCapture (r : StartRun) : StartRun := highways.foldl StartRun.handOctet r

/-- What comes before a command that the start lets start. An ABORT_COMMIT and the boundary may be taken in either order:
taken first it finds the engine PENDING and carries the ending stamp, and after the boundary it finds the swap made (R28,
R77). A SET_OUTPUT comes after the octets that the frame of the start placed on its highway (R85, R168, log 6). A READ_HIGHWAY gives the figures
of the frame that begins (R87, log 27). Every other command may come before or after each part. -/
def StartRun.before (r : StartRun) : Command → StartRun
  | .abortCommit => if r.begun then r.takeSwap else r
  | .setOutput highway _ _ _ =>
    match highwayOf highway with
    | some h => r.handOctet h
    | none => r
  | .readHighway _ => r.takeTiming
  | .identify | .claim | .release | .setLease _ | .reset _ | .writeEntries _ _ _ _ | .readEntries _ _ _ _
  | .clearStandby | .resync | .commit | .readBanks | .setInput _ _ _ _ | .readCounters _ _ _ | .watch _ _ _ _
  | .readSignaling _ | .fetchEvents _ | .setAttention _ _ _ _ | .armCapture _ _ _ _ _ _ _ _ _ | .readCapture
  | .cancelCapture => r

/-- The swap that the start is to make is `c`, or none. Where that changes, the frames are built from the other bank (R25,
R78). -/
def StartRun.setSwap (r : StartRun) (c : Option PendingCommit) : StartRun :=
  if c.isSome = r.swap.isSome then { r with swap := c }
  else
    let f := r.frame.setActiveBank (otherBank r.frame.activeBank)
    { r with state := r.state.rebuildFrames f, frame := f, swap := c, swaps := c.isSome }

/-- A command executed before the boundary is taken decides what the boundary finds: a COMMIT accepted there swaps at this
boundary (R24), and an ABORT_COMMIT cancels the swap (R28). -/
def StartRun.checkSwap (r : StartRun) : StartRun :=
  if r.boundary && !r.begun then r.setSwap r.state.engine.record else r

/-- The command whose place is reserved is executed, and so are commands behind it while places are free (R139). -/
def StartRun.execute (r : StartRun) (p : PortId) : StartRun :=
  if p ∈ r.reserved then
    match (r.state.port p).commands with
    | q :: _ =>
      let u := r.before q.command
      let t := u.state.executeCommand p q
      StartRun.checkSwap
        { u with
          state := t.runPort p
          reserved := u.reserved.filter (· ≠ p)
          delivered := u.delivered || u.state.delivers p q || t.portDelivers p }
    | [] => r
  else r

/-- A command that this start lets start (R143), after the octets that freed its place. A command of the other port that
has its place already is executed first, since each is executed whole (R139). -/
def StartRun.startCommand (r : StartRun) (p : PortId) : StartRun :=
  let q := r.takeOctets p
  if p ∈ q.reserved then (q.execute (otherPort p)).execute p else q

/-- Of two resets due at one start the one taken first takes effect (R146). -/
def StartRun.resetDue (r : StartRun) (resetBFirst : Bool) : Option Scope :=
  if resetBFirst then r.resetB.or r.resetA else r.resetA.or r.resetB

/-- What comes before a reset has come about: the swap (R37, R38), the octets of both ports (R146), and the commands that
started with them (log 17). -/
def StartRun.resetReady (r : StartRun) : Bool :=
  r.swap.isNone && decide (.a ∈ r.taken) && decide (.b ∈ r.taken) && r.reserved.isEmpty

/-- The reset takes effect, after the frames have been built (R146). It is then due no more. -/
def StartRun.takeReset (r : StartRun) (resetBFirst : Bool) : StartRun :=
  if r.resetReady then
    match r.resetDue resetBFirst with
    | some .warm => { r with state := r.state.resetWarm, delivered := false, resetA := none, resetB := none }
    | some .cold => { r with state := r.state.resetCold, resetA := none, resetB := none, cold := true }
    | none => r
  else r

/-- One part of an output frame start. The tick goes to the lease unit and to the event list (R76). After a cold reset
the part is in its power-on state, and nothing of this start is left (R37, R146). -/
def StartRun.task (r : StartRun) (order : StartOrder) (x : StartTask) : StartRun :=
  if r.cold then r
  else
    match x with
    | .timing => r.takeTiming
    | .slip k => r.takeSlip k
    | .swap => r.takeSwap
    | .copy => r.takeCopy
    | .take p => r.takeOctets p
    | .start p => r.startCommand p
    | .capture => r.takeCapture
    | .leaseTick => if r.tick then { r with state := r.state.leaseTick } else r
    | .listTick => if r.tick then { r with state := r.state.listTick order.timerFirst r.delivered } else r
    | .reset => r.takeReset order.resetBFirst

/-- The standing order of the parts. -/
def startTasks : List StartTask :=
  .timing :: highways.map .slip ++
    [.swap, .copy, .take .a, .take .b, .capture, .start .a, .start .b, .leaseTick, .listTick, .reset]

/-- The parts of a start in the order given and then in the standing order, each once (log 6). -/
def startParts (order : StartOrder) : List StartTask := firstMentions (order.tasks ++ startTasks)

/-- An output frame start (R75): each part once. A reset that the order names before what it follows on takes effect at
the end (R146). -/
def State.outputStart (s : State) (order : StartOrder) : State :=
  let r := (startParts order).foldl (fun r x => r.task order x) s.beginStart
  (r.task order .reset).state

/-- The parts that can undo a case of the start before it has come about: the commands that start, and a reset. -/
def undoesCase : StartTask → Bool
  | .start _ | .reset => true
  | .timing | .slip _ | .swap | .copy | .take _ | .capture | .leaseTick | .listTick => false

/-- The same order with one part taken, at the latest, before the commands that start and before a reset. -/
def withEarly (x : StartTask) (o : StartOrder) : StartOrder :=
  { o with
    tasks := o.tasks.takeWhile (fun y => !undoesCase y) ++ x :: o.tasks.dropWhile (fun y => !undoesCase y) }

/-- The standing order throughout. -/
def standingOrder : StartOrder := { tasks := [], timerFirst := false, resetBFirst := false }

end Sys2Proof.Machine
end

