-- ==== Sys2Proof/Machine/InputHappenings.lean ====
section
/-! DEFINITION. The happenings of the input highways as commands, and CAPTURE_DONE. A command that names a case of a
marker position, of a frame completion or of an output frame start is that whole happening. Given to a part in which the
case does not come about, it is no happening and leaves the part as it was. DESIGN CHOICE, safe (log 1, log 7). -/

namespace Sys2Proof.Machine

/-- HUNT_CANDIDATE (R43): bits arrive on highway `k`, up to the last bit of the candidate. -/
def execHuntCandidate (k : Highway) (bits : List Bool) (s : State) : Host.Outcome State Fault Refusal :=
  .next (s.huntBits k bits)

/-- MARKER_POSITION (R41, R44 to R48). -/
def execMarkerPosition (k : Highway) (o : Octet) (s : State) : Host.Outcome State Fault Refusal :=
  .next (s.markerPosition k o)

/-- The octet is the third good marker of a confirmation (R44). -/
def State.thirdGoodMarker (s : State) (k : Highway) (o : Octet) : Bool :=
  match (s.receiver k).align with
  | .confirm expected count history =>
    !(s.receiver k).inFrame && count == 2 && goodMarker (markerOctetAt history o) expected
  | .disabled | .search _ | .guard _ _ | .aligned _ | .flywheel _ _ => false

/-- CONFIRMATION_COMPLETE (R44): the marker position of the third good marker. -/
def execConfirmationComplete (k : Highway) (o : Octet) (s : State) : Host.Outcome State Fault Refusal :=
  if s.thirdGoodMarker k o then .next (s.markerPosition k o) else .next s

/-- The octet is the fourth consecutive bad marker (R48). -/
def State.fourthBadMarker (s : State) (k : Highway) (o : Octet) : Bool :=
  match (s.receiver k).align with
  | .flywheel expected bad => !(s.receiver k).inFrame && bad == 3 && !goodMarker o expected
  | .disabled | .search _ | .confirm _ _ _ | .guard _ _ | .aligned _ => false

/-- ALIGNMENT_LOSS (R48): the marker position of the fourth consecutive bad marker. -/
def execAlignmentLoss (k : Highway) (o : Octet) (s : State) : Host.Outcome State Fault Refusal :=
  if s.fourthBadMarker k o then .next (s.markerPosition k o) else .next s

/-- The frame that arrives on highway `k` ends the guard period: it is numbered 15 and the guard count is 1 (R46). -/
def State.guardEnds (s : State) (k : Highway) : Bool :=
  match (s.receiver k).align with
  | .guard expected count => (s.receiver k).inFrame && count == 1 && expected == 0
  | .disabled | .search _ | .confirm _ _ _ | .aligned _ | .flywheel _ _ => false

/-- GUARD_END (R46): the input multiframe completion that brings the guard count to 0. -/
def execGuardEnd (k : Highway) (f : InFrame) (order : CompletionOrder) (s : State) :
    Host.Outcome State Fault Refusal :=
  if s.guardEnds k then .next (s.completeFrame k f order) else .next s

/-- INPUT_FRAME_COMPLETION (R51). -/
def execInputFrameCompletion (k : Highway) (f : InFrame) (order : CompletionOrder) (s : State) :
    Host.Outcome State Fault Refusal :=
  .next (s.completeFrame k f order)

/-- The octet that the source of the capture hands over at this happening brings the captured count to the length
(R163, R166). -/
def State.captureEnds (s : State) (o : Octet) : Bool := s.capture.endsWith s.timing.stamp o

/-- CAPTURE_DONE (R166): the frame completion, or the output frame start, whose octet ends the capture at its length.
At a completion the capture unit takes its octet before the other blocks take theirs, and at a start before the commands
that start (R163). -/
def execCaptureDone (f : InFrame) (completion : CompletionOrder) (start : StartOrder) (s : State) :
    Host.Outcome State Fault Refusal :=
  match s.capture.phase.job with
  | some { source := .input k n, trigger := _, length := _ } =>
    if (s.receiver k).inFrame && s.inService k && s.captureEnds f.payload[n] then
      .next (s.completeFrame k f (.capture :: completion))
    else .next s
  | some { source := .output k n, trigger := _, length := _ } =>
    let t := s.outputStart (withEarly .capture start)
    if (s.output k).enabled && s.captureEnds ((t.output k).line[3 + n.val]'(by omega)) then .next t else .next s
  | none => .next s

end Sys2Proof.Machine
end

