-- ==== Sys2Proof/Machine/MessageCommands.lean ====
section
/-! DEFINITION. GOOD_MESSAGE and the manager commands. Each manager command is the good message that carries it in its
own layout, handed to the duplicate check of its port (log 9). A port that can take no octets receives nothing, and the
command then leaves the part as it was (R51, R129, R132). -/

namespace Sys2Proof.Machine

/-- The port takes the good message that carries command `c` with tag `tag` (R131, R135). -/
def State.takeCommand (s : State) (p : PortId) (tag : Octet) (c : Command) : State :=
  if s.portReceives p then s.receive p (commandMessage tag c) else s

/-- GOOD_MESSAGE (R135): the framer of the port hands over a complete message with a correct check. The framer's own
octets belong to the frame completions (log 10). -/
def execGoodMessage (p : PortId) (body : List Octet) (s : State) : Host.Outcome State Fault Refusal :=
  if s.portReceives p && decide (body.length ≤ 124) then
    match messageOf body with
    | some m => .next (s.receive p m)
    | none => .next s
  else .next s

/-- IDENTIFY (R144). -/
def execIdentify (p : PortId) (tag : Octet) (s : State) : Host.Outcome State Fault Refusal :=
  .next (s.takeCommand p tag .identify)

/-- CLAIM (R151). -/
def execClaim (p : PortId) (tag : Octet) (s : State) : Host.Outcome State Fault Refusal :=
  .next (s.takeCommand p tag .claim)

/-- RELEASE (R156). -/
def execRelease (p : PortId) (tag : Octet) (s : State) : Host.Outcome State Fault Refusal :=
  .next (s.takeCommand p tag .release)

/-- SET_LEASE (R157). -/
def execSetLease (p : PortId) (tag period : Octet) (s : State) : Host.Outcome State Fault Refusal :=
  .next (s.takeCommand p tag (.setLease period))

/-- RESET (R145). -/
def execReset (p : PortId) (tag scope : Octet) (s : State) : Host.Outcome State Fault Refusal :=
  .next (s.takeCommand p tag (.reset scope))

/-- WRITE_ENTRIES (R10 to R14). No message holds more than 119 octets after the count (R131). -/
def execWriteEntries (p : PortId) (tag highway first count : Octet) (octets : List Octet) (s : State) :
    Host.Outcome State Fault Refusal :=
  if octets.length ≤ 119 then .next (s.takeCommand p tag (.writeEntries highway first count octets)) else .next s

/-- READ_ENTRIES (R15). -/
def execReadEntries (p : PortId) (tag role highway first count : Octet) (s : State) :
    Host.Outcome State Fault Refusal :=
  .next (s.takeCommand p tag (.readEntries role highway first count))

/-- CLEAR_STANDBY (R17, R18). -/
def execClearStandby (p : PortId) (tag : Octet) (s : State) : Host.Outcome State Fault Refusal :=
  .next (s.takeCommand p tag .clearStandby)

/-- RESYNC (R33). -/
def execResync (p : PortId) (tag : Octet) (s : State) : Host.Outcome State Fault Refusal :=
  .next (s.takeCommand p tag .resync)

/-- COMMIT (R22). -/
def execCommit (p : PortId) (tag : Octet) (s : State) : Host.Outcome State Fault Refusal :=
  .next (s.takeCommand p tag .commit)

/-- ABORT_COMMIT (R27). -/
def execAbortCommit (p : PortId) (tag : Octet) (s : State) : Host.Outcome State Fault Refusal :=
  .next (s.takeCommand p tag .abortCommit)

/-- READ_BANKS (R19). -/
def execReadBanks (p : PortId) (tag : Octet) (s : State) : Host.Outcome State Fault Refusal :=
  .next (s.takeCommand p tag .readBanks)

/-- SET_INPUT (R55). -/
def execSetInput (p : PortId) (tag highway enable persistence guard : Octet) (s : State) :
    Host.Outcome State Fault Refusal :=
  .next (s.takeCommand p tag (.setInput highway enable persistence guard))

/-- SET_OUTPUT (R86). -/
def execSetOutput (p : PortId) (tag highway enable idleOctet idleCode : Octet) (s : State) :
    Host.Outcome State Fault Refusal :=
  .next (s.takeCommand p tag (.setOutput highway enable idleOctet idleCode))

/-- READ_HIGHWAY (R56, R87). -/
def execReadHighway (p : PortId) (tag highway : Octet) (s : State) : Host.Outcome State Fault Refusal :=
  .next (s.takeCommand p tag (.readHighway highway))

/-- READ_COUNTERS with group HIGHWAY (R58). -/
def execReadCountersHighway (p : PortId) (tag number clear : Octet) (s : State) : Host.Outcome State Fault Refusal :=
  .next (s.takeCommand p tag (.readCounters 0x00 number clear))

/-- READ_COUNTERS with group PORT (R148). -/
def execReadCountersPort (p : PortId) (tag number clear : Octet) (s : State) : Host.Outcome State Fault Refusal :=
  .next (s.takeCommand p tag (.readCounters 0x01 number clear))

/-- WATCH (R100). -/
def execWatch (p : PortId) (tag highway first count setting : Octet) (s : State) : Host.Outcome State Fault Refusal :=
  .next (s.takeCommand p tag (.watch highway first count setting))

/-- READ_SIGNALING (R102). -/
def execReadSignaling (p : PortId) (tag highway : Octet) (s : State) : Host.Outcome State Fault Refusal :=
  .next (s.takeCommand p tag (.readSignaling highway))

/-- FETCH_EVENTS (R114). -/
def execFetchEvents (p : PortId) (tag : Octet) (ack : Option Octet) (s : State) : Host.Outcome State Fault Refusal :=
  .next (s.takeCommand p tag (.fetchEvents ack))

/-- SET_ATTENTION (R126). -/
def execSetAttention (p : PortId) (tag maskHigh maskLow interval hold : Octet) (s : State) :
    Host.Outcome State Fault Refusal :=
  .next (s.takeCommand p tag (.setAttention maskHigh maskLow interval hold))

/-- ARM_CAPTURE (R162). -/
def execArmCapture (p : PortId) (tag kind highway slot trigger a b c lengthHigh lengthLow : Octet) (s : State) :
    Host.Outcome State Fault Refusal :=
  .next (s.takeCommand p tag (.armCapture kind highway slot trigger a b c lengthHigh lengthLow))

/-- READ_CAPTURE (R169). -/
def execReadCapture (p : PortId) (tag : Octet) (s : State) : Host.Outcome State Fault Refusal :=
  .next (s.takeCommand p tag .readCapture)

/-- CANCEL_CAPTURE (R170). -/
def execCancelCapture (p : PortId) (tag : Octet) (s : State) : Host.Outcome State Fault Refusal :=
  .next (s.takeCommand p tag .cancelCapture)

end Sys2Proof.Machine
end

