-- ==== Sys2Proof/Machine/StartHappenings.lean ====
section
/-! DEFINITION. The resets and the output frame start as commands, with the named cases of an output frame start: SWAP,
SYNC_COPY, SYNC_DONE, LEASE_EXPIRED, BATCH_LAPSE, NOTICE_TIMER_EXPIRY, COLD_RESET_EFFECT and WARM_RESET_EFFECT. A named
case is the whole output frame start in which it comes about. Given to a part in which it does not come about, it is no
happening and leaves the part as it was. DESIGN CHOICE, safe (log 1). -/

namespace Sys2Proof.Machine

/-- The reset that the octets taken from port `p` at the next output frame start bring about (R141, R146). -/
def State.resetNext (s : State) (p : PortId) : Option Scope := (s.portOctets p).2.2

/-- POWER_ON_RESET (R88, R129): the straps are sampled at the levels given, and every block takes its power-on state. -/
def execPowerOnReset (pins : Straps) (s : State) : Host.Outcome State Fault Refusal :=
  .next (s.resetPowerOn pins)

/-- COLD_RESET_EFFECT (R146): the output frame start at which the last octet of the response of an accepted RESET COLD is
taken, that reset being the one taken first, with the strap pins at the levels given. -/
def execColdResetEffect (pins : Straps) (order : StartOrder) (s : State) : Host.Outcome State Fault Refusal :=
  if s.resetNext .a = some .cold then .next ((s.setPins pins).outputStart { order with resetBFirst := false })
  else if s.resetNext .b = some .cold then .next ((s.setPins pins).outputStart { order with resetBFirst := true })
  else .next s

/-- WARM_RESET_EFFECT (R146): the output frame start at which the last octet of the response of an accepted RESET WARM is
taken, that reset being the one taken first. -/
def execWarmResetEffect (order : StartOrder) (s : State) : Host.Outcome State Fault Refusal :=
  if s.resetNext .a = some .warm then .next (s.outputStart { order with resetBFirst := false })
  else if s.resetNext .b = some .warm then .next (s.outputStart { order with resetBFirst := true })
  else .next s

/-- OUTPUT_FRAME_START (R75), with everything that comes about at it. -/
def execOutputFrameStart (order : StartOrder) (s : State) : Host.Outcome State Fault Refusal :=
  .next (s.outputStart order)

def Engine.isPending : Engine → Bool
  | .pending _ => true
  | .idle | .syncing _ _ => false

/-- SWAP (R25): the output multiframe boundary that finds the engine PENDING, with the swap taken before the commands
that start (R28). -/
def execSwap (order : StartOrder) (s : State) : Host.Outcome State Fault Refusal :=
  if s.boundaryNext && s.engine.isPending then .next (s.outputStart (withEarly .swap order)) else .next s

/-- The sync position, held in SYNCING alone (R21). -/
def Engine.position : Engine → Option Highway
  | .syncing pos _ => some pos
  | .idle | .pending _ => none

/-- SYNC_COPY (R29): an output frame start that finds the engine SYNCING, with the copy taken before the
commands that start (R13, R16, R18). -/
def execSyncCopy (order : StartOrder) (s : State) : Host.Outcome State Fault Refusal :=
  if s.engine.position.isSome then .next (s.outputStart (withEarly .copy order)) else .next s

/-- SYNC_DONE (R29): the output frame start at which the sync copies OH7, with the copy taken before the
commands that start and before a reset (R32, R39). -/
def execSyncDone (order : StartOrder) (s : State) : Host.Outcome State Fault Refusal :=
  if s.engine.position = some 7 then .next (s.outputStart (withEarly .copy order)) else .next s

/-- The next tick brings the remaining time of the lease to 0 (R154). -/
def State.leaseRunsOut (s : State) : Bool :=
  s.tickNext &&
    (match s.lease.holder with
    | some h => decide (h.remaining.toNat ≤ 1)
    | none => false)

/-- LEASE_EXPIRED (R154): the tick that brings the remaining time to 0, taken before the commands that
start (R152, R154). -/
def execLeaseExpired (order : StartOrder) (s : State) : Host.Outcome State Fault Refusal :=
  if s.leaseRunsOut then .next (s.outputStart (withEarly .leaseTick order)) else .next s

/-- The next tick brings the remaining hold of the outstanding batch to 0 (R119). -/
def State.holdRunsOut (s : State) : Bool :=
  s.tickNext &&
    (match s.events.batch with
    | some b => b.hold == 1
    | none => false)

/-- BATCH_LAPSE (R119): the tick that brings the remaining hold to 0, taken before the commands that
start. -/
def execBatchLapse (order : StartOrder) (s : State) : Host.Outcome State Fault Refusal :=
  if s.holdRunsOut then .next (s.outputStart (withEarly .listTick order)) else .next s

/-- The next tick brings the notice timer to 0 (R124). -/
def State.timerRunsOut (s : State) : Bool :=
  s.tickNext &&
    (match s.events.timer with
    | some t => decide (t.toNat ≤ 1)
    | none => false)

/-- NOTICE_TIMER_EXPIRY (R124): the tick at which the notice timer expires, taken before the commands that
start. -/
def execNoticeTimerExpiry (order : StartOrder) (s : State) : Host.Outcome State Fault Refusal :=
  if s.timerRunsOut then .next (s.outputStart (withEarly .listTick order)) else .next s

end Sys2Proof.Machine
end

