-- ==== Sys2Proof/Machine/Dispatch.lean ====
section
/-! DEFINITION. The meaning of each command: one arm for each row of spec/opcode_table.json. -/

namespace Sys2Proof.Machine

/-- The effect of a command on everything but the queue of waiting commands. -/
def exec (i : Instr) (s : State) : Host.Outcome State Fault Refusal :=
  match i with
  | .powerOnReset pins => Sys2Proof.Machine.execPowerOnReset pins s
  | .coldResetEffect pins order => Sys2Proof.Machine.execColdResetEffect pins order s
  | .warmResetEffect order => Sys2Proof.Machine.execWarmResetEffect order s
  | .outputFrameStart order => Sys2Proof.Machine.execOutputFrameStart order s
  | .swap order => Sys2Proof.Machine.execSwap order s
  | .syncCopy order => Sys2Proof.Machine.execSyncCopy order s
  | .syncDone order => Sys2Proof.Machine.execSyncDone order s
  | .leaseExpired order => Sys2Proof.Machine.execLeaseExpired order s
  | .batchLapse order => Sys2Proof.Machine.execBatchLapse order s
  | .noticeTimerExpiry order => Sys2Proof.Machine.execNoticeTimerExpiry order s
  | .huntCandidate k bits => Sys2Proof.Machine.execHuntCandidate k bits s
  | .markerPosition k octet => Sys2Proof.Machine.execMarkerPosition k octet s
  | .confirmationComplete k octet => Sys2Proof.Machine.execConfirmationComplete k octet s
  | .alignmentLoss k octet => Sys2Proof.Machine.execAlignmentLoss k octet s
  | .guardEnd k frame order => Sys2Proof.Machine.execGuardEnd k frame order s
  | .inputFrameCompletion k frame order => Sys2Proof.Machine.execInputFrameCompletion k frame order s
  | .goodMessage p body => Sys2Proof.Machine.execGoodMessage p body s
  | .identify p tag => Sys2Proof.Machine.execIdentify p tag s
  | .claim p tag => Sys2Proof.Machine.execClaim p tag s
  | .release p tag => Sys2Proof.Machine.execRelease p tag s
  | .setLease p tag period => Sys2Proof.Machine.execSetLease p tag period s
  | .reset p tag scope => Sys2Proof.Machine.execReset p tag scope s
  | .writeEntries p tag highway first count octets => Sys2Proof.Machine.execWriteEntries p tag highway first count octets s
  | .readEntries p tag role highway first count => Sys2Proof.Machine.execReadEntries p tag role highway first count s
  | .clearStandby p tag => Sys2Proof.Machine.execClearStandby p tag s
  | .resync p tag => Sys2Proof.Machine.execResync p tag s
  | .commit p tag => Sys2Proof.Machine.execCommit p tag s
  | .abortCommit p tag => Sys2Proof.Machine.execAbortCommit p tag s
  | .readBanks p tag => Sys2Proof.Machine.execReadBanks p tag s
  | .setInput p tag highway enable persistence guard => Sys2Proof.Machine.execSetInput p tag highway enable persistence guard s
  | .setOutput p tag highway enable idleOctet idleCode => Sys2Proof.Machine.execSetOutput p tag highway enable idleOctet idleCode s
  | .readHighway p tag highway => Sys2Proof.Machine.execReadHighway p tag highway s
  | .readCountersHighway p tag number clear => Sys2Proof.Machine.execReadCountersHighway p tag number clear s
  | .readCountersPort p tag number clear => Sys2Proof.Machine.execReadCountersPort p tag number clear s
  | .watch p tag highway first count setting => Sys2Proof.Machine.execWatch p tag highway first count setting s
  | .readSignaling p tag highway => Sys2Proof.Machine.execReadSignaling p tag highway s
  | .fetchEvents p tag ack => Sys2Proof.Machine.execFetchEvents p tag ack s
  | .setAttention p tag maskHigh maskLow interval hold => Sys2Proof.Machine.execSetAttention p tag maskHigh maskLow interval hold s
  | .armCapture p tag kind highway slot trigger a b c lengthHigh lengthLow => Sys2Proof.Machine.execArmCapture p tag kind highway slot trigger a b c lengthHigh lengthLow s
  | .readCapture p tag => Sys2Proof.Machine.execReadCapture p tag s
  | .cancelCapture p tag => Sys2Proof.Machine.execCancelCapture p tag s
  | .captureDone frame completion start => Sys2Proof.Machine.execCaptureDone frame completion start s

end Sys2Proof.Machine
end

