-- ==== Sys2Proof/Safety.lean ====
section
/-! DEFINITION. What the statements say of the part: the invariants that the spec gives it, the terms in which the
result of a command is told, and what an output frame start finds. -/

namespace Sys2Proof.Machine

/-! ### Invariants -/

/-- The source of a SLOT entry (R2). -/
def Entry.source (e : Entry) : Option (Highway × Slot) :=
  match e.content with
  | .slot h n _ => some (h, n)
  | .idle _ | .constant _ _ | .mgmt _ => none

def Entry.isMgmt (e : Entry) : Bool :=
  match e.content with
  | .mgmt _ => true
  | .idle _ | .slot _ _ _ | .constant _ _ => false

/-- One entry as R6 confines it. -/
def State.entryOk (s : State) (k : Highway) (n : Slot) (e : Entry) : Prop :=
  if s.isProtected k n then e = protectedEntry
  else e.isMgmt = false ∧ ∀ h m, e.source = some (h, m) → s.isProtected h m = false

/-- The map store: every entry of both banks is as R6 confines it, and no protected slot is dirty (R6, R31). -/
def State.mapOk (s : State) : Prop :=
  (∀ b k n, s.entryOk k n (s.bank b)[k][n]) ∧
  ∀ pos marks, s.engine = .syncing pos marks →
    ∀ (k : Highway) (n : Slot), s.isProtected k n = true → marks[k][n] = false

/-- The frame queues: at most three frames, and nothing at all out of service (R61). -/
def State.queuesOk (s : State) : Prop :=
  ∀ k, (s.queue k).frames.length ≤ 3 ∧ (s.inService k = false → s.queue k = emptyQueue)

/-- The cache entry awaits the response of a queued command, or that of the pending COMMIT, whose place is kept (R137,
R140). -/
def State.awaited (s : State) (p : PortId) (e : CacheEntry) : Prop :=
  (∃ q ∈ (s.port p).commands, q.tag = e.tag ∧ q.cached = true) ∨
  ∃ r, s.engine = .pending r ∧ r.port = p ∧ r.tag = e.tag ∧ r.cached = true ∧
    (s.port p).transmit.any (Place.isReservedFor .commit) = true

/-- No place is reserved for a command: a command that starts fills its place or leaves it to the COMMIT in the same step
(R140). -/
def Port.settled (x : Port) : Prop := x.transmit.any (Place.isReservedFor .command) = false

/-- A command waits at the head of the command queue only while every transmit place is taken, or behind an accepted
RESET (R139, R145). -/
def Port.waitsForPlace (x : Port) : Prop :=
  ∀ q rest, x.commands = q :: rest → q.started = false → 6 ≤ x.transmit.length

/-- Every message behind the head place, and every cached response, is at least seven octets long, as every message of
the part is (R143). -/
def Port.messagesWhole (x : Port) : Prop :=
  (∀ m resets, .message m resets ∈ x.transmit.drop 1 → 7 ≤ m.length) ∧
  ∀ e ∈ x.cache, ∀ m, e.state = .done m → 7 ≤ m.length

/-- A port: the limits of its queues and of its cache, no two cache entries with one tag, none with tag 0 (R135, R139),
no place reserved for a command that has completed, every IN_PROGRESS entry awaited, and at most one place freed at a
start, which a waiting command takes (R139, R143). -/
def State.portsOk (s : State) : Prop :=
  ∀ p, (s.port p).commands.length ≤ 4 ∧ (s.port p).transmit.length ≤ 6 ∧ (s.port p).cache.length ≤ 8 ∧
    (s.port p).settled ∧ (s.port p).waitsForPlace ∧ (s.port p).messagesWhole ∧
    ((s.port p).cache.map (·.tag)).Nodup ∧ (∀ e ∈ (s.port p).cache, e.tag ≠ 0) ∧
    ∀ e ∈ (s.port p).cache, e.state = .inProgress → s.awaited p e

/-- The entry is an ordinary one of this coalescing key. -/
def Event.hasKey (key : EventKey) (e : Event) : Bool :=
  match e.body with
  | .ordinary k _ _ _ => decide (k = key)
  | .overflow _ => false

/-- The event list: its limits (R112), DELIVERED entries exactly while a batch is outstanding and at most twelve (R114,
R115), losses held back only behind a DELIVERED OVERFLOW entry (R113), the attention condition up to date (R122), and
the notice timer running only while it is true (R124). -/
def State.eventsOk (s : State) : Prop :=
  let l := s.events
  l.ordinaryCount ≤ 63 ∧ l.entries.countP Event.isOverflow ≤ 1 ∧
  (∀ key delivered, l.entries.countP (fun e => e.hasKey key && e.delivered == delivered) ≤ 1) ∧
  (l.batch.isSome = true ↔ l.deliveredEntries ≠ []) ∧ l.deliveredEntries.length ≤ 12 ∧
  (l.losses ≠ 0 → ∃ e ∈ l.entries, e.isOverflow = true ∧ e.delivered = true) ∧
  l.holdTime ≠ 0 ∧ l.attn = l.condition ∧ (∀ t, l.timer = some t → l.attn = true ∧ t ≠ 0)

/-- The lease: a disabled port holds no state (R129), the input highway of an enabled port is not DISABLED (R55), the
holder is an enabled port whose highway is neither in SEARCH nor in CONFIRM, and the period and the remaining time are
not 0 (R150). -/
def State.leaseOk (s : State) : Prop :=
  (∀ p, s.portEnabled p = false → s.port p = initialPort) ∧
  (∀ p, s.portEnabled p = true → (s.receiver (s.portPair p)).align ≠ .disabled) ∧
  (∀ h, s.lease.holder = some h →
    s.portEnabled h.port = true ∧ (s.receiver (s.portPair h.port)).align.hunting = false ∧ h.remaining ≠ 0) ∧
  s.lease.period ≠ 0

/-- The capture unit: at most four pools, each with 1 to 64 octets, none FILLING outside RUNNING, none at all before it
runs, and a captured count below the length while it runs (R161, R165). -/
def State.captureOk (s : State) : Prop :=
  let u := s.capture
  u.ready.length + (if u.filling.isEmpty then 0 else 1) ≤ 4 ∧ u.filling.length ≤ 63 ∧
  (∀ x ∈ u.ready, 1 ≤ x.octets.length ∧ x.octets.length ≤ 64) ∧
  match u.phase with
  | .idle => u.filling = [] ∧ u.ready = []
  | .armed job => u.filling = [] ∧ u.ready = [] ∧ 1 ≤ job.length ∧ job.length ≤ 1024
  | .running job captured _ => captured < job.length ∧ job.length ≤ 1024
  | .ended _ job captured _ => u.filling = [] ∧ captured ≤ job.length ∧ job.length ≤ 1024

/-- The counts of an alignment state (R42). That SEARCH holds seven bits at most is the model's form: it examines a
history whole in the step of the failed marker, and then keeps the bits that the next octet can share (log 7, log 28). -/
def Align.ok : Align → Prop
  | .disabled | .aligned _ => True
  | .search history => history.length ≤ 7
  | .confirm _ count _ => count ≤ 2
  | .guard _ count => 1 ≤ count ∧ count ≤ 15
  | .flywheel _ bad => 1 ≤ bad ∧ bad ≤ 3

/-- What the supervisor holds for a slot: a candidate is never the stable code, and its count is 1 to 6 (R90, R94). -/
def SlotState.ok (x : SlotState) : Prop :=
  ∀ d, x.candidate = some d → x.stable ≠ some d.code ∧ 1 ≤ d.count ∧ d.count ≤ 6

/-- The receivers and the supervisor: the ranges of R42 and R90, a SEARCH in the model's form (log 7, log 28), and no
candidate and no collected code while no frames
are handed over (R97). -/
def State.inputsOk (s : State) : Prop :=
  ∀ k, 1 ≤ (s.receiver k).persistence ∧ (s.receiver k).persistence ≤ 7 ∧ (s.receiver k).guardLength ≤ 15 ∧
    (s.receiver k).align.ok ∧ (∀ n : Slot, (s.slotState k n).ok) ∧
    ((s.receiver k).align.handsOver = false →
      (∀ n : Slot, (s.slotState k n).candidate = none) ∧ (s.sup k).received = emptyRecord ∧ (s.sup k).spoiled = false)

/-! ### Commands that start at once -/

/-- A command of tag `tag` that reaches port `p` is admitted and starts at once: the port takes octets, its command queue
is empty, a transmit place is free, no command is under way, and the tag is 0 or not in the cache (R135, R137, R139). -/
def State.ready (s : State) (p : PortId) (tag : Octet) : Prop :=
  s.portReceives p = true ∧ (s.port p).commands = [] ∧ (s.port p).transmit.length < 6 ∧ (s.port p).settled ∧
    (tag = 0 ∨ ∀ e ∈ (s.port p).cache, e.tag ≠ tag)

/-- The cache of port `p` with an entry for the command inserted, for a non-zero tag (R137). -/
def State.cacheWith (s : State) (p : PortId) (tag : Octet) (c : Command) (x : CacheState) : List CacheEntry :=
  if tag = 0 then (s.port p).cache
  else insertEntry { tag := tag, check := messageCheck (c.body tag), state := x } (s.port p).cache

/-- The part with the response to the command waiting at the tail of the transmit queue and, for a non-zero tag, cached
(R140). -/
def State.answered (s : State) (p : PortId) (tag : Octet) (c : Command) (r : Reply) : State :=
  s.setPort p
    { s.port p with
      transmit := (s.port p).transmit ++ [.message (responseMessage tag c.code r) none]
      cache := s.cacheWith p tag c (.done (responseMessage tag c.code r)) }

/-- The command as the command queue holds it (R137). -/
def queuedCommand (tag : Octet) (c : Command) : Queued :=
  { tag := tag, check := messageCheck (c.body tag), command := c, cached := decide (tag ≠ 0), started := false }

/-- The part at the start of the command: it is at the head of the command queue, its place is reserved, and the lease is
renewed (R139, R148, R153). -/
def State.started (s : State) (p : PortId) (tag : Octet) (c : Command) : State :=
  (s.setPort p
    { s.port p with
      commands := [queuedCommand tag c]
      cache := s.cacheWith p tag c .inProgress
      transmit := (s.port p).transmit ++ [.reserved .command] }).renewLease p

/-- The part with the command waiting at the tail of the command queue (R137). -/
def State.queuedUp (s : State) (p : PortId) (tag : Octet) (c : Command) : State :=
  s.setPort p
    { s.port p with
      commands := (s.port p).commands ++ [queuedCommand tag c]
      cache := s.cacheWith p tag c .inProgress }

/-- The manager commands of the table with the port, the tag and the command that each brings. -/
def managerCommand : Instr → Option (PortId × Octet × Command)
  | .identify p tag => some (p, tag, .identify)
  | .claim p tag => some (p, tag, .claim)
  | .release p tag => some (p, tag, .release)
  | .setLease p tag period => some (p, tag, .setLease period)
  | .reset p tag scope => some (p, tag, .reset scope)
  | .writeEntries p tag k n c es => some (p, tag, .writeEntries k n c es)
  | .readEntries p tag r k n c => some (p, tag, .readEntries r k n c)
  | .clearStandby p tag => some (p, tag, .clearStandby)
  | .resync p tag => some (p, tag, .resync)
  | .commit p tag => some (p, tag, .commit)
  | .abortCommit p tag => some (p, tag, .abortCommit)
  | .readBanks p tag => some (p, tag, .readBanks)
  | .setInput p tag k e pp g => some (p, tag, .setInput k e pp g)
  | .setOutput p tag k e o c => some (p, tag, .setOutput k e o c)
  | .readHighway p tag k => some (p, tag, .readHighway k)
  | .readCountersHighway p tag n c => some (p, tag, .readCounters 0x00 n c)
  | .readCountersPort p tag n c => some (p, tag, .readCounters 0x01 n c)
  | .watch p tag k n c v => some (p, tag, .watch k n c v)
  | .readSignaling p tag k => some (p, tag, .readSignaling k)
  | .fetchEvents p tag ack => some (p, tag, .fetchEvents ack)
  | .setAttention p tag h l i t => some (p, tag, .setAttention h l i t)
  | .armCapture p tag k h n t a b c lh ll => some (p, tag, .armCapture k h n t a b c lh ll)
  | .readCapture p tag => some (p, tag, .readCapture)
  | .cancelCapture p tag => some (p, tag, .cancelCapture)
  | .powerOnReset _ | .coldResetEffect _ _ | .warmResetEffect _ | .outputFrameStart _ | .swap _ | .syncCopy _
  | .syncDone _ | .leaseExpired _ | .batchLapse _ | .noticeTimerExpiry _ | .huntCandidate _ _ | .markerPosition _ _
  | .confirmationComplete _ _ | .alignmentLoss _ _ | .guardEnd _ _ _ | .inputFrameCompletion _ _ _ | .goodMessage _ _
  | .captureDone _ _ _ => none

/-- The commands that require the lease (R158). -/
def Command.needsLease : Command → Bool
  | .writeEntries _ _ _ _ | .clearStandby | .resync | .commit | .abortCommit | .setInput _ _ _ _ | .setOutput _ _ _ _
  | .watch _ _ _ _ | .setAttention _ _ _ _ | .setLease _ | .reset _ | .armCapture _ _ _ _ _ _ _ _ _
  | .cancelCapture => true
  | .readCounters _ _ clear => clear == 1
  | .identify | .claim | .release | .readEntries _ _ _ _ | .readBanks | .readHighway _ | .readSignaling _
  | .fetchEvents _ | .readCapture => false

/-- The command codes with their minimum bodies (11.2). -/
def minimumBodies : List (Octet × Nat) :=
  [(0x01, 2), (0x02, 2), (0x03, 2), (0x04, 3), (0x05, 3), (0x08, 5), (0x09, 6), (0x0A, 2), (0x0B, 2), (0x0C, 2),
   (0x0D, 2), (0x0E, 2), (0x10, 6), (0x11, 6), (0x12, 3), (0x13, 5), (0x14, 6), (0x15, 3), (0x18, 2), (0x19, 6),
   (0x1C, 11), (0x1D, 2), (0x1E, 2)]

/-! ### What a happening leaves alone -/

/-- Of `s`, at most the event list and the two ports have changed, as an event and its NOTICE change them (R109, R123,
R125), and the count of free values. -/
def State.sameButNews (s t : State) : Prop :=
  t = { s with events := t.events, portA := t.portA, portB := t.portB, draws := t.draws }

/-- The event list holds the occurrence as the latest of an UNDELIVERED entry (R109). -/
def EventList.reports (l : EventList) (key : EventKey) (v : EventValue) : Prop :=
  ∃ e ∈ l.entries, e.delivered = false ∧ ∃ first count, e.body = .ordinary key first v count

/-- The list takes an occurrence of this key without loss: it merges it, or has room for a new entry (R109, R112). -/
def EventList.admits (l : EventList) (key : EventKey) : Prop :=
  l.entries.any (Event.accepts key) = true ∨ l.ordinaryCount < 63

/-- The list has room for every occurrence that one output frame start can raise (R112). -/
def EventList.roomy (l : EventList) : Prop := l.ordinaryCount ≤ 32

/-! ### The hunt -/

/-- A candidate begins after `pre` in the bits, and none of its own marker positions, as far as the bits reach, holds a
bad marker (R43 to R45). `tail` is the bits from the candidate on. -/
def candidateAfter (bits pre tail : List Bool) : Prop :=
  bits = pre ++ tail ∧ (∃ x rest, tail = true :: false :: true :: (x ++ rest) ∧ x.length = 5) ∧
  ∀ i, 1 ≤ i → Config.frameBits * i + 8 ≤ tail.length →
    goodMarker (octetOfBits (tail.drop (Config.frameBits * i))) (markerNumber (octetOfBits tail) + BitVec.ofNat 4 i) =
      true

/-! ### The capture unit -/

/-- An octet that a RUNNING capture takes from unit `u` (R165 to R167): without a FILLING and an EMPTY pool it overruns.
Otherwise it is stored, and then the length is looked at before the pool. -/
def Capture.storedOctet (u : Capture) (job : Job) (captured : Nat) (stamp : Stamp) (o : Octet) (v : Capture)
    (event : Option EventValue) : Prop :=
  (u.filling = [] ∧ 4 ≤ u.ready.length →
    v = { u with phase := .ended .overrun job captured stamp } ∧ event = some .overrun) ∧
  (u.filling ≠ [] ∨ u.ready.length < 4 →
    (captured + 1 = job.length →
      v = { phase := .ended .done job (captured + 1) stamp, filling := []
            ready := u.ready ++ [{ sequence := u.nextSequence, final := true, octets := u.filling ++ [o] }]
            nextSequence := u.nextSequence + 1 } ∧ event = some .done) ∧
    (captured + 1 ≠ job.length → u.filling.length = 63 →
      v = { phase := .running job (captured + 1) stamp, filling := []
            ready := u.ready ++ [{ sequence := u.nextSequence, final := false, octets := u.filling ++ [o] }]
            nextSequence := u.nextSequence + 1 } ∧ event = some .poolReady) ∧
    (captured + 1 ≠ job.length → u.filling.length ≠ 63 →
      v = { u with phase := .running job (captured + 1) stamp, filling := u.filling ++ [o] } ∧ event = none))

/-- An octet that the source hands to unit `u` leaves unit `v` and raises `event` (R163, R164): an ARMED capture stores it
when it meets its trigger NOW or OCTET, with the stamp of that moment, and disregards it otherwise; a RUNNING one stores
it; in every other state it is disregarded. -/
def Capture.tookOctet (u : Capture) (now : Stamp) (o : Octet) (v : Capture) (event : Option EventValue) : Prop :=
  match u.phase with
  | .armed job =>
    if job.trigger = .now ∨ job.trigger = .octet o then u.storedOctet job 0 now o v event else v = u ∧ event = none
  | .running job captured stamp => u.storedOctet job captured stamp o v event
  | .idle | .ended _ _ _ _ => v = u ∧ event = none

/-! ### What an output frame start finds -/

/-- No command waits at either port, and no response of an accepted RESET ends at the next output frame start. -/
def State.noWork (s : State) : Prop :=
  s.portA.commands = [] ∧ s.portB.commands = [] ∧ s.resetNext .a = none ∧ s.resetNext .b = none

/-- The next output frame start takes the pending swap (R25). -/
def State.swapsNext (s : State) : Bool := s.boundaryNext && s.engine.isPending

/-- The bank from which the next frame is built (R25, R78). -/
def State.nextActive (s : State) : BankId := if s.swapsNext then s.standbyBank else s.activeBank

/-- The reading frame that the next output frame start selects for highway `k`, absent when it is conditioned (R64 to
R66, R69). -/
def State.nextReading (s : State) (k : Highway) : Option Payload :=
  if s.inService k then
    match (s.queue k).frames with
    | f :: _ => some f
    | [] => (s.queue k).reading
  else none

/-- The octets of a slot, as R80 places them, for every entry but a MGMT entry. -/
def State.nextOctet (s : State) (k : Highway) (e : Entry) : Option Octet :=
  match e.content with
  | .idle _ => some (s.output k).idleOctet
  | .constant value _ => some value
  | .slot h m _ =>
    match s.nextReading h with
    | some f => some f[m]
    | none => some e.condOctet
  | .mgmt _ => none

/-- The code of a slot, as R82 sends it. -/
def State.nextCode (s : State) (k : Highway) (e : Entry) : Code :=
  match e.content with
  | .idle _ => (s.output k).idleCode
  | .constant _ fixed => fixed
  | .slot _ _ (.fixed code) => code
  | .slot h m .follow =>
    match s.nextReading h, (s.slotState h m).stable with
    | some _, some code => code
    | _, _ => e.condCode
  | .mgmt _ => 0

/-! ### Wire order -/

/-- The framer takes octets one after another, and tells what each made of its message (R132). -/
def Framer.takeAll (f : Framer) : List Octet → Framer × List FramerEvent
  | [] => (f, [])
  | o :: os =>
    let r := f.take o
    let rest := Framer.takeAll r.1 os
    (rest.1, r.2 :: rest.2)

/-- No management octet of the frame completes a message or an error at the port that highway `k` carries: the highway
carries no port, or the port's framer goes on hunting or inside a message (R132). -/
def State.framerQuiet (s : State) (k : Highway) (f : InFrame) : Prop :=
  ∀ p, portOn s.straps k = some p →
    ∀ x ∈ (Framer.takeAll (s.port p).framer (f.payload.toList.drop (if s.straps.four then 60 else 63))).2, x = .none

end Sys2Proof.Machine
end

