-- ==== Sys2Proof/Certificates/Slice0/Obligations.lean ====
section
/-! DEFINITION. The statements about the U832. -/

open Sys2Proof Sys2Proof.Machine

/-! ### The step and the commands -/

/-- A step takes the command at the front of the queue and runs it on the part with the rest waiting. On an empty queue
the block idles (the model's choice, log 2). -/
def Obligations.StepTakesTheFrontCommand : Prop :=
  (∀ (c : Instr) (rest : List Instr) (s : State),
    step { s with pending := c :: rest } = exec c { s with pending := rest }) ∧
  ∀ s : State, s.pending = [] → step s = .next s

/-- No command stops the part, and none touches the queue of waiting commands (the model's own, log 22). -/
def Obligations.NoCommandStops : Prop :=
  ∀ (c : Instr) (s : State), ∃ t, exec c s = .next t ∧ t.pending = s.pending

/-- Each manager row of the table is the good message that carries its command in its own layout (the model's choice,
log 9). -/
def Obligations.RowsAreTheirMessages : Prop :=
  ∀ (i : Instr) (p : PortId) (tag : Octet) (c : Command), managerCommand i = some (p, tag, c) →
    ∀ s : State, exec i s = exec (.goodMessage p (c.body tag)) s

/-! ### Layouts -/

/-- Every command sent in its envelope, after any 00H fill, is handed over as a good message by its last octet and by
none before (R131, R132), and its body is read as that command (11.2, R173). -/
def Obligations.MessagesOnTheWireAreRead : Prop :=
  ∀ (fill : Nat) (tag : Octet) (c : Command), (c.body tag).length ≤ 124 →
    Framer.takeAll .hunt (List.replicate fill 0x00 ++ envelope (c.body tag)) =
      (.hunt, List.replicate (fill + (c.body tag).length + 3) .none ++ [.good (c.body tag)]) ∧
    messageOf (c.body tag) = some (commandMessage tag c)

/-- The layouts of entries, markers and signalling octets (11.1, 11.3) are read as they are written. -/
def Obligations.LayoutsRoundTrip : Prop :=
  (∀ (e : Entry) (rest : List Octet), ∃ r, rawEntries (e.octets ++ rest) = r :: rawEntries rest ∧ r.entry = e) ∧
  (∀ (o : Octet) (ra : Bool) (n : FrameNumber),
    (goodMarker o n = true ∧ markerRA o = ra) ↔ o = markerOctet ra n) ∧
  ∀ a b : Code, highCode (signallingOctet a b) = a ∧ lowCode (signallingOctet a b) = b

/-- Words that the manual writes out: the marker of frame 9, the two fixed entries, the default mask, the fetch code, and
bodies of each family (11.1 to 11.3). -/
def Obligations.WordsOfTheManual : Prop :=
  markerOctet false 9 = 0xA9 ∧ markerOctet true 9 = 0xB9 ∧
  initialEntry.octets = [0x00, 0x00, 0xFF, 0x00] ∧ protectedEntry.octets = [0xC0, 0x00, 0xFF, 0x00] ∧
  initialEvents.mask = 0x122 ∧
  (messageOf [21, 0x0C]).map (·.reading) = some (.command .commit) ∧
  (messageOf [9, 0x05, 0x01]).map (·.reading) = some (.command (.reset 1)) ∧
  (messageOf [9, 0x10, 5, 1, 2, 4]).map (·.reading) = some (.command (.setInput 5 1 2 4)) ∧
  (messageOf [9, 0x18, 8]).map (·.reading) = some (.command (.fetchEvents (some 8))) ∧
  (messageOf [9, 0x1C, 0, 3, 5, 1, 0x7E, 0, 0, 0, 150]).map (·.reading) =
    some (.command (.armCapture 0 3 5 1 0x7E 0 0 0 150))

/-! ### The path of a command through its port -/

/-- A command that cannot start waits at the tail of the command queue with its cache entry IN_PROGRESS, and one that
finds four commands waiting is answered BUSY, or dropped with BUSY_DROP for want of a place (R137 to R139, R145). The
output frame start that frees a place of a full transmit queue starts the head command, and the commands behind it go on
waiting (R139, R143). The command has its own effect: where one port is enabled, the other holds nothing, and nothing
else comes about at the start that could meet it, the start is the same start without the command, and then the command's
own start. That a READ_HIGHWAY gives the frame that begins there is the model's choice (log 27). And its response is in
the freed place, as is said of IDENTIFY with both ports and whatever else comes about. -/
def Obligations.CommandsWaitOrAreBusy : Prop :=
  (∀ (i : Instr) (p : PortId) (tag : Octet) (c : Command) (s : State), managerCommand i = some (p, tag, c) →
    (c.body tag).length ≤ 124 → s.portReceives p = true → (tag = 0 ∨ ∀ e ∈ (s.port p).cache, e.tag ≠ tag) →
    ((s.port p).commands.length < 4 →
      (6 ≤ (s.port p).transmit.length ∨ ∃ q rest, (s.port p).commands = q :: rest ∧ q.started = true) →
      exec i s = .next (s.queuedUp p tag c)) ∧
    (4 ≤ (s.port p).commands.length → (s.port p).transmit.length < 6 →
      exec i s = .next (s.setPort p
        { s.port p with
          transmit := (s.port p).transmit ++ [.message (responseMessage tag c.code { status := .busy, data := [] }) none]
          counters :=
            { (s.port p).counters with busyRefusals := saturate (s.port p).counters.busyRefusals } })) ∧
    (4 ≤ (s.port p).commands.length → 6 ≤ (s.port p).transmit.length →
      exec i s = .next ((s.setPort p
        { s.port p with
          counters :=
            { (s.port p).counters with
              busyRefusals := saturate (s.port p).counters.busyRefusals
              dropped := saturate (s.port p).counters.dropped } }).raise (.mgmtError p) .busyDrop))) ∧
  ∀ (order : StartOrder) (p : PortId) (q : Queued) (rest : List Queued) (m : List Octet) (places : List Place)
    (s : State), s.portSends p = true → (s.port p).commands = q :: rest → q.started = false →
    (s.port p).transmit = .message m none :: places → m.length = strapWidth s.straps → places.length = 5 →
    (∀ x ∈ places, x ≠ .reserved .command) →
    (s.portEnabled (otherPort p) = false → s.port (otherPort p) = initialPort → s.boundaryNext = false →
      (∀ k, s.repeats k = false) → s.engine.position = none → s.capture.phase.job = none → q.command ≠ .resync →
      (∀ a b c d e f g h i, q.command ≠ .armCapture a b c d e f g h i) →
      ∃ t, exec (.outputFrameStart order) (s.setPort p { s.port p with commands := [] }) = .next t ∧
        exec (.outputFrameStart order) s =
          .next ((t.setPort p { t.port p with commands := q :: rest }).startCommand p q)) ∧
    (q.command = .identify → s.swapsNext = false → (s.port (otherPort p)).commands = [] →
      s.resetNext (otherPort p) = none → ∃ (t : State) (response : List Octet),
        exec (.outputFrameStart order) s = .next t ∧
        response = responseMessage q.tag 0x01 (okReply
          [0x6B, 0x08, 0x32, 0x01, portOctet p, highwayOctet s.straps.ma, flagOctet s.straps.mbe,
            highwayOctet s.straps.mb,
            (if s.straps.mbe = false then 1 else if s.straps.mb = s.straps.ma then 2 else 0),
            flagOctet s.straps.four]) ∧
        (t.port p).commands = rest ∧ (t.port p).transmit = places ++ [.message response none] ∧
        ∀ e, q.cached = true → (s.port p).cached q.tag = some e →
          (t.port p).cached q.tag = some { e with state := .done response })

/-- A repeated tag and check is answered from the cache, or discarded while IN_PROGRESS, and never executed. With another
check the entry is removed and the message is taken as new (R135). -/
def Obligations.DuplicatesAreNotExecuted : Prop :=
  ∀ (i : Instr) (p : PortId) (tag : Octet) (c : Command) (s : State) (e : CacheEntry),
    managerCommand i = some (p, tag, c) → (c.body tag).length ≤ 124 → s.portReceives p = true → tag ≠ 0 →
    (s.port p).cached tag = some e →
    (e.check = messageCheck (c.body tag) → e.state = .inProgress →
      exec i s = .next (s.setPort p
        { s.port p with
          counters := { (s.port p).counters with duplicates := saturate (s.port p).counters.duplicates } })) ∧
    (∀ m, e.check = messageCheck (c.body tag) → e.state = .done m → (s.port p).transmit.length < 6 →
      exec i s = .next (s.setPort p
        { s.port p with
          transmit := (s.port p).transmit ++ [.message m none]
          counters := { (s.port p).counters with duplicates := saturate (s.port p).counters.duplicates } })) ∧
    (∀ m, e.check = messageCheck (c.body tag) → e.state = .done m → 6 ≤ (s.port p).transmit.length →
      exec i s = .next ((s.setPort p
        { s.port p with
          counters :=
            { (s.port p).counters with
              duplicates := saturate (s.port p).counters.duplicates
              dropped := saturate (s.port p).counters.dropped } }).raise (.mgmtError p) .busyDrop)) ∧
    (e.check ≠ messageCheck (c.body tag) →
      exec i s = exec i (s.forgetEntry p tag) ∧
      ((s.forgetEntry p tag).port p).cache = (s.port p).cache.filter fun x => x.tag ≠ tag)

/-- Bodies against the minimum of their code (R175), and what an answer on receipt leaves: its cache entry and its
message (R136). -/
def Obligations.BodiesAreJudgedOnReceipt : Prop :=
  (∀ code arguments, code ∉ minimumBodies.map Prod.fst → readArguments code arguments = .refused .unknownCommand) ∧
  (∀ code m arguments, (code, m) ∈ minimumBodies → arguments.length + 2 < m →
    readArguments code arguments = .refused .badLength) ∧
  (∀ code m arguments excess, (code, m) ∈ minimumBodies → code ≠ 0x08 → code ≠ 0x18 → arguments.length + 2 = m →
    ∃ c : Command, c.code = code ∧ c.arguments = arguments ∧
      readArguments code (arguments ++ excess) = .command c) ∧
  (readArguments 0x18 [] = .command (.fetchEvents none) ∧
    ∀ ack excess, readArguments 0x18 (ack :: excess) = .command (.fetchEvents (some ack))) ∧
  (∀ k n c octets, readArguments 0x08 (k :: n :: c :: octets) = .command (.writeEntries k n c octets)) ∧
  (∀ (p : PortId) (q : Queued) (s : State) (k n c : Octet) (octets : List Octet),
    q.command = .writeEntries k n c octets → octets.length ≠ 4 * c.toNat → s.holdsLease p = true →
    s.engine.isPending = false → runCommand p q s = (s, .reply { status := .badArgument, data := [] })) ∧
  (∀ o : Octet, (o.toNat < 2 ∨ 124 < o.toNat) → Framer.take .length o = (.hunt, .lengthError)) ∧
  ∀ (p : PortId) (tag code : Octet) (arguments : List Octet) (status : Status) (s : State),
    readArguments code arguments = .refused status → arguments.length ≤ 122 → s.portReceives p = true → tag ≠ 0 →
    (∀ e ∈ (s.port p).cache, e.tag ≠ tag) → (s.port p).transmit.length < 6 →
    exec (.goodMessage p (tag :: code :: arguments)) s = .next (s.setPort p
      { s.port p with
        transmit :=
          (s.port p).transmit ++ [.message (responseMessage tag code { status := status, data := [] }) none]
        cache := insertEntry
          { tag := tag, check := messageCheck (tag :: code :: arguments),
            state := .done (responseMessage tag code { status := status, data := [] }) } (s.port p).cache })

/-- A lease-required command of a port that does not hold the lease is answered NO_LEASE with the holder, and changes
nothing else, at its start as on arrival (R158). Every start at the holder's port, whose highway is not DISABLED (R55),
sets the remaining time to the period, whatever the command but RELEASE and SET_LEASE, which have rules of their own. A
start at another port renews nothing (R153). It holds of a command that starts at once and of one whose place an output
frame start has freed. -/
def Obligations.LeaseIsChecked : Prop :=
  (∀ (p : PortId) (q : Queued) (s : State), q.command.needsLease = true → s.holdsLease p = false →
    runCommand p q s = (s, .reply { status := .noLease, data := [orAbsent (s.leaseHolder.map portOctet)] })) ∧
  (∀ (i : Instr) (p : PortId) (tag : Octet) (c : Command) (s : State), managerCommand i = some (p, tag, c) →
    (c.body tag).length ≤ 124 → c.needsLease = true → s.ready p tag → s.holdsLease p = false →
    exec i s = .next (s.answered p tag c { status := .noLease, data := [orAbsent (s.leaseHolder.map portOctet)] })) ∧
  ∀ (p : PortId) (q : Queued) (s t : State), (t = s.startCommand p q ∨ t = s.executeCommand p q) →
    (s.leaseHolder = some p → (s.receiver (s.portPair p)).align ≠ .disabled → q.command ≠ .release →
      (∀ period, q.command ≠ .setLease period) →
      t.lease = { holder := some { port := p, remaining := s.lease.period }, period := s.lease.period }) ∧
    (s.leaseHolder ≠ some p → q.command ≠ .claim → t.lease = s.lease)

/-! ### Commands of ports and lease -/

/-- IDENTIFY answers with the identity and the strap readings of the last sampling, and changes nothing but the renewal
(R144). -/
def Obligations.IdentifyGivesTheStraps : Prop :=
  ∀ (p : PortId) (tag : Octet) (s : State), s.ready p tag →
    exec (.identify p tag) s = .next ((s.renewLease p).answered p tag .identify (okReply
      [0x6B, 0x08, 0x32, 0x01, portOctet p, highwayOctet s.straps.ma, flagOctet s.straps.mbe, highwayOctet s.straps.mb,
       (if s.straps.mbe = false then 1 else if s.straps.mb = s.straps.ma then 2 else 0), flagOctet s.straps.four]))

/-- The four cases of a CLAIM (R151). -/
def Obligations.ClaimTakesTheFreeLease : Prop :=
  ∀ (p : PortId) (tag : Octet) (s : State),
    (∀ q : Queued, q.command = .claim → (s.receiver (s.portPair p)).align.hunting = true →
      runCommand p q s = (s, .reply { status := .noLease, data := [orAbsent (s.leaseHolder.map portOctet)] })) ∧
    (s.ready p tag → s.lease.holder = none →
      exec (.claim p tag) s = .next
        ((s.setLease { s.lease with holder := some { port := p, remaining := s.lease.period } }).answered p tag .claim
          (okReply [portOctet p, s.lease.period, s.lease.period, 0x00]))) ∧
    (∀ h, s.ready p tag → s.lease.holder = some h → h.port = p →
      exec (.claim p tag) s = .next
        ((s.setLease { s.lease with holder := some { port := p, remaining := s.lease.period } }).answered p tag .claim
          (okReply [portOctet p, s.lease.period, s.lease.period, 0x01]))) ∧
    (∀ h, s.ready p tag → s.lease.holder = some h → h.port ≠ p →
      exec (.claim p tag) s = .next
        (s.answered p tag .claim { status := .leaseHeld, data := [portOctet h.port, h.remaining] }))

/-- RELEASE frees the lease at the holder's port (R156). SET_LEASE stores a period other than 0 and renews with it
(R157). Both are answered NO_LEASE at another port. -/
def Obligations.ReleaseAndSetLease : Prop :=
  ∀ (p : PortId) (tag period : Octet) (s : State), s.ready p tag →
    (s.holdsLease p = true →
      exec (.release p tag) s = .next
        ((s.setLease { s.lease with holder := none }).answered p tag .release (okReply [s.lease.period]))) ∧
    (s.holdsLease p = false →
      exec (.release p tag) s = .next
        (s.answered p tag .release { status := .noLease, data := [orAbsent (s.leaseHolder.map portOctet)] })) ∧
    (s.holdsLease p = false →
      exec (.setLease p tag period) s = .next
        (s.answered p tag (.setLease period)
          { status := .noLease, data := [orAbsent (s.leaseHolder.map portOctet)] })) ∧
    (s.holdsLease p = true → period ≠ 0 →
      exec (.setLease p tag period) s = .next
        ((s.setLease { holder := some { port := p, remaining := period }, period := period }).answered p tag
          (.setLease period) (okReply [period, period]))) ∧
    (s.holdsLease p = true → period = 0 →
      exec (.setLease p tag period) s = .next
        ((s.renewLease p).answered p tag (.setLease period) { status := .badArgument, data := [] }))

/-- An accepted RESET is answered OK with its scope, and stays at the head of its command queue. Another scope is
BAD_ARGUMENT (R145). -/
def Obligations.ResetIsAnsweredAndWaits : Prop :=
  ∀ (p : PortId) (tag scope : Octet) (s : State), s.ready p tag → s.holdsLease p = true →
    (1 < scope.toNat →
      exec (.reset p tag scope) s = .next
        ((s.renewLease p).answered p tag (.reset scope) { status := .badArgument, data := [] })) ∧
    (scope.toNat ≤ 1 →
      exec (.reset p tag scope) s = .next ((s.renewLease p).setPort p
        { s.port p with
          commands := [{ queuedCommand tag (.reset scope) with started := true }]
          transmit := (s.port p).transmit ++
            [.message (responseMessage tag 0x05 (okReply [scope])) (some (if scope = 0 then .warm else .cold))]
          cache := s.cacheWith p tag (.reset scope) (.done (responseMessage tag 0x05 (okReply [scope]))) }))

/-! ### Commands of the map store and the commit engine -/

/-- An accepted WRITE_ENTRIES replaces the named STANDBY entries and no others, marks them in SYNCING alone, and is
answered with the bank, the run and the engine state (R10, R13, R14). -/
def Obligations.WriteEntriesReplacesTheRun : Prop :=
  ∀ (p : PortId) (tag highway first count : Octet) (octets : List Octet) (k : Highway) (s : State),
    s.ready p tag → s.holdsLease p = true → s.engine.isPending = false → highway.toNat = k.val → first.toNat ≤ 63 →
    1 ≤ count.toNat → count.toNat ≤ 24 → octets.length = 4 * count.toNat →
    (∀ i e, (rawEntries octets)[i]? = some e → s.checkEntry k (first.toNat + i) e = none) →
    ∃ (b : Bank) (g : Engine),
      exec (.writeEntries p tag highway first count octets) s = .next
        ((((s.renewLease p).setBank s.standbyBank b).setEngine g).answered p tag
          (.writeEntries highway first count octets)
          (okReply [bankOctet s.standbyBank, highway, first, count, engineOctet s.engine])) ∧
      (∀ (j : Highway) (n : Slot),
        if j = k ∧ first.toNat ≤ n.val ∧ n.val < first.toNat + count.toNat then
          (rawEntries octets)[n.val - first.toNat]?.map RawEntry.entry = some b[j][n]
        else b[j][n] = s.standbyEntry j n) ∧
      (s.engine = .idle → g = .idle) ∧
      ∀ pos marks, s.engine = .syncing pos marks → ∃ marks' : Marks, g = .syncing pos marks' ∧
        ∀ (j : Highway) (n : Slot), marks'[j][n] =
          (marks[j][n] || decide (j = k ∧ first.toNat ≤ n.val ∧ n.val < first.toNat + count.toNat))

/-- The checks of a WRITE_ENTRIES in their order: lease, engine, arguments, entries (R11), each entry by the table of R12.
A refused command changes nothing but the renewal. -/
def Obligations.WriteEntriesChecksInOrder : Prop :=
  (∀ (p : PortId) (tag highway first count : Octet) (octets : List Octet) (s : State), s.ready p tag →
    octets.length ≤ 119 →
    (s.holdsLease p = false →
      exec (.writeEntries p tag highway first count octets) s = .next
        (s.answered p tag (.writeEntries highway first count octets)
          { status := .noLease, data := [orAbsent (s.leaseHolder.map portOctet)] })) ∧
    (s.holdsLease p = true → s.engine.isPending = true →
      exec (.writeEntries p tag highway first count octets) s = .next
        ((s.renewLease p).answered p tag (.writeEntries highway first count octets)
          { status := .commitPending, data := [] })) ∧
    (s.holdsLease p = true → s.engine.isPending = false →
      (7 < highway.toNat ∨ 63 < first.toNat ∨ count.toNat = 0 ∨ 24 < count.toNat ∨
        octets.length ≠ 4 * count.toNat) →
      exec (.writeEntries p tag highway first count octets) s = .next
        ((s.renewLease p).answered p tag (.writeEntries highway first count octets)
          { status := .badArgument, data := [] })) ∧
    ∀ (k : Highway) (i : Nat) (e : RawEntry) (status : Status), s.holdsLease p = true → s.engine.isPending = false →
      highway.toNat = k.val → first.toNat ≤ 63 → 1 ≤ count.toNat → count.toNat ≤ 24 →
      octets.length = 4 * count.toNat → (rawEntries octets)[i]? = some e →
      s.checkEntry k (first.toNat + i) e = some status →
      (∀ j x, j < i → (rawEntries octets)[j]? = some x → s.checkEntry k (first.toNat + j) x = none) →
      exec (.writeEntries p tag highway first count octets) s = .next
        ((s.renewLease p).answered p tag (.writeEntries highway first count octets)
          { status := status, data := [octet i] })) ∧
  (∀ (s : State) (k : Highway) (target : Nat) (e : RawEntry), 63 < target →
    s.checkEntry k target e = some .badArgument) ∧
  ∀ (s : State) (k : Highway) (n : Slot) (e : RawEntry),
    s.checkEntry k n.val e =
      if s.isProtected k n then some .protectedSlot
      else if e.kind = 3 then some .badArgument
      else if e.follow = true ∧ e.kind ≠ 1 then some .badArgument
      else if e.kind = 1 ∧ 63 < e.o1.toNat then some .badArgument
      else if e.kind = 1 ∧ s.isProtected e.sourceHighway (Fin.ofNat 64 e.o1.toNat) then some .protectedSlot
      else none

/-- READ_ENTRIES returns the run of the bank that holds the role, with its number, and refuses what is out of range
(R15). -/
def Obligations.ReadEntriesReturnsTheRun : Prop :=
  ∀ (p : PortId) (tag role highway first count : Octet) (s : State), s.ready p tag →
    (∀ k : Highway, role.toNat ≤ 1 → highway.toNat = k.val → 1 ≤ count.toNat → count.toNat ≤ 24 →
      first.toNat + count.toNat ≤ 64 →
      exec (.readEntries p tag role highway first count) s = .next
        ((s.renewLease p).answered p tag (.readEntries role highway first count) (okReply
          ([bankOctet (if role = 0 then s.activeBank else s.standbyBank), highway, first, count] ++
            (List.range count.toNat).flatMap fun i =>
              ((s.bank (if role = 0 then s.activeBank else s.standbyBank))[k][first.toNat + i]?.map
                Entry.octets).getD [])))) ∧
    (1 < role.toNat ∨ 7 < highway.toNat ∨ 63 < first.toNat ∨ count.toNat = 0 ∨ 24 < count.toNat ∨
        64 < first.toNat + count.toNat →
      exec (.readEntries p tag role highway first count) s = .next
        ((s.renewLease p).answered p tag (.readEntries role highway first count)
          { status := .badArgument, data := [] }))

/-- CLEAR_STANDBY gives every non-protected STANDBY entry the initial content. In SYNCING it ends the sync and raises
SYNC_CANCELLED, and in PENDING it is refused (R17, R18, R32). -/
def Obligations.ClearStandbyClears : Prop :=
  ∀ (p : PortId) (tag : Octet) (s : State), s.ready p tag → s.holdsLease p = true →
    (s.engine.isPending = true →
      exec (.clearStandby p tag) s = .next
        ((s.renewLease p).answered p tag .clearStandby { status := .commitPending, data := [] })) ∧
    (s.engine.isPending = false → ∃ b : Bank,
      (∀ (k : Highway) (n : Slot),
        b[k][n] = if s.isProtected k n then s.standbyEntry k n
          else { content := .idle 0, condOctet := 0xFF, condCode := 0 }) ∧
      (s.engine = .idle →
        exec (.clearStandby p tag) s = .next
          (((s.renewLease p).setBank s.standbyBank b).answered p tag .clearStandby
            (okReply [bankOctet s.standbyBank, 0x00]))) ∧
      ((∃ pos marks, s.engine = .syncing pos marks) → ∃ t,
        exec (.clearStandby p tag) s = .next t ∧
        (((s.renewLease p).setBank s.standbyBank b).setEngine .idle).sameButNews t ∧
        (s.events.admits .commit → t.events.reports .commit .syncCancelled) ∧
        ∃ more, (t.port p).transmit = (s.port p).transmit ++
          .message (responseMessage tag 0x0A (okReply [bankOctet s.standbyBank, 0x01])) none :: more))

/-- COMMIT is accepted in IDLE with its response deferred and its place kept (R22), RESYNC starts the sync at OH0 and is
answered at once (R33), and both are refused in PENDING and in SYNCING. -/
def Obligations.CommitAndResyncBegin : Prop :=
  ∀ (p : PortId) (tag : Octet) (s : State), s.ready p tag → s.holdsLease p = true →
    (s.engine = .idle →
      exec (.commit p tag) s = .next
        (((s.renewLease p).setEngine (.pending { port := p, tag := tag, cached := decide (tag ≠ 0) })).setPort p
          { s.port p with
            transmit := (s.port p).transmit ++ [.reserved .commit]
            cache := s.cacheWith p tag .commit .inProgress }) ∧
      exec (.resync p tag) s = .next
        (((s.renewLease p).setEngine (.syncing 0 noMarks)).answered p tag .resync
          (okReply [bankOctet s.activeBank]))) ∧
    (∀ c status, (∃ r, s.engine = .pending r) ∧ status = Status.commitPending ∨
        (∃ pos marks, s.engine = .syncing pos marks) ∧ status = Status.syncing →
      (c = Command.commit → exec (.commit p tag) s = .next
        ((s.renewLease p).answered p tag c { status := status, data := [] })) ∧
      (c = Command.resync → exec (.resync p tag) s = .next
        ((s.renewLease p).answered p tag c { status := status, data := [] })))

/-- ABORT_COMMIT cancels a pending commit: the engine is IDLE, the banks stand, the committing port gets ABORTED in the
place kept for it and in its cache entry, and the aborting port gets OK. In SYNCING it is TOO_LATE, in IDLE NOT_PENDING
(R27). -/
def Obligations.AbortCancelsThePendingCommit : Prop :=
  ∀ (p : PortId) (tag : Octet) (s : State), s.ready p tag → s.holdsLease p = true →
    (s.engine = .idle →
      exec (.abortCommit p tag) s = .next
        ((s.renewLease p).answered p tag .abortCommit { status := .notPending, data := [] })) ∧
    (∀ pos marks, s.engine = .syncing pos marks →
      exec (.abortCommit p tag) s = .next
        ((s.renewLease p).answered p tag .abortCommit
          { status := .tooLate, data := [bankOctet s.activeBank, highwayOctet pos] })) ∧
    ∀ r, s.engine = .pending r → ∃ t,
      exec (.abortCommit p tag) s = .next t ∧ ((s.renewLease p).setEngine .idle).sameButNews t ∧
      (s.events.admits .commit → t.events.reports .commit .aborted) ∧
      ((s.port r.port).transmit.any (Place.isReservedFor .commit) = false → ∃ more more',
        (t.port p).transmit = (s.port p).transmit ++
          .message (responseMessage tag 0x0D (okReply [portOctet r.port, r.tag])) none :: more ∧
        (r.port ≠ p → (t.port r.port).transmit = (s.port r.port).transmit ++ more')) ∧
      (∀ before behind, (s.port r.port).transmit = before ++ .reserved .commit :: behind →
        before.any (Place.isReservedFor .commit) = false →
        (∃ more more',
          (r.port = p → (t.port p).transmit = before ++
            .message (responseMessage r.tag 0x0C
              { status := .aborted, data := bankOctet s.activeBank :: pairOctets s.timing.stamp }) none :: behind ++
            .message (responseMessage tag 0x0D (okReply [portOctet r.port, r.tag])) none :: more) ∧
          (r.port ≠ p →
            (t.port r.port).transmit = before ++
              .message (responseMessage r.tag 0x0C
                { status := .aborted, data := bankOctet s.activeBank :: pairOctets s.timing.stamp }) none :: behind ++
              more' ∧
            (t.port p).transmit = (s.port p).transmit ++
              .message (responseMessage tag 0x0D (okReply [portOctet r.port, r.tag])) none :: more)) ∧
        ∀ e, r.cached = true → (s.port r.port).cached r.tag = some e → e.state = .inProgress →
          (t.port r.port).cached r.tag = some
            { e with
              state := .done (responseMessage r.tag 0x0C
                { status := .aborted, data := bankOctet s.activeBank :: pairOctets s.timing.stamp }) })

/-- READ_BANKS gives the ACTIVE bank, the engine state, the sync position, and the two counts (R19, R20). -/
def Obligations.ReadBanksCounts : Prop :=
  ∀ (p : PortId) (tag : Octet) (s : State), s.ready p tag →
    exec (.readBanks p tag) s = .next ((s.renewLease p).answered p tag .readBanks (okReply
      ((match s.engine with
        | .idle => [bankOctet s.activeBank, 0x00, 0xFF, 0x00, 0x00]
        | .pending _ => [bankOctet s.activeBank, 0x01, 0xFF, 0x00, 0x00]
        | .syncing pos marks => [bankOctet s.activeBank, 0x02, highwayOctet pos] ++
          pairOctets (BitVec.ofNat 16 (countSlots fun k n => marks[k][n]))) ++
        pairOctets (BitVec.ofNat 16 (countSlots fun k n =>
          !s.isProtected k n && decide (s.standbyEntry k n ≠ s.activeEntry k n))))))

/-! ### Commands of the highways -/

/-- SET_INPUT stores P and G, and takes the receiver into DISABLED or SEARCH only when the enable differs, with the queue
emptied, the candidates cleared and a RUNNING capture of the highway broken. It is answered with the settings and the
alignment state. It refuses what is out of range, and the disabling of a management highway (R50, R55, R68, R97,
R168). That OUT_OF_SERVICE reaches the list before CAPTURE BROKEN, and so finds the last room in it, is the model's
choice (log 31). -/
def Obligations.SetInputStoresAndEnters : Prop :=
  ∀ (p : PortId) (tag highway enable persistence guard : Octet) (s : State), s.ready p tag → s.holdsLease p = true →
    (7 < highway.toNat ∨ 1 < enable.toNat ∨ persistence.toNat = 0 ∨ 7 < persistence.toNat ∨ 15 < guard.toNat →
      exec (.setInput p tag highway enable persistence guard) s = .next
        ((s.renewLease p).answered p tag (.setInput highway enable persistence guard)
          { status := .badArgument, data := [] })) ∧
    ∀ k : Highway, highway.toNat = k.val → enable.toNat ≤ 1 → 1 ≤ persistence.toNat → persistence.toNat ≤ 7 →
      guard.toNat ≤ 15 →
      (enable = 0 → (portOn s.straps k).isSome = true →
        exec (.setInput p tag highway enable persistence guard) s = .next
          ((s.renewLease p).answered p tag (.setInput highway enable persistence guard)
            { status := .protectedSlot, data := [] })) ∧
      ((enable = 1 ∧ (s.receiver k).align ≠ .disabled ∨
          enable = 0 ∧ (s.receiver k).align = .disabled ∧ portOn s.straps k = none) →
        exec (.setInput p tag highway enable persistence guard) s = .next
          (((s.renewLease p).setReceiver k
            { s.receiver k with persistence := persistence.toNat, guardLength := guard.toNat }).answered p tag
              (.setInput highway enable persistence guard)
              (okReply [highway, enable, persistence, guard, alignOctet (s.receiver k).align]))) ∧
      (∀ a : Align, (enable = 1 ∧ (s.receiver k).align = .disabled ∧ a = .search []) ∨
          (enable = 0 ∧ (s.receiver k).align ≠ .disabled ∧ portOn s.straps k = none ∧ a = .disabled) →
        ∃ t, exec (.setInput p tag highway enable persistence guard) s = .next t ∧
          t.receiver k = { s.receiver k with
            align := a, inFrame := false, persistence := persistence.toNat, guardLength := guard.toNat } ∧
          t.queue k = { frames := [], reading := none } ∧
          (∀ n : Slot, t.slotState k n = { s.slotState k n with candidate := none }) ∧
          (t.sup k).received = emptyRecord ∧ (t.sup k).lastEvaluation = (s.sup k).lastEvaluation ∧
          (∀ j, j ≠ k → t.receiver j = s.receiver j ∧ t.queue j = s.queue j ∧ t.sup j = s.sup j) ∧
          (∃ more, (t.port p).transmit = (s.port p).transmit ++
            .message (responseMessage tag 0x10 (okReply [highway, enable, persistence, guard, alignOctet a])) none ::
              more) ∧
          (s.inService k = true → s.events.admits (.alignState k) → t.events.reports (.alignState k) .outOfService) ∧
          (∀ job captured stamp, s.capture.phase = .running job captured stamp → Source.onInput k job.source = true →
            t.capture =
              { s.capture with
                phase := .ended .broken job captured stamp, filling := []
                ready := s.capture.ready ++
                  (if s.capture.filling = [] then []
                  else [{ sequence := s.capture.nextSequence, final := true, octets := s.capture.filling }])
                nextSequence := s.capture.nextSequence + (if s.capture.filling = [] then 0 else 1) } ∧
            (s.events.roomy → t.events.reports .capture .broken)) ∧
          ((∀ job captured stamp, s.capture.phase = .running job captured stamp →
            Source.onInput k job.source = false) → t.capture = s.capture) ∧
          t.bank0 = s.bank0 ∧ t.bank1 = s.bank1 ∧ t.activeBank = s.activeBank ∧ t.engine = s.engine ∧
          t.outputs = s.outputs ∧ t.timing = s.timing ∧ t.straps = s.straps)

/-- SET_OUTPUT stores its three items. It refuses what is out of range, and the disabling of a management highway, and
disabling the source of a RUNNING capture breaks it (R86, R168). -/
def Obligations.SetOutputStores : Prop :=
  ∀ (p : PortId) (tag highway enable idleOctet idleCode : Octet) (s : State), s.ready p tag → s.holdsLease p = true →
    (7 < highway.toNat ∨ 1 < enable.toNat ∨ 15 < idleCode.toNat →
      exec (.setOutput p tag highway enable idleOctet idleCode) s = .next
        ((s.renewLease p).answered p tag (.setOutput highway enable idleOctet idleCode)
          { status := .badArgument, data := [] })) ∧
    ∀ k : Highway, highway.toNat = k.val → enable.toNat ≤ 1 → idleCode.toNat ≤ 15 →
      (enable = 0 → (portOn s.straps k).isSome = true →
        exec (.setOutput p tag highway enable idleOctet idleCode) s = .next
          ((s.renewLease p).answered p tag (.setOutput highway enable idleOctet idleCode)
            { status := .protectedSlot, data := [] })) ∧
      (enable = 1 ∨ portOn s.straps k = none →
        (∀ job captured stamp, s.capture.phase = .running job captured stamp →
          Source.onOutput k job.source = true → enable = 1 ∨ (s.output k).enabled = false) →
        exec (.setOutput p tag highway enable idleOctet idleCode) s = .next
          (((s.renewLease p).setOutput k
            { s.output k with
              enabled := enable == 1, idleOctet := idleOctet, idleCode := BitVec.ofNat 4 idleCode.toNat }).answered p
                tag (.setOutput highway enable idleOctet idleCode)
                (okReply [highway, enable, idleOctet, idleCode]))) ∧
      (∀ job captured stamp, enable = 0 → portOn s.straps k = none → (s.output k).enabled = true →
        s.capture.phase = .running job captured stamp → Source.onOutput k job.source = true →
        ∃ t, exec (.setOutput p tag highway enable idleOctet idleCode) s = .next t ∧
          t.capture.phase = .ended .broken job captured stamp ∧ t.capture.filling = [] ∧
          (s.events.admits .capture → t.events.reports .capture .broken) ∧
          (((s.renewLease p).setOutput k
            { s.output k with
              enabled := false, idleOctet := idleOctet, idleCode := BitVec.ofNat 4 idleCode.toNat }).setCapture
                t.capture).sameButNews t)

/-- READ_HIGHWAY gives the input part and the output part of a highway, with FFH for each absent item (R56, R87, R176). -/
def Obligations.ReadHighwayReports : Prop :=
  ∀ (p : PortId) (tag highway : Octet) (s : State), s.ready p tag →
    (7 < highway.toNat →
      exec (.readHighway p tag highway) s = .next
        ((s.renewLease p).answered p tag (.readHighway highway) { status := .badArgument, data := [] })) ∧
    ∀ k : Highway, highway.toNat = k.val →
      exec (.readHighway p tag highway) s = .next ((s.renewLease p).answered p tag (.readHighway highway) (okReply
        ([highway, flagOctet (decide ((s.receiver k).align ≠ .disabled)), octet (s.receiver k).persistence,
          octet (s.receiver k).guardLength] ++
         (match (s.receiver k).align with
          | .disabled => [0x00, 0x00, 0xFF, 0xFF, 0xFF, 0xFF]
          | .search _ => [0x01, 0x00, 0xFF, 0xFF, 0xFF, 0xFF]
          | .confirm e n _ => [0x02, 0x00, e.setWidth 8, octet n, 0xFF, 0xFF]
          | .guard e n => [0x03, 0x00, e.setWidth 8, 0xFF, octet n, 0xFF]
          | .aligned e => [0x04, 0x01, e.setWidth 8, 0xFF, 0xFF, 0xFF]
          | .flywheel e n => [0x05, 0x01, e.setWidth 8, 0xFF, 0xFF, octet n]) ++
         [flagOctet (s.receiver k).receivedRA, flagOctet (s.output k).raSent, octet (s.queue k).frames.length,
          flagOctet (s.queue k).reading.isSome] ++
         [flagOctet (s.output k).enabled, (s.output k).idleOctet, (s.output k).idleCode.setWidth 8,
          (match portOn s.straps k with
           | some q => portOctet q
           | none => 0xFF),
          s.timing.frame.setWidth 8] ++ pairOctets s.timing.stamp)))

/-- READ_COUNTERS reports the counters of a highway or of a port, sets them to 0 in the same step with clear = 1, and
then needs the lease (R58, R148). The figures of the reading port include the command itself. -/
def Obligations.ReadCountersReportsAndClears : Prop :=
  ∀ (p : PortId) (tag number clear : Octet) (s : State), s.ready p tag →
    (clear = 1 → s.holdsLease p = false →
      exec (.readCountersHighway p tag number clear) s = .next (s.answered p tag (.readCounters 0 number clear)
        { status := .noLease, data := [orAbsent (s.leaseHolder.map portOctet)] }) ∧
      exec (.readCountersPort p tag number clear) s = .next (s.answered p tag (.readCounters 1 number clear)
        { status := .noLease, data := [orAbsent (s.leaseHolder.map portOctet)] })) ∧
    ((clear = 1 → s.holdsLease p = true) →
      (7 < number.toNat ∨ 1 < clear.toNat →
        exec (.readCountersHighway p tag number clear) s = .next
          ((s.renewLease p).answered p tag (.readCounters 0 number clear) { status := .badArgument, data := [] })) ∧
      (1 < number.toNat ∨ 1 < clear.toNat →
        exec (.readCountersPort p tag number clear) s = .next
          ((s.renewLease p).answered p tag (.readCounters 1 number clear) { status := .badArgument, data := [] })) ∧
      (∀ k : Highway, number.toNat = k.val → clear.toNat ≤ 1 →
        exec (.readCountersHighway p tag number clear) s = .next
          (((s.renewLease p).setReceiver k
            { s.receiver k with
              counters := if clear = 1 then zeroHighwayCounters else (s.receiver k).counters }).answered p tag
                (.readCounters 0 number clear) (okReply ([0x00, number] ++
                  pairOctets (s.receiver k).counters.markerErrors ++
                  pairOctets (s.receiver k).counters.alignmentLosses ++
                  pairOctets (s.receiver k).counters.dropSlips ++
                  pairOctets (s.receiver k).counters.repeatSlips)))) ∧
      ∀ q : PortId, number = portOctet q → clear.toNat ≤ 1 →
        exec (.readCountersPort p tag number clear) s = .next
          (((s.renewLease p).setPort q
            { s.port q with
              counters := if clear = 1 then zeroPortCounters else (s.port q).counters }).answered p tag
                (.readCounters 1 number clear) (okReply ([0x01, number] ++
                  (if s.portEnabled q then
                    [0x01] ++ (s.port q).counters.octets ++
                      ((s.started p tag (.readCounters 1 number clear)).port q).figures
                  else 0x00 :: (List.replicate 10 0x00 ++ List.replicate 6 0xFF))))))

/-- WATCH needs the lease, is checked, sets or clears the watch flags of its run and no others, and answers with the
number then set (R100). -/
def Obligations.WatchSetsTheRun : Prop :=
  ∀ (p : PortId) (tag highway first count setting : Octet) (s : State), s.ready p tag →
    (s.holdsLease p = false →
      exec (.watch p tag highway first count setting) s = .next
        (s.answered p tag (.watch highway first count setting)
          { status := .noLease, data := [orAbsent (s.leaseHolder.map portOctet)] })) ∧
    (s.holdsLease p = true →
      (7 < highway.toNat ∨ 63 < first.toNat ∨ count.toNat = 0 ∨ 64 < count.toNat ∨ 64 < first.toNat + count.toNat ∨
          1 < setting.toNat →
        exec (.watch p tag highway first count setting) s = .next
          ((s.renewLease p).answered p tag (.watch highway first count setting)
            { status := .badArgument, data := [] })) ∧
      ∀ k : Highway, highway.toNat = k.val → 1 ≤ count.toNat → first.toNat + count.toNat ≤ 64 → setting.toNat ≤ 1 →
        ∃ x : Supervisor,
          exec (.watch p tag highway first count setting) s = .next
            (((s.renewLease p).setSup k x).answered p tag (.watch highway first count setting)
              (okReply [highway, first, count, setting, octet (x.slots.toList.countP (·.watched))])) ∧
          (∀ n : Slot, x.slots[n] =
            if first.toNat ≤ n.val ∧ n.val < first.toNat + count.toNat then
              { s.slotState k n with watched := setting == 1 }
            else s.slotState k n) ∧
          x.received = (s.sup k).received ∧ x.spoiled = (s.sup k).spoiled ∧
          x.lastEvaluation = (s.sup k).lastEvaluation)

/-- READ_SIGNALING gives the alignment state, P, the last-evaluation stamp and one octet per slot: the stable code and
its presence, the candidate flag and the watch flag (R102, R176). The code bits of an absent stable code are left open. -/
def Obligations.ReadSignalingGivesEverySlot : Prop :=
  ∀ (p : PortId) (tag highway : Octet) (s : State), s.ready p tag →
    (7 < highway.toNat →
      exec (.readSignaling p tag highway) s = .next
        ((s.renewLease p).answered p tag (.readSignaling highway) { status := .badArgument, data := [] })) ∧
    ∀ k : Highway, highway.toNat = k.val → ∃ octets : Vector Octet 64,
      exec (.readSignaling p tag highway) s = .next
        (((s.renewLease p).useDraw).answered p tag (.readSignaling highway) (okReply
          ([highway, alignOctet (s.receiver k).align, octet (s.receiver k).persistence] ++
            (match (s.sup k).lastEvaluation with
             | some stamp => 0x01 :: pairOctets stamp
             | none => [0x00, 0x00, 0x00]) ++ octets.toList))) ∧
      ∀ n : Slot,
        octets[n].getLsbD 7 = false ∧ octets[n].getLsbD 6 = (s.slotState k n).watched ∧
        octets[n].getLsbD 5 = (s.slotState k n).candidate.isSome ∧
        octets[n].getLsbD 4 = (s.slotState k n).stable.isSome ∧
        ∀ c, (s.slotState k n).stable = some c → lowCode octets[n] = c

/-! ### Commands of the event list and the capture unit -/

/-- FETCH_EVENTS (R114 to R120, R122, R124): BATCH_HELD and STALE_BATCH change nothing, re-delivery and takeover reset
the hold, a matching acknowledgement removes the DELIVERED entries, and a new batch takes up to twelve of the oldest
UNDELIVERED ones. Losses that waited behind a DELIVERED OVERFLOW entry make a new one at its removal (R113, R116), which
may make the attention condition true. The last octets of the header are as they stand at the end. That an acknowledgement
and the batch formed after it are one change of the attention condition, so that no NOTICE is offered between them, is
the model's reading (log 15, DEDUCED). -/
def Obligations.FetchEventsDelivers : Prop :=
  ∀ (p : PortId) (tag : Octet) (ack : Option Octet) (s : State), s.ready p tag →
    s.events.attn = s.events.condition → s.events.holdTime ≠ 0 →
    (∀ b, s.events.batch = some b →
      (b.port ≠ p ∧ b.hold ≠ 0 ∨ b.port = p ∧ ∃ n, ack = some n ∧ n ≠ s.events.batchNumber) → ∃ flags : Octet,
        exec (.fetchEvents p tag ack) s = .next
          (((s.renewLease p).useDraw).answered p tag (.fetchEvents ack)
            { status := if b.port ≠ p then .batchHeld else .staleBatch
              data := [flags, s.events.batchNumber, b.hold, 0x00, octet s.events.undeliveredCount] ++
                pairOctets s.events.losses }) ∧
        flags.getLsbD 0 = false ∧ flags.getLsbD 1 = false ∧ flags.getLsbD 3 = true ∧
        flags.getLsbD 4 = decide (b.port = .b)) ∧
    (∀ b, s.events.batch = some b → (b.port ≠ p ∧ b.hold = 0 ∨ b.port = p ∧ ack = none) →
      s.events.deliveredEntries ≠ [] →
      ∃ (flags : Octet) (l : EventList),
        l = { s.events with
          batch := some { port := p, hold := s.events.holdTime }
          attn := !s.events.waiting.isEmpty
          timer := if s.events.waiting.isEmpty then none else startedTimer s.events.interval } ∧
        exec (.fetchEvents p tag ack) s = .next
          ((((s.renewLease p).setEvents l).useDraw).answered p tag (.fetchEvents ack) (okReply
            ([flags, s.events.batchNumber, s.events.holdTime, octet s.events.deliveredEntries.length,
              octet s.events.undeliveredCount] ++ pairOctets s.events.losses ++
              s.events.deliveredEntries.flatMap Event.octets))) ∧
        flags.getLsbD 0 = false ∧ flags.getLsbD 1 = decide (b.port ≠ p) ∧
        (b.port ≠ p → flags.getLsbD 2 = decide (b.port = .b)) ∧ flags.getLsbD 3 = true ∧
        flags.getLsbD 4 = decide (p = .b)) ∧
    (s.events.batch = none → ack.isSome = true → ∃ flags : Octet,
      exec (.fetchEvents p tag ack) s = .next
        (((s.renewLease p).useDraw).answered p tag (.fetchEvents ack)
          { status := .staleBatch
            data := [flags, 0x00, 0x00, 0x00, octet s.events.undeliveredCount] ++ pairOctets s.events.losses }) ∧
      flags.getLsbD 0 = false ∧ flags.getLsbD 1 = false ∧ flags.getLsbD 3 = false) ∧
    (∀ kept : List Event,
      kept = s.events.entries.filter (fun e => !e.delivered) ++
        (if s.events.losses = 0 then []
        else
          [{ body := .overflow s.events.losses, created := s.timing.stamp, updated := s.timing.stamp
             delivered := false }]) →
      (s.events.batch = none ∧ ack = none ∧ s.events.deliveredEntries = [] ∧ s.events.losses = 0 ∨
        (∃ b, s.events.batch = some b ∧ b.port = p ∧ ack = some s.events.batchNumber) ∧
          (s.events.losses ≠ 0 → ∀ e ∈ s.events.entries, e.isOverflow = true → e.delivered = true)) →
      (kept = [] → ∃ (flags : Octet) (timer : Option Octet),
        exec (.fetchEvents p tag ack) s = .next
          ((((s.renewLease p).setEvents
            { s.events with entries := [], batch := none, attn := false, timer := timer }).useDraw).answered p tag
              (.fetchEvents ack) (okReply [flags, 0x00, 0x00, 0x00, 0x00, 0x00, 0x00])) ∧
        (s.events.attn = true → timer = none) ∧ (s.events.attn = false → timer = s.events.timer) ∧
        flags.getLsbD 0 = ack.isSome ∧ flags.getLsbD 1 = false ∧ flags.getLsbD 3 = false) ∧
      (kept ≠ [] → s.events.losses ≠ 0 → s.events.attn = false → 12 < kept.length →
        s.events.mask.getLsbD 8 = true → ∃ t, exec (.fetchEvents p tag ack) s = .next t ∧ t.events.attn = true ∧
          t.events.timer = startedTimer s.events.interval ∧ t.events.batchNumber = s.events.batchNumber + 1 ∧
          t.events.batch = some { port := p, hold := s.events.holdTime } ∧
          t.events.deliveredEntries = (kept.take 12).map (fun e => { e with delivered := true })) ∧
      (kept ≠ [] → (s.events.losses ≠ 0 → s.events.attn = true ∨ kept.length ≤ 12 ∨
          s.events.mask.getLsbD 8 = false) → ∃ (flags : Octet) (l : EventList),
        l.entries = (kept.take 12).map (fun e => { e with delivered := true }) ++ kept.drop 12 ∧
        l = { s.events with
          entries := l.entries
          losses := 0
          batchNumber := s.events.batchNumber + 1
          batch := some { port := p, hold := s.events.holdTime }
          attn := !l.waiting.isEmpty
          timer := if l.waiting.isEmpty then none else startedTimer s.events.interval } ∧
        exec (.fetchEvents p tag ack) s = .next
          ((((s.renewLease p).setEvents l).useDraw).answered p tag (.fetchEvents ack) (okReply
            ([flags, s.events.batchNumber + 1, s.events.holdTime, octet (kept.take 12).length,
              octet (kept.drop 12).length, 0x00, 0x00] ++ (kept.take 12).flatMap Event.octets))) ∧
        flags.getLsbD 0 = ack.isSome ∧ flags.getLsbD 1 = false ∧ flags.getLsbD 3 = true ∧
        flags.getLsbD 4 = decide (p = .b)))

/-- An occurrence merges into the UNDELIVERED entry of its key, which keeps its place, first value and created stamp
(R109, R110). Without one it makes an entry while fewer than 63 ordinary ones stand (R112). Otherwise it is lost, and the
loss is counted in the OVERFLOW entry, in L while that entry is DELIVERED, or in a new OVERFLOW entry (R113). A change of
the received RA flag is such an occurrence. -/
def Obligations.OccurrencesMergeOrAreCounted : Prop :=
  (∀ (l : EventList) (key : EventKey) (v : EventValue) (now : Stamp),
    (∀ before e behind first latest count, l.entries = before ++ e :: behind →
      (∀ x ∈ before, x.delivered = true ∨ x.hasKey key = false) → e.delivered = false →
      e.body = .ordinary key first latest count →
      l.take key v now = { l with
        entries := before ++
          { body := .ordinary key first v (if count = 255 then 255 else count + 1)
            created := e.created, updated := now, delivered := false } :: behind }) ∧
    ((∀ x ∈ l.entries, x.delivered = true ∨ x.hasKey key = false) →
      (l.ordinaryCount < 63 →
        l.take key v now = { l with
          entries := l.entries ++
            [{ body := .ordinary key v v 1, created := now, updated := now, delivered := false }] }) ∧
      (63 ≤ l.ordinaryCount →
        (∀ before e behind n, l.entries = before ++ e :: behind → e.body = .overflow n → e.delivered = false →
          (∀ x ∈ before ++ behind, x.isOverflow = false) →
          l.take key v now = { l with
            entries := before ++
              { body := .overflow (if n = 65535 then 65535 else n + 1), created := e.created, updated := now
                delivered := false } :: behind }) ∧
        ((∃ e ∈ l.entries, e.isOverflow = true) → (∀ e ∈ l.entries, e.isOverflow = true → e.delivered = true) →
          l.take key v now = { l with losses := if l.losses = 65535 then 65535 else l.losses + 1 }) ∧
        ((∀ e ∈ l.entries, e.isOverflow = false) → l.losses = 0 →
          l.take key v now = { l with
            entries := l.entries ++ [{ body := .overflow 1, created := now, updated := now, delivered := false }]
            losses := 0 })))) ∧
  ∀ (k : Highway) (o : Octet) (e : FrameNumber) (s : State), (s.receiver k).inFrame = false →
    (s.receiver k).align = .aligned e → goodMarker o e = true → markerRA o ≠ (s.receiver k).receivedRA →
    s.events.attn = true → s.events.condition = true →
    exec (.markerPosition k o) s = .next ((s.setReceiver k
      { s.receiver k with align := .aligned (e + 1), inFrame := true, receivedRA := markerRA o }).setEvents
        (s.events.take (.remoteAlarm k) (.alarm (markerRA o)) s.timing.stamp))

/-- SET_ATTENTION stores mask, interval and hold time, and the attention condition and the timer follow at once. A hold
time of 0 is BAD_ARGUMENT (R122, R124, R126). -/
def Obligations.SetAttentionStores : Prop :=
  ∀ (p : PortId) (tag maskHigh maskLow interval hold : Octet) (l : EventList) (s : State), s.ready p tag →
    s.holdsLease p = true →
    (hold = 0 →
      exec (.setAttention p tag maskHigh maskLow interval hold) s = .next
        ((s.renewLease p).answered p tag (.setAttention maskHigh maskLow interval hold)
          { status := .badArgument, data := [] })) ∧
    (hold ≠ 0 →
      l = { s.events with mask := (maskHigh ++ maskLow).setWidth 9, interval := interval, holdTime := hold } →
      (l.condition = false ∨ s.events.attn = true →
        exec (.setAttention p tag maskHigh maskLow interval hold) s = .next
          (((s.renewLease p).setEvents
            { l with
              attn := l.condition
              timer := if l.condition = true ∧ interval ≠ 0 then some interval else none }).answered p tag
                (.setAttention maskHigh maskLow interval hold)
                (okReply [maskHigh &&& 1, maskLow, interval, hold, flagOctet l.condition]))) ∧
      (l.condition = true → s.events.attn = false → ∃ t,
        exec (.setAttention p tag maskHigh maskLow interval hold) s = .next t ∧ (s.renewLease p).sameButNews t ∧
        t.events.attn = true ∧ t.events.mask = l.mask ∧ t.events.interval = interval ∧ t.events.holdTime = hold ∧
        (interval ≠ 0 → t.events.timer = some interval) ∧
        ((s.port p).transmit.length < 5 → ∃ notice,
          (t.port p).transmit = (s.port p).transmit ++
            [.message (responseMessage tag 0x19 (okReply [maskHigh &&& 1, maskLow, interval, hold, 0x01])) none,
             .message notice none] ∧
          notice.take 5 = [0xB4, 0x08, 0x00, 0xC0, octet l.waiting.length])))

/-- ARM_CAPTURE arms the unit with its source, trigger and length, with every pool EMPTY and the sequence number kept. It
refuses what is out of range, a busy unit, and a disabled output source, in this order (R162). The octets that the
trigger kind does not use are left open in the response. -/
def Obligations.ArmCaptureArms : Prop :=
  ∀ (p : PortId) (tag kind highway slot trigger a b c lengthHigh lengthLow : Octet) (s : State), s.ready p tag →
    s.holdsLease p = true →
    (1 < kind.toNat ∨ 7 < highway.toNat ∨ 63 < slot.toNat ∨ 2 < trigger.toNat ∨
        trigger = 2 ∧ (7 < a.toNat ∨ 63 < b.toNat ∨ 15 < c.toNat) ∨ (lengthHigh ++ lengthLow).toNat = 0 ∨
        1024 < (lengthHigh ++ lengthLow).toNat →
      exec (.armCapture p tag kind highway slot trigger a b c lengthHigh lengthLow) s = .next
        ((s.renewLease p).answered p tag (.armCapture kind highway slot trigger a b c lengthHigh lengthLow)
          { status := .badArgument, data := [] })) ∧
    ∀ (k : Highway) (n : Slot) (t : Trigger), kind.toNat ≤ 1 → highway.toNat = k.val → slot.toNat = n.val →
      (trigger = 0 ∧ t = .now ∨ trigger = 1 ∧ t = .octet a ∨
        trigger = 2 ∧ ∃ (h : Highway) (m : Slot), a.toNat = h.val ∧ b.toNat = m.val ∧ c.toNat ≤ 15 ∧
          t = .code h m (BitVec.ofNat 4 c.toNat)) →
      1 ≤ (lengthHigh ++ lengthLow).toNat → (lengthHigh ++ lengthLow).toNat ≤ 1024 →
      ((s.capture.phase.job ≠ none ∧ (∀ how job i st, s.capture.phase = .ended how job i st → s.capture.ready ≠ [])) →
        exec (.armCapture p tag kind highway slot trigger a b c lengthHigh lengthLow) s = .next
          ((s.renewLease p).answered p tag (.armCapture kind highway slot trigger a b c lengthHigh lengthLow)
            { status := .captureBusy, data := [] })) ∧
      ((s.capture.phase = .idle ∨ ∃ how job i st, s.capture.phase = .ended how job i st ∧ s.capture.ready = []) →
        (kind = 1 → (s.output k).enabled = false →
          exec (.armCapture p tag kind highway slot trigger a b c lengthHigh lengthLow) s = .next
            ((s.renewLease p).answered p tag (.armCapture kind highway slot trigger a b c lengthHigh lengthLow)
              { status := .badArgument, data := [] })) ∧
        ((kind = 1 → (s.output k).enabled = true) → ∃ a' b' c' : Octet,
          exec (.armCapture p tag kind highway slot trigger a b c lengthHigh lengthLow) s = .next
            ((((s.renewLease p).setCapture
              { phase := .armed
                  { source := if kind = 0 then .input k n else .output k n, trigger := t,
                    length := (lengthHigh ++ lengthLow).toNat }
                filling := [], ready := [], nextSequence := s.capture.nextSequence }).useDraw).answered p tag
                  (.armCapture kind highway slot trigger a b c lengthHigh lengthLow)
                  (okReply [kind, highway, slot, trigger, a', b', c', lengthHigh, lengthLow,
                    s.capture.nextSequence])) ∧
          (trigger ≠ 0 → a' = a) ∧ (trigger = 2 → b' = b ∧ c' = c)))

/-- READ_CAPTURE frees and returns the oldest READY pool, or answers NOT_READY (R169). CANCEL_CAPTURE needs the lease,
enters IDLE with every pool EMPTY and keeps the next sequence number (R170). -/
def Obligations.ReadAndCancelCapture : Prop :=
  ∀ (p : PortId) (tag : Octet) (s : State), s.ready p tag →
    (∀ pool rest job captured stamp how, s.capture.ready = pool :: rest →
      (s.capture.phase = .running job captured stamp ∧ how = none ∨
        ∃ x, s.capture.phase = .ended x job captured stamp ∧ how = some x) →
      exec (.readCapture p tag) s = .next
        ((((s.renewLease p).setCapture { s.capture with ready := rest }).useDraw).answered p tag .readCapture (okReply
          ([captureOctet s.capture.phase, pool.sequence, octet pool.octets.length, flagOctet pool.final,
            octet rest.length] ++ pairOctets (BitVec.ofNat 16 captured) ++
            [if how = some Ending.overrun then 0x01 else 0x00] ++ pairOctets stamp ++ pool.octets)))) ∧
    (s.capture.ready = [] → ∃ high low lost : Octet,
      exec (.readCapture p tag) s = .next
        (((s.renewLease p).useDraw).answered p tag .readCapture
          { status := .notReady, data := [captureOctet s.capture.phase, high, low, lost, 0x00] }) ∧
      (∀ n, s.capture.phase.captured = some n → [high, low] = pairOctets (BitVec.ofNat 16 n)) ∧
      ∀ n, s.capture.phase.lost = some n → lost = octet n) ∧
    (s.holdsLease p = false →
      exec (.cancelCapture p tag) s = .next
        (s.answered p tag .cancelCapture
          { status := .noLease, data := [orAbsent (s.leaseHolder.map portOctet)] })) ∧
    (s.holdsLease p = true →
      exec (.cancelCapture p tag) s = .next
        (((s.renewLease p).setCapture
          { phase := .idle, filling := [], ready := [], nextSequence := s.capture.nextSequence }).answered p tag
            .cancelCapture (okReply [captureOctet s.capture.phase, octet s.capture.ready.length])))

/-! ### The output frame start -/

/-- At an output frame start every enabled highway sends a marker with the new frame number and RA for a hunting
receiver, the codes of its four slots, and in each slot what its ACTIVE entry calls for. A disabled one sends FFH in all
67 positions (R53, R79, R80, R82, R83). The bank `b` is the one that is ACTIVE after the start: at a boundary that finds
the engine PENDING the former STANDBY bank (R25), unless an ABORT_COMMIT that the start lets start has cancelled the commit
(R28), and otherwise the ACTIVE bank, unless a COMMIT that the start lets start has come before the boundary (R24). It
holds in every order of the start's parts. -/
def Obligations.FramesFollowTheMap : Prop :=
  ∀ (order : StartOrder) (s : State), ∃ (t : State) (b : BankId), exec (.outputFrameStart order) s = .next t ∧
    (s.resetNext .a ≠ some .cold → s.resetNext .b ≠ some .cold → t.activeBank = b) ∧
    (b ≠ s.nextActive → s.boundaryNext = true ∧
      ((s.swapsNext = true ∧ (∃ p, ∃ q ∈ (s.port p).commands, q.command = .abortCommit ∧ q.started = false) ∧
          (t.engine.isPending = true →
            ∃ p, ∃ q ∈ (s.port p).commands, q.command = .commit ∧ q.started = false)) ∨
        s.swapsNext = false ∧ ∃ p, ∃ q ∈ (s.port p).commands, q.command = .commit ∧ q.started = false)) ∧
    ∀ k : Highway,
      ((s.output k).enabled = false → ∀ i : Fin 67, (t.output k).line[i] = 0xFF) ∧
      ∀ number : FrameNumber, (s.output k).enabled = true →
        number = (if s.timing.startPending then s.timing.frame else s.timing.frame + 1) →
        (t.output k).line[0] = markerOctet
          (decide (alignOctet (s.receiver k).align = 1 ∨ alignOctet (s.receiver k).align = 2)) number ∧
        (t.output k).line[1] = signallingOctet
          (s.nextCode k (s.bank b)[k][signallingSlot number 0])
          (s.nextCode k (s.bank b)[k][signallingSlot number 1]) ∧
        (t.output k).line[2] = signallingOctet
          (s.nextCode k (s.bank b)[k][signallingSlot number 2])
          (s.nextCode k (s.bank b)[k][signallingSlot number 3]) ∧
        ∀ (n : Slot) (o : Octet), s.nextOctet k (s.bank b)[k][n] = some o →
          (t.output k).line[3 + n.val]'(by omega) = o

/-- At an output frame start with no command waiting and no reset due, the timing advances (R75), and the frame queue of
each highway in service hands over its head, or repeats its reading frame with a repeat slip (R64 to R66). What the start
leaves alone is named. -/
def Obligations.StartAdvancesAndSelects : Prop :=
  ∀ (order : StartOrder) (s : State), s.noWork → ∃ t, exec (.outputFrameStart order) s = .next t ∧
    t.timing =
      (if s.timing.startPending then { s.timing with startPending := false }
      else if s.timing.frame = 15 then { frame := 0, stamp := s.timing.stamp + 1, startPending := false }
      else { frame := s.timing.frame + 1, stamp := s.timing.stamp, startPending := false }) ∧
    (∀ k : Highway,
      (s.inService k = false → t.queue k = s.queue k ∧ t.receiver k = s.receiver k) ∧
      (∀ f rest, s.inService k = true → (s.queue k).frames = f :: rest →
        t.queue k = { frames := rest, reading := some f } ∧ t.receiver k = s.receiver k) ∧
      (s.inService k = true → (s.queue k).frames = [] → (s.queue k).reading = none →
        t.queue k = s.queue k ∧ t.receiver k = s.receiver k) ∧
      (∀ f, s.inService k = true → (s.queue k).frames = [] → (s.queue k).reading = some f →
        t.queue k = s.queue k ∧
        t.receiver k = { s.receiver k with
          counters := { (s.receiver k).counters with repeatSlips := saturate (s.receiver k).counters.repeatSlips } } ∧
        (s.events.roomy → t.events.reports (.slip k) .repeated)) ∧
      (t.output k).enabled = (s.output k).enabled ∧ (t.output k).idleOctet = (s.output k).idleOctet ∧
      (t.output k).idleCode = (s.output k).idleCode) ∧
    t.pins = s.pins ∧ t.straps = s.straps ∧ t.sups = s.sups ∧ t.activeBank = s.nextActive ∧
    t.bank s.nextActive = s.bank s.nextActive ∧ (s.tickNext = false → t.lease = s.lease) ∧
    (s.capture.phase.job = none → t.capture = s.capture)

/-- The management slots take the next octets of the head message, which leaves when its last octet is taken, and the
next slot takes from the new head. A place still reserved at the head gives 00H and holds back what is behind it, and so
does an empty queue, unless a NOTICE offered at the same start has come before the octets (R81, R141, R143). -/
def Obligations.ManagementSlotsDrainTheHead : Prop :=
  ∀ (order : StartOrder) (p : PortId) (w : Nat) (s : State), s.portEnabled p = true →
    (s.output (s.portPair p)).enabled = true → s.noWork → s.swapsNext = false → w = strapWidth s.straps →
    (∀ n : Slot, mgmtSlot s.straps n = true → (s.bank s.activeBank)[s.portPair p][n].isMgmt = true) →
    ∃ (t : State) (octets : List Octet), exec (.outputFrameStart order) s = .next t ∧
      octets = (t.output (s.portPair p)).line.toList.drop (67 - w) ∧
      (∀ m x rest, (s.port p).transmit = .message m x :: rest → w ≤ m.length →
        octets = m.take w ∧
        (w < m.length → ∃ more, (t.port p).transmit = .message (m.drop w) x :: rest ++ more) ∧
        (w = m.length → ∃ more, (t.port p).transmit = rest ++ more)) ∧
      (∀ m x m' x' rest, (s.port p).transmit = .message m x :: .message m' x' :: rest → 0 < m.length →
        m.length < w → w < m.length + m'.length →
        octets = m ++ m'.take (w - m.length) ∧
        ∃ more, (t.port p).transmit = .message (m'.drop (w - m.length)) x' :: rest ++ more) ∧
      (∀ m x r rest, (s.port p).transmit = .message m x :: .reserved r :: rest → 0 < m.length → m.length < w →
        octets = m ++ List.replicate (w - m.length) 0x00 ∧ ∃ more, (t.port p).transmit = .reserved r :: rest ++ more) ∧
      (∀ r rest, (s.port p).transmit = .reserved r :: rest →
        octets = List.replicate w 0x00 ∧ ∃ more, (t.port p).transmit = .reserved r :: rest ++ more) ∧
      ∀ m, ((s.port p).transmit = [] ∧ m = [] ∨ ∃ x, (s.port p).transmit = [.message m x] ∧ 0 < m.length) →
        m.length < w →
        (octets = m ++ List.replicate (w - m.length) 0x00 ∧
            ∀ x ∈ (t.port p).transmit, ∃ notice, x = .message notice none ∧
              notice.take 4 = [0xB4, 0x08, 0x00, 0xC0]) ∨
          ∃ (notice : List Octet) (more : List Place), octets = m ++ notice.take (w - m.length) ∧
            notice.take 4 = [0xB4, 0x08, 0x00, 0xC0] ∧
            (t.port p).transmit = .message (notice.drop (w - m.length)) none :: more

/-- The swap at the boundary that finds the engine PENDING: the roles are exchanged and no entry changes, the sync begins
at OH0 without marks, SWAPPED is raised, and the COMMIT is answered OK with the new bank and the stamp of the multiframe
that begins (R25, R26). -/
def Obligations.SwapExchangesTheBanks : Prop :=
  ∀ (order : StartOrder) (r : PendingCommit) (stamp : Stamp) (m : List Octet) (s : State), s.boundaryNext = true →
    s.engine = .pending r → s.noWork → s.events.roomy →
    stamp = (if s.timing.startPending then s.timing.stamp else s.timing.stamp + 1) →
    m = responseMessage r.tag 0x0C (okReply (bankOctet s.standbyBank :: pairOctets stamp)) →
    ∃ t, exec (.swap order) s = .next t ∧ t.activeBank = s.standbyBank ∧ t.bank0 = s.bank0 ∧ t.bank1 = s.bank1 ∧
      t.engine = .syncing 0 noMarks ∧ t.timing.stamp = stamp ∧
      t.events.reports .commit (.swapped s.standbyBank) ∧
      ((s.port r.port).transmit.any (Place.isReservedFor .commit) = true →
        (∃ sent, sent ≤ 4 ∧ .message (m.drop sent) none ∈ (t.port r.port).transmit) ∧
        ∀ e, r.cached = true → (s.port r.port).cached r.tag = some e →
          (t.port r.port).cached r.tag = some { e with state := .done m }) ∧
      t.sups = s.sups ∧ t.straps = s.straps ∧ (s.tickNext = false → t.lease = s.lease)

/-- One copy of a sync: the STANDBY entries of the highway at the sync position take the ACTIVE ones except where marked,
no other entry changes, and the position advances. The copy of OH7 ends the sync: IDLE, no marks, and SYNC_DONE is raised
(R29, R30, R34). -/
def Obligations.SyncCopiesHighwayByHighway : Prop :=
  ∀ (order : StartOrder) (pos : Highway) (marks : Marks) (s : State), s.engine = .syncing pos marks → s.noWork →
    (pos ≠ 7 → ∃ t, exec (.syncCopy order) s = .next t ∧ t.engine = .syncing (pos + 1) marks ∧
      t.activeBank = s.activeBank ∧ (∀ (k : Highway) (n : Slot), t.activeEntry k n = s.activeEntry k n ∧
        t.standbyEntry k n = if k = pos ∧ marks[k][n] = false then s.activeEntry k n else s.standbyEntry k n) ∧
      t.sups = s.sups ∧ t.straps = s.straps) ∧
    (pos = 7 → s.events.roomy →
      ∃ t, exec (.syncDone order) s = .next t ∧ t.engine = .idle ∧ t.events.reports .commit .syncDone ∧
        t.activeBank = s.activeBank ∧ (∀ (k : Highway) (n : Slot), t.activeEntry k n = s.activeEntry k n ∧
          t.standbyEntry k n = if k = 7 ∧ marks[k][n] = false then s.activeEntry k n else s.standbyEntry k n) ∧
        t.sups = s.sups ∧ t.straps = s.straps)

/-- The tick that brings the remaining time to 0 frees the lease, keeps the period and raises LEASE EXPIRED, and one that
does not only lowers it (R154). The tick that brings the remaining hold to 0 lapses the batch: it stays outstanding with
its number and its entries, and the attention condition is true (R119, R122). -/
def Obligations.TickLowersLeaseAndHold : Prop :=
  ∀ (order : StartOrder) (s : State), s.tickNext = true → s.noWork →
    (∀ h, s.lease.holder = some h → h.remaining = 1 → s.events.roomy →
      ∃ t, exec (.leaseExpired order) s = .next t ∧
        t.lease = { holder := none, period := s.lease.period } ∧ t.events.reports (.lease h.port) .expired ∧
        t.sups = s.sups ∧ t.straps = s.straps ∧ t.activeBank = s.nextActive) ∧
    (∀ h, s.lease.holder = some h → 1 < h.remaining.toNat → ∃ t, exec (.outputFrameStart order) s = .next t ∧
      t.lease = { holder := some { port := h.port, remaining := h.remaining - 1 }, period := s.lease.period }) ∧
    (∀ b, s.events.batch = some b → b.hold = 1 → ∃ t, exec (.batchLapse order) s = .next t ∧
      t.events.batch = some { port := b.port, hold := 0 } ∧ t.events.attn = true ∧
      t.events.batchNumber = s.events.batchNumber ∧ t.events.deliveredEntries = s.events.deliveredEntries ∧
      t.sups = s.sups ∧ t.straps = s.straps ∧ t.activeBank = s.nextActive) ∧
    ∀ b, s.events.batch = some b → 1 < b.hold.toNat → ∃ t, exec (.outputFrameStart order) s = .next t ∧
      t.events.batch = some { port := b.port, hold := b.hold - 1 }

/-- The expiry of the notice timer offers a NOTICE to each enabled port and restarts the timer at the interval. The
NOTICE enters at the tail, behind waiting messages and reserved places. A port without a free place drops it, counts it,
and NOTICE_DROP is raised. Where the same start frees a place of a full queue, the offer may come before or after
(R123 to R125, R143). -/
def Obligations.TimerExpiryOffersANotice : Prop :=
  ∀ (order : StartOrder) (s : State), s.tickNext = true → s.events.timer = some 1 → s.events.attn = true →
    s.events.condition = true → s.noWork → s.events.roomy → s.engine.isPending = false →
    ∃ t, exec (.noticeTimerExpiry order) s = .next t ∧
      t.events.timer = (if s.events.interval = 0 then none else some s.events.interval) ∧ t.events.attn = true ∧
      t.sups = s.sups ∧ t.straps = s.straps ∧ t.activeBank = s.activeBank ∧
      ∀ p, s.portEnabled p = true →
        ((s.port p).transmit = [] → ∃ (notice : List Octet) (sent : Nat), sent ≤ 4 ∧
          notice.take 4 = [0xB4, 0x08, 0x00, 0xC0] ∧ (t.port p).transmit = [.message (notice.drop sent) none]) ∧
        ((s.port p).transmit ≠ [] → (∀ m x rest, (s.port p).transmit = .message m x :: rest → 4 < m.length) →
          ((s.port p).transmit.length < 6 → ∃ notice, (t.port p).transmit.getLast? = some (.message notice none) ∧
            notice.take 4 = [0xB4, 0x08, 0x00, 0xC0] ∧
            (t.port p).transmit.length = (s.port p).transmit.length + 1 ∧
            (t.port p).counters = (s.port p).counters) ∧
          (6 ≤ (s.port p).transmit.length →
            (t.port p).counters.dropped = saturate (s.port p).counters.dropped ∧
            t.events.reports (.mgmtError p) .noticeDrop)) ∧
        ∀ m x rest, (s.port p).transmit = .message m x :: rest → m.length ≤ 4 →
          (∃ (notice : List Octet) (sent : Nat), sent ≤ 4 ∧ notice.take 4 = [0xB4, 0x08, 0x00, 0xC0] ∧
            (t.port p).transmit.getLast? = some (.message (notice.drop sent) none) ∧
            (t.port p).counters = (s.port p).counters) ∨
          (6 ≤ (s.port p).transmit.length ∧ (t.port p).counters.dropped = saturate (s.port p).counters.dropped ∧
            t.events.reports (.mgmtError p) .noticeDrop)

/-- What one octet of the source does to an ARMED and to a RUNNING capture (R163 to R167, R171), from an input source
whose frame completes no message and no error at a port and from an output source: the trigger met or not met, the pools
filled, POOL_READY at the 64th octet, OVERRUN for want of a pool. A CODE trigger is met by the acceptance of its code
alone (R164). A disabled output highway and an input highway out of service hand over nothing. -/
def Obligations.CaptureTakesItsOctets : Prop :=
  (∀ (k : Highway) (n : Slot) (f : InFrame) (order : CompletionOrder) (job : Job) (s : State),
    s.capture.phase.job = some job → job.source = .input k n → (s.receiver k).inFrame = true →
    s.framerQuiet k f → (∀ m c, job.trigger ≠ .code k m c) → ∃ t,
      exec (.inputFrameCompletion k f order) s = .next t ∧
      (s.inService k = false → t.capture = s.capture) ∧
      (s.inService k = true → ∃ event, s.capture.tookOctet s.timing.stamp f.payload[n] t.capture event ∧
        ∀ v, event = some v → s.events.roomy → (∀ m : Slot, (s.slotState k m).watched = false) →
          t.events.reports .capture v)) ∧
  (∀ (k : Highway) (n : Slot) (order : StartOrder) (job : Job) (s : State),
    s.capture.phase.job = some job → job.source = .output k n → s.noWork → ∃ t,
      exec (.outputFrameStart order) s = .next t ∧
      ((s.output k).enabled = false → t.capture = s.capture) ∧
      ((s.output k).enabled = true → ∃ event stamp, (stamp = s.timing.stamp ∨ stamp = t.timing.stamp) ∧
        s.capture.tookOctet stamp ((t.output k).line[3 + n.val]'(by omega)) t.capture event ∧
        ∀ v, event = some v → s.events.roomy → t.events.reports .capture v)) ∧
  ∀ (h : Highway) (m : Slot) (c : Code) (f : InFrame) (order : CompletionOrder) (job : Job) (s : State),
    s.capture.phase = .armed job → job.trigger = .code h m c → Source.onInput h job.source = false →
    (s.receiver h).inFrame = true → s.framerQuiet h f → ∃ t,
      exec (.inputFrameCompletion h f order) s = .next t ∧
      t.capture =
        if (s.slotState h m).stable ≠ some c ∧ (t.slotState h m).stable = some c then
          { s.capture with phase := .running job 0 s.timing.stamp }
        else s.capture

/-- The octet that brings the captured count to the length ends the capture: the FILLING pool becomes READY with the next
sequence number and the final flag, the unit enters DONE, and CAPTURE DONE is raised (R166), for an input source whose
frame completes no message and no error at a port and for an output source. -/
def Obligations.CaptureEndsAtItsLength : Prop :=
  ∀ (f : InFrame) (completion : CompletionOrder) (start : StartOrder) (job : Job) (captured : Nat) (stamp : Stamp)
    (s : State), s.capture.phase = .running job captured stamp → captured + 1 = job.length →
    (s.capture.filling ≠ [] ∨ s.capture.ready.length < 4) → s.events.roomy →
    (∀ k n, job.source = .input k n → (s.receiver k).inFrame = true → s.inService k = true →
      s.framerQuiet k f → ∃ t, exec (.captureDone f completion start) s = .next t ∧
        t.capture =
          { phase := .ended .done job (captured + 1) stamp, filling := []
            ready := s.capture.ready ++
              [{ sequence := s.capture.nextSequence, final := true, octets := s.capture.filling ++ [f.payload[n]] }]
            nextSequence := s.capture.nextSequence + 1 } ∧
        t.events.reports .capture .done ∧ t.bank0 = s.bank0 ∧ t.bank1 = s.bank1 ∧ t.engine = s.engine ∧
        t.outputs = s.outputs ∧ t.lease = s.lease ∧ t.timing = s.timing) ∧
    ∀ k n, job.source = .output k n → (s.output k).enabled = true → s.noWork →
      ∃ t, exec (.captureDone f completion start) s = .next t ∧
        t.capture =
          { phase := .ended .done job (captured + 1) stamp, filling := []
            ready := s.capture.ready ++
              [{ sequence := s.capture.nextSequence, final := true
                 octets := s.capture.filling ++ [(t.output k).line[3 + n.val]'(by omega)] }]
            nextSequence := s.capture.nextSequence + 1 } ∧
        t.events.reports .capture .done ∧ t.sups = s.sups ∧ t.straps = s.straps

/-! ### Resets -/

/-- The state after a power-on reset, block by block (R7, R37, R59, R73, R88, R104, R127, R149, R160, R172). -/
def Obligations.PowerOnResetSetsEveryBlock : Prop :=
  ∀ (pins : Straps) (s : State), ∃ t, exec (.powerOnReset pins) s = .next t ∧ t.straps = pins ∧
    (∀ (b : BankId) (k : Highway) (n : Slot), (t.bank b)[k][n] =
      if (pins.ma = k ∨ pins.mbe = true ∧ pins.mb ≠ pins.ma ∧ pins.mb = k) ∧
          (n.val = 63 ∨ pins.four = true ∧ 60 ≤ n.val) then
        { content := .mgmt 0, condOctet := 0xFF, condCode := 0 }
      else { content := .idle 0, condOctet := 0xFF, condCode := 0 }) ∧
    t.activeBank = .zero ∧ t.engine = .idle ∧
    t.timing = { frame := 0, stamp := 0, startPending := true } ∧
    (∀ k : Highway,
      (t.receiver k).align = .search [] ∧ (t.receiver k).persistence = 2 ∧ (t.receiver k).guardLength = 4 ∧
      (t.receiver k).receivedRA = false ∧ (t.receiver k).counters = zeroHighwayCounters ∧
      t.queue k = { frames := [], reading := none } ∧
      (t.output k).enabled = true ∧ (t.output k).idleOctet = 0xFF ∧ (t.output k).idleCode = 0 ∧
      (∀ n : Slot, t.slotState k n = { stable := none, candidate := none, watched := false } ∧
        (t.sup k).received[n] = none) ∧ (t.sup k).spoiled = false ∧ (t.sup k).lastEvaluation = none) ∧
    t.events.entries = [] ∧ t.events.losses = 0 ∧ t.events.batchNumber = 0 ∧ t.events.batch = none ∧
    t.events.mask = 0x122 ∧ t.events.interval = 32 ∧ t.events.holdTime = 32 ∧ t.events.timer = none ∧
    t.events.attn = false ∧
    (∀ p, t.port p =
      { framer := .hunt, commands := [], cache := [], transmit := [], counters := zeroPortCounters }) ∧
    t.lease = { holder := none, period := 125 } ∧
    t.capture = { phase := .idle, filling := [], ready := [], nextSequence := 0 }

/-- A cold reset takes effect after the frames of its output frame start: every block but the frames being sent has its
power-on state, with the straps sampled (R88, R146). -/
def Obligations.ColdResetTakesEffect : Prop :=
  ∀ (pins : Straps) (order : StartOrder) (s : State),
    (s.resetNext .a = some .cold ∨ s.resetNext .b = some .cold) →
    ∃ t, exec (.coldResetEffect pins order) s = .next t ∧
      t = { State.powerOn pins with outputs := t.outputs, draws := t.draws, pending := s.pending } ∧
      ∀ k : Highway, (t.output k).enabled = true ∧ (t.output k).idleOctet = 0xFF ∧ (t.output k).idleCode = 0 ∧
        ((s.output k).enabled = false → (t.output k).line = onesLine) ∧
        ((s.output k).enabled = true →
          (t.output k).line[0] = markerOctet (t.output k).raSent
            (if s.timing.startPending then s.timing.frame else s.timing.frame + 1))

/-- A warm reset at a start without other commands. The ports, the event list, the lease holder, the capture and the
counters are cleared. The settings, the map, the receivers, the queues, the supervisor and the timing are as the start
leaves them, and a sync goes on (R8, R39, R60, R74, R89, R105, R128, R149, R160, R172). A repeat slip and the last copy
of a sync may be taken before the reset or after it (R39, R74): taken after, they are in the fresh counters and the fresh
list, and may offer a NOTICE. -/
def Obligations.WarmResetClearsManagement : Prop :=
  ∀ (order : StartOrder) (p : PortId) (s : State), s.resetNext p = some .warm →
    s.resetNext (otherPort p) = none → (s.port (otherPort p)).commands = [] →
    (∀ q ∈ (s.port p).commands.head?, q.started = true) →
    ∃ t, exec (.warmResetEffect order) s = .next t ∧
      t.lease = { holder := none, period := s.lease.period } ∧ t.capture = initialCapture ∧
      (∀ q, (t.port q).framer = .hunt ∧ (t.port q).commands = [] ∧ (t.port q).cache = [] ∧
        (t.port q).counters = zeroPortCounters ∧
        ∀ x ∈ (t.port q).transmit, ∃ notice, x = .message notice none ∧ notice.take 4 = [0xB4, 0x08, 0x00, 0xC0]) ∧
      t.events.losses = 0 ∧ t.events.batchNumber = 0 ∧ t.events.batch = none ∧ t.events.mask = s.events.mask ∧
      t.events.interval = s.events.interval ∧ t.events.holdTime = s.events.holdTime ∧
      (∀ e ∈ t.events.entries, e.delivered = false ∧
        ((∃ k, s.repeats k = true ∧ e.body = .ordinary (.slip k) .repeated .repeated 1) ∨
          (∃ marks, s.engine = .syncing 7 marks) ∧ e.body = .ordinary .commit .syncDone .syncDone 1)) ∧
      ((∀ k, s.repeats k = false) → (∀ marks, s.engine ≠ .syncing 7 marks) →
        t.portA = initialPort ∧ t.portB = initialPort ∧
        t.events = { s.events with
          entries := [], losses := 0, batchNumber := 0, batch := none, timer := none, attn := false }) ∧
      (∀ k : Highway,
        (t.receiver k = { s.receiver k with counters := zeroHighwayCounters } ∨
          s.repeats k = true ∧
            t.receiver k = { s.receiver k with counters := { zeroHighwayCounters with repeatSlips := 1 } }) ∧
        (s.inService k = false ∨ (s.queue k).frames = [] → t.queue k = s.queue k) ∧
        (∀ f rest, s.inService k = true → (s.queue k).frames = f :: rest →
          t.queue k = { frames := rest, reading := some f }) ∧
        (t.output k).enabled = (s.output k).enabled ∧ (t.output k).idleOctet = (s.output k).idleOctet ∧
        (t.output k).idleCode = (s.output k).idleCode) ∧
      t.activeBank = s.nextActive ∧
      (s.engine.position = none → t.bank0 = s.bank0 ∧ t.bank1 = s.bank1 ∧
        t.engine = if s.swapsNext then .syncing 0 noMarks else s.engine) ∧
      (∀ pos marks, s.engine = .syncing pos marks →
        t.engine = (if pos = 7 then .idle else .syncing (pos + 1) marks) ∧
        ∀ (k : Highway) (n : Slot), t.activeEntry k n = s.activeEntry k n ∧
          t.standbyEntry k n = if k = pos ∧ marks[k][n] = false then s.activeEntry k n else s.standbyEntry k n) ∧
      t.sups = s.sups ∧ t.straps = s.straps ∧ t.pins = s.pins ∧
      t.timing =
        (if s.timing.startPending then { s.timing with startPending := false }
        else if s.timing.frame = 15 then { frame := 0, stamp := s.timing.stamp + 1, startPending := false }
        else { frame := s.timing.frame + 1, stamp := s.timing.stamp, startPending := false })

/-! ### The input highways -/

/-- The hunt takes the first eight bits that begin with 101, enters CONFIRM with count 0 and the number after the
candidate's, and begins its history with the candidate. Without one it hunts on (R43). Nothing else changes. -/
def Obligations.HuntTakesTheFirstCandidate : Prop :=
  ∀ (k : Highway) (history bits : List Bool) (s : State), (s.receiver k).align = .search history →
    (∀ pre x rest, history ++ bits = pre ++ (true :: false :: true :: x) ++ rest → x.length = 5 →
      (∀ pre' x' rest', history ++ bits = pre' ++ (true :: false :: true :: x') ++ rest' → x'.length = 5 →
        pre.length ≤ pre'.length) →
      exec (.huntCandidate k bits) s = .next (s.setReceiver k
        { s.receiver k with
          align := .confirm (markerNumber (octetOfBits (true :: false :: true :: x)) + 1) 0
            (true :: false :: true :: x)
          inFrame := true })) ∧
    ((∀ pre x rest, history ++ bits = pre ++ (true :: false :: true :: x) ++ rest → x.length ≠ 5) →
      ∃ kept, exec (.huntCandidate k bits) s = .next (s.setReceiver k
        { s.receiver k with align := .search kept, inFrame := false }) ∧
        kept <:+ history ++ bits ∧ kept.length = min 7 (history ++ bits).length)

/-- A marker position in service, in GUARD and in CONFIRM: what a good or a bad marker does to the state, the expected
number, the counters and the received RA (R41, R44, R46 to R48, R54). A bad marker in CONFIRM raises nothing, and the
hunt resumes at the bit after the first of the failed candidate: the first candidate among the bits of the history whose
own marker positions, as far as the history reaches, hold no bad marker is taken, with the count of those it has passed
and a history that begins with it (R45). That the whole history is examined in the step of the failed marker is the
model's choice (log 28), and so is that, without a candidate, SEARCH holds the last seven bits (log 7). In CONFIRM the
history is one of whole frames. -/
def Obligations.MarkersMoveTheReceiver : Prop :=
  ∀ (k : Highway) (o : Octet) (e : FrameNumber) (s : State), (s.receiver k).inFrame = false →
    (((s.receiver k).align = .aligned e ∨ ∃ n, (s.receiver k).align = .flywheel e n) → goodMarker o e = true →
      (markerRA o = (s.receiver k).receivedRA →
        exec (.markerPosition k o) s = .next (s.setReceiver k
          { s.receiver k with align := .aligned (e + 1), inFrame := true })) ∧
      (markerRA o ≠ (s.receiver k).receivedRA →
        exec (.markerPosition k o) s = .next ((s.setReceiver k
          { s.receiver k with align := .aligned (e + 1), inFrame := true, receivedRA := markerRA o }).raise
            (.remoteAlarm k) (.alarm (markerRA o))))) ∧
    ((s.receiver k).align = .aligned e → goodMarker o e = false →
      exec (.markerPosition k o) s = .next (s.setReceiver k
        { s.receiver k with
          align := .flywheel (e + 1) 1, inFrame := true
          counters :=
            { (s.receiver k).counters with markerErrors := saturate (s.receiver k).counters.markerErrors } })) ∧
    (∀ n, (s.receiver k).align = .flywheel e n → n < 3 → goodMarker o e = false →
      exec (.markerPosition k o) s = .next (s.setReceiver k
        { s.receiver k with
          align := .flywheel (e + 1) (n + 1), inFrame := true
          counters :=
            { (s.receiver k).counters with markerErrors := saturate (s.receiver k).counters.markerErrors } })) ∧
    (∀ n, (s.receiver k).align = .guard e n → goodMarker o e = true →
      exec (.markerPosition k o) s = .next (s.setReceiver k
        { s.receiver k with align := .guard (e + 1) n, inFrame := true })) ∧
    (∀ n, (s.receiver k).align = .guard e n → goodMarker o e = false →
      ∃ t, exec (.markerPosition k o) s = .next t ∧
        t.receiver k = { s.receiver k with align := .search [], inFrame := false } ∧
        t.queue k = { frames := [], reading := none } ∧ (t.sup k).received = emptyRecord ∧
        ∀ m : Slot, t.slotState k m = { s.slotState k m with candidate := none }) ∧
    (∀ n history, (s.receiver k).align = .confirm e n history → history.length % 536 = 0 → n < 2 →
      goodMarker o e = true →
      exec (.markerPosition k o) s = .next (s.setReceiver k
        { s.receiver k with align := .confirm (e + 1) (n + 1) (history ++ octetBits o), inFrame := true })) ∧
    ∀ n history bits, (s.receiver k).align = .confirm e n history → history.length % 536 = 0 →
      history.length ≤ 1608 → goodMarker o e = false → bits = (history ++ octetBits o).drop 1 →
      ∃ (t : State) (a : Align) (inFrame : Bool), exec (.markerPosition k o) s = .next t ∧
        t.receiver k = { s.receiver k with align := a, inFrame := inFrame } ∧
        (∀ pre tail, candidateAfter bits pre tail →
          (∀ pre' tail', candidateAfter bits pre' tail' → pre.length ≤ pre'.length) →
          a = .confirm (markerNumber (octetOfBits tail) + 1 + BitVec.ofNat 4 ((tail.length - 8) / 536))
            ((tail.length - 8) / 536) tail ∧ inFrame = decide (8 ≤ tail.length % 536)) ∧
        ((∀ pre tail, ¬candidateAfter bits pre tail) →
          a = .search (bits.drop (bits.length - 7)) ∧ inFrame = false) ∧
        t.queue k = { frames := [], reading := none } ∧ (t.sup k).received = emptyRecord ∧
        (∀ m : Slot, t.slotState k m = { s.slotState k m with candidate := none }) ∧
        ((∀ p, portOn s.straps k = some p → s.leaseHolder ≠ some p) →
          (∀ job captured stamp, s.capture.phase = .running job captured stamp →
            Source.onInput k job.source = false) → t.events = s.events)

/-- The third good marker of a confirmation: GUARD with guard count G, or with G = 0 service at once, with IN_SERVICE
raised and the marker's RA taken (R44, R52, R54). -/
def Obligations.ConfirmationEndsInGuardOrService : Prop :=
  ∀ (k : Highway) (o : Octet) (e : FrameNumber) (history : List Bool) (s : State), (s.receiver k).inFrame = false →
    (s.receiver k).align = .confirm e 2 history → history.length % 536 = 0 → goodMarker o e = true →
    ((s.receiver k).guardLength ≠ 0 →
      exec (.confirmationComplete k o) s = .next (s.setReceiver k
        { s.receiver k with align := .guard (e + 1) (s.receiver k).guardLength, inFrame := true })) ∧
    ((s.receiver k).guardLength = 0 → ∃ t, exec (.confirmationComplete k o) s = .next t ∧
      (s.setReceiver k
        { s.receiver k with align := .aligned (e + 1), inFrame := true, receivedRA := markerRA o }).sameButNews t ∧
      (s.events.admits (.alignState k) → t.events.reports (.alignState k) .inService) ∧
      (markerRA o ≠ (s.receiver k).receivedRA → s.events.roomy →
        t.events.reports (.remoteAlarm k) (.alarm (markerRA o))))

/-- The fourth consecutive bad marker: the counters, OUT_OF_SERVICE, and the effects of the entry into SEARCH on the
queue, the supervisor, the framer, the lease and a RUNNING capture (R48, R49, R155, R168). -/
def Obligations.AlignmentLossEntersSearch : Prop :=
  ∀ (k : Highway) (o : Octet) (e : FrameNumber) (s : State), (s.receiver k).inFrame = false →
    (s.receiver k).align = .flywheel e 3 → goodMarker o e = false → s.events.roomy →
    ∃ t, exec (.alignmentLoss k o) s = .next t ∧
      t.receiver k = { s.receiver k with
        align := .search [], inFrame := false
        counters := { (s.receiver k).counters with
          markerErrors := saturate (s.receiver k).counters.markerErrors
          alignmentLosses := saturate (s.receiver k).counters.alignmentLosses } } ∧
      t.events.reports (.alignState k) .outOfService ∧
      t.queue k = { frames := [], reading := none } ∧
      (∀ n : Slot, t.slotState k n = { s.slotState k n with candidate := none }) ∧
      (t.sup k).received = emptyRecord ∧ (t.sup k).spoiled = false ∧
      (t.sup k).lastEvaluation = (s.sup k).lastEvaluation ∧
      (∀ j, j ≠ k → t.receiver j = s.receiver j ∧ t.queue j = s.queue j ∧ t.sup j = s.sup j) ∧
      (∀ p, portOn s.straps k = some p → (t.port p).framer = .hunt ∧ (t.port p).commands = (s.port p).commands ∧
        (t.port p).cache = (s.port p).cache ∧
        (s.leaseHolder = some p → t.lease = { holder := none, period := s.lease.period } ∧
          t.events.reports (.lease p) .linkLost)) ∧
      ((∀ p, portOn s.straps k = some p → s.leaseHolder ≠ some p) → t.lease = s.lease) ∧
      (∀ job captured stamp, s.capture.phase = .running job captured stamp → Source.onInput k job.source = true →
        t.capture.phase = .ended .broken job captured stamp ∧ t.capture.filling = [] ∧
        t.events.reports .capture .broken) ∧
      (∀ job, s.capture.phase = .armed job → t.capture = s.capture) ∧
      t.bank0 = s.bank0 ∧ t.bank1 = s.bank1 ∧ t.activeBank = s.activeBank ∧ t.engine = s.engine ∧
      t.outputs = s.outputs ∧ t.timing = s.timing ∧ t.straps = s.straps

/-- The input multiframe completion that brings the guard count to 0 takes the highway into service with IN_SERVICE, and
the frame that ends the guard is not queued (R46, R51, R52, R62). An earlier one lowers the count. The frame completes no
message and no error at a port. -/
def Obligations.GuardEndsInService : Prop :=
  ∀ (k : Highway) (f : InFrame) (order : CompletionOrder) (n : Nat) (s : State), (s.receiver k).inFrame = true →
    (s.receiver k).align = .guard 0 n → s.framerQuiet k f →
    (n = 1 → ∃ t, exec (.guardEnd k f order) s = .next t ∧
      t.receiver k = { s.receiver k with align := .aligned 0, inFrame := false } ∧ t.queue k = s.queue k ∧
      (∀ j, j ≠ k → t.receiver j = s.receiver j ∧ t.queue j = s.queue j ∧ t.sup j = s.sup j) ∧
      (s.events.ordinaryCount + (s.sup k).watchedCount ≤ 58 → t.events.reports (.alignState k) .inService) ∧
      t.bank0 = s.bank0 ∧ t.bank1 = s.bank1 ∧ t.engine = s.engine ∧ t.outputs = s.outputs ∧ t.lease = s.lease) ∧
    (1 < n → ∃ t, exec (.inputFrameCompletion k f order) s = .next t ∧
      t.receiver k = { s.receiver k with align := .guard 0 (n - 1), inFrame := false } ∧ t.queue k = s.queue k)

/-- A frame that completes in service is appended to its queue, whose head is dropped with a drop slip when it holds
three. A frame that completes in CONFIRM or GUARD is not queued (R51, R62, R63). The port framer takes the management
octets in slot order (R132). A length or check error that they bring is counted and raises MGMT_ERROR (R133, R147), and a
good message that they complete is handed over: a command waits where no place is free (R137, R139), and a frame inside a
guard period, which brings nothing else about, does what GOOD_MESSAGE does. -/
def Obligations.CompletionQueuesTheFrame : Prop :=
  ∀ (k : Highway) (f : InFrame) (order : CompletionOrder) (s : State), (s.receiver k).inFrame = true →
    (s.inService k = true → ∃ t, exec (.inputFrameCompletion k f order) s = .next t ∧
      t.queue k = { s.queue k with
        frames := (if (s.queue k).frames.length < 3 then (s.queue k).frames else (s.queue k).frames.drop 1) ++
          [f.payload] } ∧
      (t.receiver k).inFrame = false ∧ (t.receiver k).align = (s.receiver k).align ∧
      (s.framerQuiet k f →
        (t.receiver k).counters =
          (if (s.queue k).frames.length < 3 then (s.receiver k).counters
          else { (s.receiver k).counters with dropSlips := saturate (s.receiver k).counters.dropSlips }) ∧
        (3 ≤ (s.queue k).frames.length → s.events.ordinaryCount + (s.sup k).watchedCount ≤ 58 →
          t.events.reports (.slip k) .drop) ∧
        (∀ j, j ≠ k → t.receiver j = s.receiver j ∧ t.queue j = s.queue j ∧ t.sup j = s.sup j) ∧
        t.bank0 = s.bank0 ∧ t.bank1 = s.bank1 ∧ t.engine = s.engine ∧ t.outputs = s.outputs ∧
        t.lease = s.lease ∧ t.timing = s.timing)) ∧
    (s.inService k = false → ∃ t, exec (.inputFrameCompletion k f order) s = .next t ∧ t.queue k = s.queue k) ∧
    ∀ (p : PortId) (after : Framer) (made : List FramerEvent), portOn s.straps k = some p →
      (s.receiver k).align.handsOver = true →
      (after, made) = Framer.takeAll (s.port p).framer (f.payload.toList.drop (if s.straps.four then 60 else 63)) →
      ((∀ x ∈ made, x = .none) → ∃ t, exec (.inputFrameCompletion k f order) s = .next t ∧
        (t.port p).framer = after ∧ (t.port p).commands = (s.port p).commands ∧
        (t.port p).cache = (s.port p).cache) ∧
      (∀ a b x, made = List.replicate a .none ++ x :: List.replicate b .none →
        (x = .lengthError ∨ x = .checkError) → s.events.attn = true → s.events.condition = true → s.events.roomy →
        (∀ m : Slot, (s.slotState k m).watched = false) → ∃ t, exec (.inputFrameCompletion k f order) s = .next t ∧
          t.port p =
            { s.port p with
              framer := after
              counters :=
                if x = .lengthError then
                  { (s.port p).counters with lengthErrors := saturate (s.port p).counters.lengthErrors }
                else { (s.port p).counters with checkErrors := saturate (s.port p).counters.checkErrors } } ∧
          t.events.reports (.mgmtError p) (if x = .lengthError then .length else .check)) ∧
      (∀ a b tag c, made = List.replicate a .none ++ .good (c.body tag) :: List.replicate b .none →
        (c.body tag).length ≤ 124 → (tag = 0 ∨ ∀ x ∈ (s.port p).cache, x.tag ≠ tag) →
        (s.port p).commands.length < 4 → 6 ≤ (s.port p).transmit.length →
        ∃ t, exec (.inputFrameCompletion k f order) s = .next t ∧ (t.port p).framer = after ∧
          (t.port p).commands = (s.port p).commands ++ [queuedCommand tag c] ∧
          (t.port p).cache = s.cacheWith p tag c .inProgress ∧ (t.port p).transmit = (s.port p).transmit) ∧
      ∀ a b body e n, made = List.replicate a .none ++ .good body :: List.replicate b .none → 2 ≤ body.length →
        body.length ≤ 124 → (s.receiver k).align = .guard e n → e ≠ 0 →
        ∃ t, exec (.goodMessage p body)
            (((s.setReceiver k { s.receiver k with inFrame := false }).setSup k
              ((s.sup k).collect (e - 1) f false)).setPort p { s.port p with framer := .hunt }) = .next t ∧
          exec (.inputFrameCompletion k f order) s = .next (t.setPort p { t.port p with framer := after })

/-- The evaluation of an input multiframe: with every code collected and no flywheel frame, each slot is filtered by the
table of R93 under the P of the moment. Otherwise no slot changes. The record is then emptied (R91 to R94). An acceptance
in a watched slot raises SIG_CHANGE with the new stable code, where the list has room, and nothing else of this frame
makes or touches an entry of a slot's SIG_CHANGE (R95, R103). The frame completes no message and no error at a
port. -/
def Obligations.EvaluationFiltersEverySlot : Prop :=
  ∀ (k : Highway) (f : InFrame) (order : CompletionOrder) (received : Vector (Option Code) 64) (s : State),
    (s.receiver k).inFrame = true → (s.receiver k).align.handsOver = true →
    (s.receiver k).align.expected = some 0 → s.framerQuiet k f →
    received = ((s.sup k).collect 15 f false).received →
    ∃ t, exec (.inputFrameCompletion k f order) s = .next t ∧ (t.sup k).received = emptyRecord ∧
      (t.sup k).spoiled = false ∧
      (∀ (n : Slot) (c : Code), (s.slotState k n).watched = true → (s.slotState k n).stable ≠ some c →
        (t.slotState k n).stable = some c → s.events.ordinaryCount + (s.sup k).watchedCount ≤ 58 →
        t.events.reports (.sigChange k n) (.code c)) ∧
      (∀ n : Slot, ((s.slotState k n).watched = false ∨ (t.slotState k n).stable = (s.slotState k n).stable) →
        ∀ e ∈ t.events.entries, e.hasKey (.sigChange k n) = true → e ∈ s.events.entries) ∧
      (((s.sup k).spoiled = true ∨ (∃ e n, (s.receiver k).align = .flywheel e n) ∨ ∃ n : Slot, received[n] = none) →
        (∀ n : Slot, t.slotState k n = s.slotState k n) ∧ (t.sup k).lastEvaluation = (s.sup k).lastEvaluation) ∧
      ((s.sup k).spoiled = false → (∀ e n, (s.receiver k).align ≠ .flywheel e n) → (∀ n : Slot, received[n] ≠ none) →
        (t.sup k).lastEvaluation = some s.timing.stamp ∧
        ∀ (n : Slot) (c : Code), received[n] = some c →
          (t.slotState k n).watched = (s.slotState k n).watched ∧
          ((s.slotState k n).stable = some c →
            (t.slotState k n).stable = some c ∧ (t.slotState k n).candidate = none) ∧
          (∀ d, (s.slotState k n).stable ≠ some c → (s.slotState k n).candidate = some d → d.code = c →
            if (s.receiver k).persistence ≤ d.count + 1 then
              (t.slotState k n).stable = some c ∧ (t.slotState k n).candidate = none
            else
              (t.slotState k n).stable = (s.slotState k n).stable ∧
              (t.slotState k n).candidate = some { code := c, count := d.count + 1 }) ∧
          ((s.slotState k n).stable ≠ some c → (∀ d, (s.slotState k n).candidate = some d → d.code ≠ c) →
            if (s.receiver k).persistence = 1 then
              (t.slotState k n).stable = some c ∧ (t.slotState k n).candidate = none
            else
              (t.slotState k n).stable = (s.slotState k n).stable ∧
              (t.slotState k n).candidate = some { code := c, count := 1 }))

/-! ### Invariants -/

/-- Every state after a power-on reset meets the invariants below. -/
def Obligations.PowerOnMeetsTheInvariants : Prop :=
  ∀ pins : Straps,
    (State.powerOn pins).mapOk ∧ (State.powerOn pins).queuesOk ∧ (State.powerOn pins).portsOk ∧
    (State.powerOn pins).eventsOk ∧ (State.powerOn pins).leaseOk ∧ (State.powerOn pins).captureOk ∧
    (State.powerOn pins).inputsOk

/-- Every step keeps the map as R6 confines it: protected entries hold their content, no other entry is MGMT, no SLOT
entry has a protected source, and no protected slot is dirty (R6, R31). -/
def Obligations.StepKeepsTheMap : Prop :=
  ∀ s t : State, s.mapOk → step s = .next t → t.mapOk

/-- Every step keeps the frame queues: at most three frames, and nothing while the highway is out of service (R61). -/
def Obligations.StepKeepsTheQueues : Prop :=
  ∀ s t : State, s.queuesOk → step s = .next t → t.queuesOk

/-- Every step keeps the limits of the ports: at most 4 commands, 6 transmit places and 8 cache entries, no two with one
tag and none with tag 0 (R135, R139), with every IN_PROGRESS entry awaited. With them it keeps what bounds the freed
places: a command waits only for want of a place, and every message behind the head is at least seven octets long, so
that at most one place is freed at a start (R143). -/
def Obligations.StepKeepsThePorts : Prop :=
  ∀ s t : State, s.portsOk → step s = .next t → t.portsOk

/-- Every step keeps the event list within its limits, the DELIVERED entries those of the outstanding batch, and the
attention condition up to date (R112 to R115, R122, R124). -/
def Obligations.StepKeepsTheEventList : Prop :=
  ∀ s t : State, s.eventsOk → step s = .next t → t.eventsOk

/-- Every step keeps the rule of the lease: it is held, if at all, by an enabled port whose input highway is not
DISABLED, SEARCH or CONFIRM (R129, R150). -/
def Obligations.StepKeepsTheLease : Prop :=
  ∀ s t : State, s.leaseOk → step s = .next t → t.leaseOk

/-- Every step keeps the four pools and the counts of the capture unit (R161). -/
def Obligations.StepKeepsTheCaptureUnit : Prop :=
  ∀ s t : State, s.captureOk → step s = .next t → t.captureOk

/-- Every step keeps the ranges of the receivers and of the supervisor, and holds no candidate and no collected code
while no frames are handed over (R42, R90, R94, R97). That a SEARCH holds at most seven bits is no range of R42 but the
model's choice: a history is examined whole in the step of the failed marker (log 28), and the hunt then keeps the bits
that the next octet can share (log 7). -/
def Obligations.StepKeepsTheInputs : Prop :=
  ∀ s t : State, s.inputsOk → step s = .next t → t.inputsOk

/-- A stable code changes only at an evaluated multiframe of its highway in which the received code of the slot equals
the new stable code, or becomes absent at a power-on or cold reset (R93). -/
def Obligations.StableCodesChangeByEvaluationAlone : Prop :=
  ∀ (c : Instr) (s t : State) (k : Highway) (n : Slot), exec c s = .next t →
    (t.slotState k n).stable ≠ (s.slotState k n).stable →
    (t.slotState k n).stable = none ∧
      ((∃ pins, c = .powerOnReset pins) ∨ s.resetNext .a = some .cold ∨ s.resetNext .b = some .cold) ∨
    ∃ (f : InFrame) (code : Code),
      ((∃ order, c = .inputFrameCompletion k f order) ∨ (∃ order, c = .guardEnd k f order) ∨
        ∃ completion start, c = .captureDone f completion start) ∧
      (s.receiver k).inFrame = true ∧ (s.receiver k).align.handsOver = true ∧
      (s.receiver k).align.expected = some 0 ∧ (s.sup k).spoiled = false ∧
      (∀ m : Slot, ((s.sup k).collect 15 f false).received[m] ≠ none) ∧
      ((s.sup k).collect 15 f false).received[n] = some code ∧ (t.slotState k n).stable = some code
end

