-- ==== Sys2Proof/Laws/State.lean ====
section
/-! SUPPORT. What each update of the state leaves in each field, and what each reading finds after it, so that no proof
unfolds a record update. -/

namespace Sys2Proof.Machine

variable (s : State)

@[simp] theorem setActiveBank_pins (b : BankId) :
    (s.setActiveBank b).pins = s.pins := rfl
@[simp] theorem setActiveBank_straps (b : BankId) :
    (s.setActiveBank b).straps = s.straps := rfl
@[simp] theorem setActiveBank_bank0 (b : BankId) :
    (s.setActiveBank b).bank0 = s.bank0 := rfl
@[simp] theorem setActiveBank_bank1 (b : BankId) :
    (s.setActiveBank b).bank1 = s.bank1 := rfl
@[simp] theorem setActiveBank_activeBank (b : BankId) :
    (s.setActiveBank b).activeBank = b := rfl
@[simp] theorem setActiveBank_engine (b : BankId) :
    (s.setActiveBank b).engine = s.engine := rfl
@[simp] theorem setActiveBank_receivers (b : BankId) :
    (s.setActiveBank b).receivers = s.receivers := rfl
@[simp] theorem setActiveBank_queues (b : BankId) :
    (s.setActiveBank b).queues = s.queues := rfl
@[simp] theorem setActiveBank_timing (b : BankId) :
    (s.setActiveBank b).timing = s.timing := rfl
@[simp] theorem setActiveBank_outputs (b : BankId) :
    (s.setActiveBank b).outputs = s.outputs := rfl
@[simp] theorem setActiveBank_sups (b : BankId) :
    (s.setActiveBank b).sups = s.sups := rfl
@[simp] theorem setActiveBank_events (b : BankId) :
    (s.setActiveBank b).events = s.events := rfl
@[simp] theorem setActiveBank_portA (b : BankId) :
    (s.setActiveBank b).portA = s.portA := rfl
@[simp] theorem setActiveBank_portB (b : BankId) :
    (s.setActiveBank b).portB = s.portB := rfl
@[simp] theorem setActiveBank_lease (b : BankId) :
    (s.setActiveBank b).lease = s.lease := rfl
@[simp] theorem setActiveBank_capture (b : BankId) :
    (s.setActiveBank b).capture = s.capture := rfl
@[simp] theorem setActiveBank_draws (b : BankId) :
    (s.setActiveBank b).draws = s.draws := rfl
@[simp] theorem setActiveBank_pending (b : BankId) :
    (s.setActiveBank b).pending = s.pending := rfl
@[simp] theorem setActiveBank_receiver (b : BankId) (j : Highway) :
    (s.setActiveBank b).receiver j = s.receiver j := rfl
@[simp] theorem setActiveBank_queue (b : BankId) (j : Highway) :
    (s.setActiveBank b).queue j = s.queue j := rfl
@[simp] theorem setActiveBank_output (b : BankId) (j : Highway) :
    (s.setActiveBank b).output j = s.output j := rfl
@[simp] theorem setActiveBank_sup (b : BankId) (j : Highway) :
    (s.setActiveBank b).sup j = s.sup j := rfl
@[simp] theorem setActiveBank_slotState (b : BankId) (j : Highway) (n : Slot) :
    (s.setActiveBank b).slotState j n = s.slotState j n := rfl
@[simp] theorem setActiveBank_inService (b : BankId) (j : Highway) :
    (s.setActiveBank b).inService j = s.inService j := rfl
@[simp] theorem setActiveBank_port (b : BankId) (q : PortId) :
    (s.setActiveBank b).port q = s.port q := by cases q <;> rfl
@[simp] theorem setActiveBank_bank (b : BankId) (x : BankId) :
    (s.setActiveBank b).bank x = s.bank x := by cases x <;> rfl
@[simp] theorem setActiveBank_portEnabled (b : BankId) (q : PortId) :
    (s.setActiveBank b).portEnabled q = s.portEnabled q := rfl
@[simp] theorem setActiveBank_portPair (b : BankId) (q : PortId) :
    (s.setActiveBank b).portPair q = s.portPair q := rfl
@[simp] theorem setActiveBank_isProtected (b : BankId) (j : Highway) (n : Slot) :
    (s.setActiveBank b).isProtected j n = s.isProtected j n := rfl
@[simp] theorem setActiveBank_isMgmtHighway (b : BankId) (j : Highway) :
    (s.setActiveBank b).isMgmtHighway j = s.isMgmtHighway j := rfl
@[simp] theorem setActiveBank_leaseHolder (b : BankId) :
    (s.setActiveBank b).leaseHolder = s.leaseHolder := rfl
@[simp] theorem setActiveBank_holdsLease (b : BankId) (q : PortId) :
    (s.setActiveBank b).holdsLease q = s.holdsLease q := rfl
@[simp] theorem setActiveBank_holderOctet (b : BankId) :
    (s.setActiveBank b).holderOctet = s.holderOctet := rfl

@[simp] theorem setEngine_pins (e : Engine) :
    (s.setEngine e).pins = s.pins := rfl
@[simp] theorem setEngine_straps (e : Engine) :
    (s.setEngine e).straps = s.straps := rfl
@[simp] theorem setEngine_bank0 (e : Engine) :
    (s.setEngine e).bank0 = s.bank0 := rfl
@[simp] theorem setEngine_bank1 (e : Engine) :
    (s.setEngine e).bank1 = s.bank1 := rfl
@[simp] theorem setEngine_activeBank (e : Engine) :
    (s.setEngine e).activeBank = s.activeBank := rfl
@[simp] theorem setEngine_engine (e : Engine) :
    (s.setEngine e).engine = e := rfl
@[simp] theorem setEngine_receivers (e : Engine) :
    (s.setEngine e).receivers = s.receivers := rfl
@[simp] theorem setEngine_queues (e : Engine) :
    (s.setEngine e).queues = s.queues := rfl
@[simp] theorem setEngine_timing (e : Engine) :
    (s.setEngine e).timing = s.timing := rfl
@[simp] theorem setEngine_outputs (e : Engine) :
    (s.setEngine e).outputs = s.outputs := rfl
@[simp] theorem setEngine_sups (e : Engine) :
    (s.setEngine e).sups = s.sups := rfl
@[simp] theorem setEngine_events (e : Engine) :
    (s.setEngine e).events = s.events := rfl
@[simp] theorem setEngine_portA (e : Engine) :
    (s.setEngine e).portA = s.portA := rfl
@[simp] theorem setEngine_portB (e : Engine) :
    (s.setEngine e).portB = s.portB := rfl
@[simp] theorem setEngine_lease (e : Engine) :
    (s.setEngine e).lease = s.lease := rfl
@[simp] theorem setEngine_capture (e : Engine) :
    (s.setEngine e).capture = s.capture := rfl
@[simp] theorem setEngine_draws (e : Engine) :
    (s.setEngine e).draws = s.draws := rfl
@[simp] theorem setEngine_pending (e : Engine) :
    (s.setEngine e).pending = s.pending := rfl
@[simp] theorem setEngine_receiver (e : Engine) (j : Highway) :
    (s.setEngine e).receiver j = s.receiver j := rfl
@[simp] theorem setEngine_queue (e : Engine) (j : Highway) :
    (s.setEngine e).queue j = s.queue j := rfl
@[simp] theorem setEngine_output (e : Engine) (j : Highway) :
    (s.setEngine e).output j = s.output j := rfl
@[simp] theorem setEngine_sup (e : Engine) (j : Highway) :
    (s.setEngine e).sup j = s.sup j := rfl
@[simp] theorem setEngine_slotState (e : Engine) (j : Highway) (n : Slot) :
    (s.setEngine e).slotState j n = s.slotState j n := rfl
@[simp] theorem setEngine_inService (e : Engine) (j : Highway) :
    (s.setEngine e).inService j = s.inService j := rfl
@[simp] theorem setEngine_port (e : Engine) (q : PortId) :
    (s.setEngine e).port q = s.port q := by cases q <;> rfl
@[simp] theorem setEngine_bank (e : Engine) (x : BankId) :
    (s.setEngine e).bank x = s.bank x := by cases x <;> rfl
@[simp] theorem setEngine_portEnabled (e : Engine) (q : PortId) :
    (s.setEngine e).portEnabled q = s.portEnabled q := rfl
@[simp] theorem setEngine_portPair (e : Engine) (q : PortId) :
    (s.setEngine e).portPair q = s.portPair q := rfl
@[simp] theorem setEngine_isProtected (e : Engine) (j : Highway) (n : Slot) :
    (s.setEngine e).isProtected j n = s.isProtected j n := rfl
@[simp] theorem setEngine_isMgmtHighway (e : Engine) (j : Highway) :
    (s.setEngine e).isMgmtHighway j = s.isMgmtHighway j := rfl
@[simp] theorem setEngine_leaseHolder (e : Engine) :
    (s.setEngine e).leaseHolder = s.leaseHolder := rfl
@[simp] theorem setEngine_holdsLease (e : Engine) (q : PortId) :
    (s.setEngine e).holdsLease q = s.holdsLease q := rfl
@[simp] theorem setEngine_holderOctet (e : Engine) :
    (s.setEngine e).holderOctet = s.holderOctet := rfl
@[simp] theorem setEngine_standbyBank (e : Engine) :
    (s.setEngine e).standbyBank = s.standbyBank := rfl

@[simp] theorem setReceiver_pins (k : Highway) (r : Receiver) :
    (s.setReceiver k r).pins = s.pins := rfl
@[simp] theorem setReceiver_straps (k : Highway) (r : Receiver) :
    (s.setReceiver k r).straps = s.straps := rfl
@[simp] theorem setReceiver_bank0 (k : Highway) (r : Receiver) :
    (s.setReceiver k r).bank0 = s.bank0 := rfl
@[simp] theorem setReceiver_bank1 (k : Highway) (r : Receiver) :
    (s.setReceiver k r).bank1 = s.bank1 := rfl
@[simp] theorem setReceiver_activeBank (k : Highway) (r : Receiver) :
    (s.setReceiver k r).activeBank = s.activeBank := rfl
@[simp] theorem setReceiver_engine (k : Highway) (r : Receiver) :
    (s.setReceiver k r).engine = s.engine := rfl
@[simp] theorem setReceiver_receivers (k : Highway) (r : Receiver) :
    (s.setReceiver k r).receivers = s.receivers.set k r := rfl
@[simp] theorem setReceiver_queues (k : Highway) (r : Receiver) :
    (s.setReceiver k r).queues = s.queues := rfl
@[simp] theorem setReceiver_timing (k : Highway) (r : Receiver) :
    (s.setReceiver k r).timing = s.timing := rfl
@[simp] theorem setReceiver_outputs (k : Highway) (r : Receiver) :
    (s.setReceiver k r).outputs = s.outputs := rfl
@[simp] theorem setReceiver_sups (k : Highway) (r : Receiver) :
    (s.setReceiver k r).sups = s.sups := rfl
@[simp] theorem setReceiver_events (k : Highway) (r : Receiver) :
    (s.setReceiver k r).events = s.events := rfl
@[simp] theorem setReceiver_portA (k : Highway) (r : Receiver) :
    (s.setReceiver k r).portA = s.portA := rfl
@[simp] theorem setReceiver_portB (k : Highway) (r : Receiver) :
    (s.setReceiver k r).portB = s.portB := rfl
@[simp] theorem setReceiver_lease (k : Highway) (r : Receiver) :
    (s.setReceiver k r).lease = s.lease := rfl
@[simp] theorem setReceiver_capture (k : Highway) (r : Receiver) :
    (s.setReceiver k r).capture = s.capture := rfl
@[simp] theorem setReceiver_draws (k : Highway) (r : Receiver) :
    (s.setReceiver k r).draws = s.draws := rfl
@[simp] theorem setReceiver_pending (k : Highway) (r : Receiver) :
    (s.setReceiver k r).pending = s.pending := rfl
@[simp] theorem setReceiver_queue (k : Highway) (r : Receiver) (j : Highway) :
    (s.setReceiver k r).queue j = s.queue j := rfl
@[simp] theorem setReceiver_output (k : Highway) (r : Receiver) (j : Highway) :
    (s.setReceiver k r).output j = s.output j := rfl
@[simp] theorem setReceiver_sup (k : Highway) (r : Receiver) (j : Highway) :
    (s.setReceiver k r).sup j = s.sup j := rfl
@[simp] theorem setReceiver_slotState (k : Highway) (r : Receiver) (j : Highway) (n : Slot) :
    (s.setReceiver k r).slotState j n = s.slotState j n := rfl
@[simp] theorem setReceiver_port (k : Highway) (r : Receiver) (q : PortId) :
    (s.setReceiver k r).port q = s.port q := by cases q <;> rfl
@[simp] theorem setReceiver_bank (k : Highway) (r : Receiver) (x : BankId) :
    (s.setReceiver k r).bank x = s.bank x := by cases x <;> rfl
@[simp] theorem setReceiver_portEnabled (k : Highway) (r : Receiver) (q : PortId) :
    (s.setReceiver k r).portEnabled q = s.portEnabled q := rfl
@[simp] theorem setReceiver_portPair (k : Highway) (r : Receiver) (q : PortId) :
    (s.setReceiver k r).portPair q = s.portPair q := rfl
@[simp] theorem setReceiver_isProtected (k : Highway) (r : Receiver) (j : Highway) (n : Slot) :
    (s.setReceiver k r).isProtected j n = s.isProtected j n := rfl
@[simp] theorem setReceiver_isMgmtHighway (k : Highway) (r : Receiver) (j : Highway) :
    (s.setReceiver k r).isMgmtHighway j = s.isMgmtHighway j := rfl
@[simp] theorem setReceiver_leaseHolder (k : Highway) (r : Receiver) :
    (s.setReceiver k r).leaseHolder = s.leaseHolder := rfl
@[simp] theorem setReceiver_holdsLease (k : Highway) (r : Receiver) (q : PortId) :
    (s.setReceiver k r).holdsLease q = s.holdsLease q := rfl
@[simp] theorem setReceiver_holderOctet (k : Highway) (r : Receiver) :
    (s.setReceiver k r).holderOctet = s.holderOctet := rfl
@[simp] theorem setReceiver_standbyBank (k : Highway) (r : Receiver) :
    (s.setReceiver k r).standbyBank = s.standbyBank := rfl

@[simp] theorem setQueue_pins (k : Highway) (y : FrameQueue) :
    (s.setQueue k y).pins = s.pins := rfl
@[simp] theorem setQueue_straps (k : Highway) (y : FrameQueue) :
    (s.setQueue k y).straps = s.straps := rfl
@[simp] theorem setQueue_bank0 (k : Highway) (y : FrameQueue) :
    (s.setQueue k y).bank0 = s.bank0 := rfl
@[simp] theorem setQueue_bank1 (k : Highway) (y : FrameQueue) :
    (s.setQueue k y).bank1 = s.bank1 := rfl
@[simp] theorem setQueue_activeBank (k : Highway) (y : FrameQueue) :
    (s.setQueue k y).activeBank = s.activeBank := rfl
@[simp] theorem setQueue_engine (k : Highway) (y : FrameQueue) :
    (s.setQueue k y).engine = s.engine := rfl
@[simp] theorem setQueue_receivers (k : Highway) (y : FrameQueue) :
    (s.setQueue k y).receivers = s.receivers := rfl
@[simp] theorem setQueue_queues (k : Highway) (y : FrameQueue) :
    (s.setQueue k y).queues = s.queues.set k y := rfl
@[simp] theorem setQueue_timing (k : Highway) (y : FrameQueue) :
    (s.setQueue k y).timing = s.timing := rfl
@[simp] theorem setQueue_outputs (k : Highway) (y : FrameQueue) :
    (s.setQueue k y).outputs = s.outputs := rfl
@[simp] theorem setQueue_sups (k : Highway) (y : FrameQueue) :
    (s.setQueue k y).sups = s.sups := rfl
@[simp] theorem setQueue_events (k : Highway) (y : FrameQueue) :
    (s.setQueue k y).events = s.events := rfl
@[simp] theorem setQueue_portA (k : Highway) (y : FrameQueue) :
    (s.setQueue k y).portA = s.portA := rfl
@[simp] theorem setQueue_portB (k : Highway) (y : FrameQueue) :
    (s.setQueue k y).portB = s.portB := rfl
@[simp] theorem setQueue_lease (k : Highway) (y : FrameQueue) :
    (s.setQueue k y).lease = s.lease := rfl
@[simp] theorem setQueue_capture (k : Highway) (y : FrameQueue) :
    (s.setQueue k y).capture = s.capture := rfl
@[simp] theorem setQueue_draws (k : Highway) (y : FrameQueue) :
    (s.setQueue k y).draws = s.draws := rfl
@[simp] theorem setQueue_pending (k : Highway) (y : FrameQueue) :
    (s.setQueue k y).pending = s.pending := rfl
@[simp] theorem setQueue_receiver (k : Highway) (y : FrameQueue) (j : Highway) :
    (s.setQueue k y).receiver j = s.receiver j := rfl
@[simp] theorem setQueue_output (k : Highway) (y : FrameQueue) (j : Highway) :
    (s.setQueue k y).output j = s.output j := rfl
@[simp] theorem setQueue_sup (k : Highway) (y : FrameQueue) (j : Highway) :
    (s.setQueue k y).sup j = s.sup j := rfl
@[simp] theorem setQueue_slotState (k : Highway) (y : FrameQueue) (j : Highway) (n : Slot) :
    (s.setQueue k y).slotState j n = s.slotState j n := rfl
@[simp] theorem setQueue_inService (k : Highway) (y : FrameQueue) (j : Highway) :
    (s.setQueue k y).inService j = s.inService j := rfl
@[simp] theorem setQueue_port (k : Highway) (y : FrameQueue) (q : PortId) :
    (s.setQueue k y).port q = s.port q := by cases q <;> rfl
@[simp] theorem setQueue_bank (k : Highway) (y : FrameQueue) (x : BankId) :
    (s.setQueue k y).bank x = s.bank x := by cases x <;> rfl
@[simp] theorem setQueue_portEnabled (k : Highway) (y : FrameQueue) (q : PortId) :
    (s.setQueue k y).portEnabled q = s.portEnabled q := rfl
@[simp] theorem setQueue_portPair (k : Highway) (y : FrameQueue) (q : PortId) :
    (s.setQueue k y).portPair q = s.portPair q := rfl
@[simp] theorem setQueue_isProtected (k : Highway) (y : FrameQueue) (j : Highway) (n : Slot) :
    (s.setQueue k y).isProtected j n = s.isProtected j n := rfl
@[simp] theorem setQueue_isMgmtHighway (k : Highway) (y : FrameQueue) (j : Highway) :
    (s.setQueue k y).isMgmtHighway j = s.isMgmtHighway j := rfl
@[simp] theorem setQueue_leaseHolder (k : Highway) (y : FrameQueue) :
    (s.setQueue k y).leaseHolder = s.leaseHolder := rfl
@[simp] theorem setQueue_holdsLease (k : Highway) (y : FrameQueue) (q : PortId) :
    (s.setQueue k y).holdsLease q = s.holdsLease q := rfl
@[simp] theorem setQueue_holderOctet (k : Highway) (y : FrameQueue) :
    (s.setQueue k y).holderOctet = s.holderOctet := rfl
@[simp] theorem setQueue_standbyBank (k : Highway) (y : FrameQueue) :
    (s.setQueue k y).standbyBank = s.standbyBank := rfl

@[simp] theorem setQueues_pins (y : Vector FrameQueue 8) :
    (s.setQueues y).pins = s.pins := rfl
@[simp] theorem setQueues_straps (y : Vector FrameQueue 8) :
    (s.setQueues y).straps = s.straps := rfl
@[simp] theorem setQueues_bank0 (y : Vector FrameQueue 8) :
    (s.setQueues y).bank0 = s.bank0 := rfl
@[simp] theorem setQueues_bank1 (y : Vector FrameQueue 8) :
    (s.setQueues y).bank1 = s.bank1 := rfl
@[simp] theorem setQueues_activeBank (y : Vector FrameQueue 8) :
    (s.setQueues y).activeBank = s.activeBank := rfl
@[simp] theorem setQueues_engine (y : Vector FrameQueue 8) :
    (s.setQueues y).engine = s.engine := rfl
@[simp] theorem setQueues_receivers (y : Vector FrameQueue 8) :
    (s.setQueues y).receivers = s.receivers := rfl
@[simp] theorem setQueues_queues (y : Vector FrameQueue 8) :
    (s.setQueues y).queues = y := rfl
@[simp] theorem setQueues_timing (y : Vector FrameQueue 8) :
    (s.setQueues y).timing = s.timing := rfl
@[simp] theorem setQueues_outputs (y : Vector FrameQueue 8) :
    (s.setQueues y).outputs = s.outputs := rfl
@[simp] theorem setQueues_sups (y : Vector FrameQueue 8) :
    (s.setQueues y).sups = s.sups := rfl
@[simp] theorem setQueues_events (y : Vector FrameQueue 8) :
    (s.setQueues y).events = s.events := rfl
@[simp] theorem setQueues_portA (y : Vector FrameQueue 8) :
    (s.setQueues y).portA = s.portA := rfl
@[simp] theorem setQueues_portB (y : Vector FrameQueue 8) :
    (s.setQueues y).portB = s.portB := rfl
@[simp] theorem setQueues_lease (y : Vector FrameQueue 8) :
    (s.setQueues y).lease = s.lease := rfl
@[simp] theorem setQueues_capture (y : Vector FrameQueue 8) :
    (s.setQueues y).capture = s.capture := rfl
@[simp] theorem setQueues_draws (y : Vector FrameQueue 8) :
    (s.setQueues y).draws = s.draws := rfl
@[simp] theorem setQueues_pending (y : Vector FrameQueue 8) :
    (s.setQueues y).pending = s.pending := rfl
@[simp] theorem setQueues_receiver (y : Vector FrameQueue 8) (j : Highway) :
    (s.setQueues y).receiver j = s.receiver j := rfl
@[simp] theorem setQueues_output (y : Vector FrameQueue 8) (j : Highway) :
    (s.setQueues y).output j = s.output j := rfl
@[simp] theorem setQueues_sup (y : Vector FrameQueue 8) (j : Highway) :
    (s.setQueues y).sup j = s.sup j := rfl
@[simp] theorem setQueues_slotState (y : Vector FrameQueue 8) (j : Highway) (n : Slot) :
    (s.setQueues y).slotState j n = s.slotState j n := rfl
@[simp] theorem setQueues_inService (y : Vector FrameQueue 8) (j : Highway) :
    (s.setQueues y).inService j = s.inService j := rfl
@[simp] theorem setQueues_port (y : Vector FrameQueue 8) (q : PortId) :
    (s.setQueues y).port q = s.port q := by cases q <;> rfl
@[simp] theorem setQueues_bank (y : Vector FrameQueue 8) (x : BankId) :
    (s.setQueues y).bank x = s.bank x := by cases x <;> rfl
@[simp] theorem setQueues_portEnabled (y : Vector FrameQueue 8) (q : PortId) :
    (s.setQueues y).portEnabled q = s.portEnabled q := rfl
@[simp] theorem setQueues_portPair (y : Vector FrameQueue 8) (q : PortId) :
    (s.setQueues y).portPair q = s.portPair q := rfl
@[simp] theorem setQueues_isProtected (y : Vector FrameQueue 8) (j : Highway) (n : Slot) :
    (s.setQueues y).isProtected j n = s.isProtected j n := rfl
@[simp] theorem setQueues_isMgmtHighway (y : Vector FrameQueue 8) (j : Highway) :
    (s.setQueues y).isMgmtHighway j = s.isMgmtHighway j := rfl
@[simp] theorem setQueues_leaseHolder (y : Vector FrameQueue 8) :
    (s.setQueues y).leaseHolder = s.leaseHolder := rfl
@[simp] theorem setQueues_holdsLease (y : Vector FrameQueue 8) (q : PortId) :
    (s.setQueues y).holdsLease q = s.holdsLease q := rfl
@[simp] theorem setQueues_holderOctet (y : Vector FrameQueue 8) :
    (s.setQueues y).holderOctet = s.holderOctet := rfl
@[simp] theorem setQueues_standbyBank (y : Vector FrameQueue 8) :
    (s.setQueues y).standbyBank = s.standbyBank := rfl

@[simp] theorem setTiming_pins (t : Timing) :
    (s.setTiming t).pins = s.pins := rfl
@[simp] theorem setTiming_straps (t : Timing) :
    (s.setTiming t).straps = s.straps := rfl
@[simp] theorem setTiming_bank0 (t : Timing) :
    (s.setTiming t).bank0 = s.bank0 := rfl
@[simp] theorem setTiming_bank1 (t : Timing) :
    (s.setTiming t).bank1 = s.bank1 := rfl
@[simp] theorem setTiming_activeBank (t : Timing) :
    (s.setTiming t).activeBank = s.activeBank := rfl
@[simp] theorem setTiming_engine (t : Timing) :
    (s.setTiming t).engine = s.engine := rfl
@[simp] theorem setTiming_receivers (t : Timing) :
    (s.setTiming t).receivers = s.receivers := rfl
@[simp] theorem setTiming_queues (t : Timing) :
    (s.setTiming t).queues = s.queues := rfl
@[simp] theorem setTiming_timing (t : Timing) :
    (s.setTiming t).timing = t := rfl
@[simp] theorem setTiming_outputs (t : Timing) :
    (s.setTiming t).outputs = s.outputs := rfl
@[simp] theorem setTiming_sups (t : Timing) :
    (s.setTiming t).sups = s.sups := rfl
@[simp] theorem setTiming_events (t : Timing) :
    (s.setTiming t).events = s.events := rfl
@[simp] theorem setTiming_portA (t : Timing) :
    (s.setTiming t).portA = s.portA := rfl
@[simp] theorem setTiming_portB (t : Timing) :
    (s.setTiming t).portB = s.portB := rfl
@[simp] theorem setTiming_lease (t : Timing) :
    (s.setTiming t).lease = s.lease := rfl
@[simp] theorem setTiming_capture (t : Timing) :
    (s.setTiming t).capture = s.capture := rfl
@[simp] theorem setTiming_draws (t : Timing) :
    (s.setTiming t).draws = s.draws := rfl
@[simp] theorem setTiming_pending (t : Timing) :
    (s.setTiming t).pending = s.pending := rfl
@[simp] theorem setTiming_receiver (t : Timing) (j : Highway) :
    (s.setTiming t).receiver j = s.receiver j := rfl
@[simp] theorem setTiming_queue (t : Timing) (j : Highway) :
    (s.setTiming t).queue j = s.queue j := rfl
@[simp] theorem setTiming_output (t : Timing) (j : Highway) :
    (s.setTiming t).output j = s.output j := rfl
@[simp] theorem setTiming_sup (t : Timing) (j : Highway) :
    (s.setTiming t).sup j = s.sup j := rfl
@[simp] theorem setTiming_slotState (t : Timing) (j : Highway) (n : Slot) :
    (s.setTiming t).slotState j n = s.slotState j n := rfl
@[simp] theorem setTiming_inService (t : Timing) (j : Highway) :
    (s.setTiming t).inService j = s.inService j := rfl
@[simp] theorem setTiming_port (t : Timing) (q : PortId) :
    (s.setTiming t).port q = s.port q := by cases q <;> rfl
@[simp] theorem setTiming_bank (t : Timing) (x : BankId) :
    (s.setTiming t).bank x = s.bank x := by cases x <;> rfl
@[simp] theorem setTiming_portEnabled (t : Timing) (q : PortId) :
    (s.setTiming t).portEnabled q = s.portEnabled q := rfl
@[simp] theorem setTiming_portPair (t : Timing) (q : PortId) :
    (s.setTiming t).portPair q = s.portPair q := rfl
@[simp] theorem setTiming_isProtected (t : Timing) (j : Highway) (n : Slot) :
    (s.setTiming t).isProtected j n = s.isProtected j n := rfl
@[simp] theorem setTiming_isMgmtHighway (t : Timing) (j : Highway) :
    (s.setTiming t).isMgmtHighway j = s.isMgmtHighway j := rfl
@[simp] theorem setTiming_leaseHolder (t : Timing) :
    (s.setTiming t).leaseHolder = s.leaseHolder := rfl
@[simp] theorem setTiming_holdsLease (t : Timing) (q : PortId) :
    (s.setTiming t).holdsLease q = s.holdsLease q := rfl
@[simp] theorem setTiming_holderOctet (t : Timing) :
    (s.setTiming t).holderOctet = s.holderOctet := rfl
@[simp] theorem setTiming_standbyBank (t : Timing) :
    (s.setTiming t).standbyBank = s.standbyBank := rfl

@[simp] theorem setOutput_pins (k : Highway) (o : Output) :
    (s.setOutput k o).pins = s.pins := rfl
@[simp] theorem setOutput_straps (k : Highway) (o : Output) :
    (s.setOutput k o).straps = s.straps := rfl
@[simp] theorem setOutput_bank0 (k : Highway) (o : Output) :
    (s.setOutput k o).bank0 = s.bank0 := rfl
@[simp] theorem setOutput_bank1 (k : Highway) (o : Output) :
    (s.setOutput k o).bank1 = s.bank1 := rfl
@[simp] theorem setOutput_activeBank (k : Highway) (o : Output) :
    (s.setOutput k o).activeBank = s.activeBank := rfl
@[simp] theorem setOutput_engine (k : Highway) (o : Output) :
    (s.setOutput k o).engine = s.engine := rfl
@[simp] theorem setOutput_receivers (k : Highway) (o : Output) :
    (s.setOutput k o).receivers = s.receivers := rfl
@[simp] theorem setOutput_queues (k : Highway) (o : Output) :
    (s.setOutput k o).queues = s.queues := rfl
@[simp] theorem setOutput_timing (k : Highway) (o : Output) :
    (s.setOutput k o).timing = s.timing := rfl
@[simp] theorem setOutput_outputs (k : Highway) (o : Output) :
    (s.setOutput k o).outputs = s.outputs.set k o := rfl
@[simp] theorem setOutput_sups (k : Highway) (o : Output) :
    (s.setOutput k o).sups = s.sups := rfl
@[simp] theorem setOutput_events (k : Highway) (o : Output) :
    (s.setOutput k o).events = s.events := rfl
@[simp] theorem setOutput_portA (k : Highway) (o : Output) :
    (s.setOutput k o).portA = s.portA := rfl
@[simp] theorem setOutput_portB (k : Highway) (o : Output) :
    (s.setOutput k o).portB = s.portB := rfl
@[simp] theorem setOutput_lease (k : Highway) (o : Output) :
    (s.setOutput k o).lease = s.lease := rfl
@[simp] theorem setOutput_capture (k : Highway) (o : Output) :
    (s.setOutput k o).capture = s.capture := rfl
@[simp] theorem setOutput_draws (k : Highway) (o : Output) :
    (s.setOutput k o).draws = s.draws := rfl
@[simp] theorem setOutput_pending (k : Highway) (o : Output) :
    (s.setOutput k o).pending = s.pending := rfl
@[simp] theorem setOutput_receiver (k : Highway) (o : Output) (j : Highway) :
    (s.setOutput k o).receiver j = s.receiver j := rfl
@[simp] theorem setOutput_queue (k : Highway) (o : Output) (j : Highway) :
    (s.setOutput k o).queue j = s.queue j := rfl
@[simp] theorem setOutput_sup (k : Highway) (o : Output) (j : Highway) :
    (s.setOutput k o).sup j = s.sup j := rfl
@[simp] theorem setOutput_slotState (k : Highway) (o : Output) (j : Highway) (n : Slot) :
    (s.setOutput k o).slotState j n = s.slotState j n := rfl
@[simp] theorem setOutput_inService (k : Highway) (o : Output) (j : Highway) :
    (s.setOutput k o).inService j = s.inService j := rfl
@[simp] theorem setOutput_port (k : Highway) (o : Output) (q : PortId) :
    (s.setOutput k o).port q = s.port q := by cases q <;> rfl
@[simp] theorem setOutput_bank (k : Highway) (o : Output) (x : BankId) :
    (s.setOutput k o).bank x = s.bank x := by cases x <;> rfl
@[simp] theorem setOutput_portEnabled (k : Highway) (o : Output) (q : PortId) :
    (s.setOutput k o).portEnabled q = s.portEnabled q := rfl
@[simp] theorem setOutput_portPair (k : Highway) (o : Output) (q : PortId) :
    (s.setOutput k o).portPair q = s.portPair q := rfl
@[simp] theorem setOutput_isProtected (k : Highway) (o : Output) (j : Highway) (n : Slot) :
    (s.setOutput k o).isProtected j n = s.isProtected j n := rfl
@[simp] theorem setOutput_isMgmtHighway (k : Highway) (o : Output) (j : Highway) :
    (s.setOutput k o).isMgmtHighway j = s.isMgmtHighway j := rfl
@[simp] theorem setOutput_leaseHolder (k : Highway) (o : Output) :
    (s.setOutput k o).leaseHolder = s.leaseHolder := rfl
@[simp] theorem setOutput_holdsLease (k : Highway) (o : Output) (q : PortId) :
    (s.setOutput k o).holdsLease q = s.holdsLease q := rfl
@[simp] theorem setOutput_holderOctet (k : Highway) (o : Output) :
    (s.setOutput k o).holderOctet = s.holderOctet := rfl
@[simp] theorem setOutput_standbyBank (k : Highway) (o : Output) :
    (s.setOutput k o).standbyBank = s.standbyBank := rfl

@[simp] theorem setOutputs_pins (o : Vector Output 8) :
    (s.setOutputs o).pins = s.pins := rfl
@[simp] theorem setOutputs_straps (o : Vector Output 8) :
    (s.setOutputs o).straps = s.straps := rfl
@[simp] theorem setOutputs_bank0 (o : Vector Output 8) :
    (s.setOutputs o).bank0 = s.bank0 := rfl
@[simp] theorem setOutputs_bank1 (o : Vector Output 8) :
    (s.setOutputs o).bank1 = s.bank1 := rfl
@[simp] theorem setOutputs_activeBank (o : Vector Output 8) :
    (s.setOutputs o).activeBank = s.activeBank := rfl
@[simp] theorem setOutputs_engine (o : Vector Output 8) :
    (s.setOutputs o).engine = s.engine := rfl
@[simp] theorem setOutputs_receivers (o : Vector Output 8) :
    (s.setOutputs o).receivers = s.receivers := rfl
@[simp] theorem setOutputs_queues (o : Vector Output 8) :
    (s.setOutputs o).queues = s.queues := rfl
@[simp] theorem setOutputs_timing (o : Vector Output 8) :
    (s.setOutputs o).timing = s.timing := rfl
@[simp] theorem setOutputs_outputs (o : Vector Output 8) :
    (s.setOutputs o).outputs = o := rfl
@[simp] theorem setOutputs_sups (o : Vector Output 8) :
    (s.setOutputs o).sups = s.sups := rfl
@[simp] theorem setOutputs_events (o : Vector Output 8) :
    (s.setOutputs o).events = s.events := rfl
@[simp] theorem setOutputs_portA (o : Vector Output 8) :
    (s.setOutputs o).portA = s.portA := rfl
@[simp] theorem setOutputs_portB (o : Vector Output 8) :
    (s.setOutputs o).portB = s.portB := rfl
@[simp] theorem setOutputs_lease (o : Vector Output 8) :
    (s.setOutputs o).lease = s.lease := rfl
@[simp] theorem setOutputs_capture (o : Vector Output 8) :
    (s.setOutputs o).capture = s.capture := rfl
@[simp] theorem setOutputs_draws (o : Vector Output 8) :
    (s.setOutputs o).draws = s.draws := rfl
@[simp] theorem setOutputs_pending (o : Vector Output 8) :
    (s.setOutputs o).pending = s.pending := rfl
@[simp] theorem setOutputs_receiver (o : Vector Output 8) (j : Highway) :
    (s.setOutputs o).receiver j = s.receiver j := rfl
@[simp] theorem setOutputs_queue (o : Vector Output 8) (j : Highway) :
    (s.setOutputs o).queue j = s.queue j := rfl
@[simp] theorem setOutputs_sup (o : Vector Output 8) (j : Highway) :
    (s.setOutputs o).sup j = s.sup j := rfl
@[simp] theorem setOutputs_slotState (o : Vector Output 8) (j : Highway) (n : Slot) :
    (s.setOutputs o).slotState j n = s.slotState j n := rfl
@[simp] theorem setOutputs_inService (o : Vector Output 8) (j : Highway) :
    (s.setOutputs o).inService j = s.inService j := rfl
@[simp] theorem setOutputs_port (o : Vector Output 8) (q : PortId) :
    (s.setOutputs o).port q = s.port q := by cases q <;> rfl
@[simp] theorem setOutputs_bank (o : Vector Output 8) (x : BankId) :
    (s.setOutputs o).bank x = s.bank x := by cases x <;> rfl
@[simp] theorem setOutputs_portEnabled (o : Vector Output 8) (q : PortId) :
    (s.setOutputs o).portEnabled q = s.portEnabled q := rfl
@[simp] theorem setOutputs_portPair (o : Vector Output 8) (q : PortId) :
    (s.setOutputs o).portPair q = s.portPair q := rfl
@[simp] theorem setOutputs_isProtected (o : Vector Output 8) (j : Highway) (n : Slot) :
    (s.setOutputs o).isProtected j n = s.isProtected j n := rfl
@[simp] theorem setOutputs_isMgmtHighway (o : Vector Output 8) (j : Highway) :
    (s.setOutputs o).isMgmtHighway j = s.isMgmtHighway j := rfl
@[simp] theorem setOutputs_leaseHolder (o : Vector Output 8) :
    (s.setOutputs o).leaseHolder = s.leaseHolder := rfl
@[simp] theorem setOutputs_holdsLease (o : Vector Output 8) (q : PortId) :
    (s.setOutputs o).holdsLease q = s.holdsLease q := rfl
@[simp] theorem setOutputs_holderOctet (o : Vector Output 8) :
    (s.setOutputs o).holderOctet = s.holderOctet := rfl
@[simp] theorem setOutputs_standbyBank (o : Vector Output 8) :
    (s.setOutputs o).standbyBank = s.standbyBank := rfl

@[simp] theorem setSup_pins (k : Highway) (z : Supervisor) :
    (s.setSup k z).pins = s.pins := rfl
@[simp] theorem setSup_straps (k : Highway) (z : Supervisor) :
    (s.setSup k z).straps = s.straps := rfl
@[simp] theorem setSup_bank0 (k : Highway) (z : Supervisor) :
    (s.setSup k z).bank0 = s.bank0 := rfl
@[simp] theorem setSup_bank1 (k : Highway) (z : Supervisor) :
    (s.setSup k z).bank1 = s.bank1 := rfl
@[simp] theorem setSup_activeBank (k : Highway) (z : Supervisor) :
    (s.setSup k z).activeBank = s.activeBank := rfl
@[simp] theorem setSup_engine (k : Highway) (z : Supervisor) :
    (s.setSup k z).engine = s.engine := rfl
@[simp] theorem setSup_receivers (k : Highway) (z : Supervisor) :
    (s.setSup k z).receivers = s.receivers := rfl
@[simp] theorem setSup_queues (k : Highway) (z : Supervisor) :
    (s.setSup k z).queues = s.queues := rfl
@[simp] theorem setSup_timing (k : Highway) (z : Supervisor) :
    (s.setSup k z).timing = s.timing := rfl
@[simp] theorem setSup_outputs (k : Highway) (z : Supervisor) :
    (s.setSup k z).outputs = s.outputs := rfl
@[simp] theorem setSup_sups (k : Highway) (z : Supervisor) :
    (s.setSup k z).sups = s.sups.set k z := rfl
@[simp] theorem setSup_events (k : Highway) (z : Supervisor) :
    (s.setSup k z).events = s.events := rfl
@[simp] theorem setSup_portA (k : Highway) (z : Supervisor) :
    (s.setSup k z).portA = s.portA := rfl
@[simp] theorem setSup_portB (k : Highway) (z : Supervisor) :
    (s.setSup k z).portB = s.portB := rfl
@[simp] theorem setSup_lease (k : Highway) (z : Supervisor) :
    (s.setSup k z).lease = s.lease := rfl
@[simp] theorem setSup_capture (k : Highway) (z : Supervisor) :
    (s.setSup k z).capture = s.capture := rfl
@[simp] theorem setSup_draws (k : Highway) (z : Supervisor) :
    (s.setSup k z).draws = s.draws := rfl
@[simp] theorem setSup_pending (k : Highway) (z : Supervisor) :
    (s.setSup k z).pending = s.pending := rfl
@[simp] theorem setSup_receiver (k : Highway) (z : Supervisor) (j : Highway) :
    (s.setSup k z).receiver j = s.receiver j := rfl
@[simp] theorem setSup_queue (k : Highway) (z : Supervisor) (j : Highway) :
    (s.setSup k z).queue j = s.queue j := rfl
@[simp] theorem setSup_output (k : Highway) (z : Supervisor) (j : Highway) :
    (s.setSup k z).output j = s.output j := rfl
@[simp] theorem setSup_inService (k : Highway) (z : Supervisor) (j : Highway) :
    (s.setSup k z).inService j = s.inService j := rfl
@[simp] theorem setSup_port (k : Highway) (z : Supervisor) (q : PortId) :
    (s.setSup k z).port q = s.port q := by cases q <;> rfl
@[simp] theorem setSup_bank (k : Highway) (z : Supervisor) (x : BankId) :
    (s.setSup k z).bank x = s.bank x := by cases x <;> rfl
@[simp] theorem setSup_portEnabled (k : Highway) (z : Supervisor) (q : PortId) :
    (s.setSup k z).portEnabled q = s.portEnabled q := rfl
@[simp] theorem setSup_portPair (k : Highway) (z : Supervisor) (q : PortId) :
    (s.setSup k z).portPair q = s.portPair q := rfl
@[simp] theorem setSup_isProtected (k : Highway) (z : Supervisor) (j : Highway) (n : Slot) :
    (s.setSup k z).isProtected j n = s.isProtected j n := rfl
@[simp] theorem setSup_isMgmtHighway (k : Highway) (z : Supervisor) (j : Highway) :
    (s.setSup k z).isMgmtHighway j = s.isMgmtHighway j := rfl
@[simp] theorem setSup_leaseHolder (k : Highway) (z : Supervisor) :
    (s.setSup k z).leaseHolder = s.leaseHolder := rfl
@[simp] theorem setSup_holdsLease (k : Highway) (z : Supervisor) (q : PortId) :
    (s.setSup k z).holdsLease q = s.holdsLease q := rfl
@[simp] theorem setSup_holderOctet (k : Highway) (z : Supervisor) :
    (s.setSup k z).holderOctet = s.holderOctet := rfl
@[simp] theorem setSup_standbyBank (k : Highway) (z : Supervisor) :
    (s.setSup k z).standbyBank = s.standbyBank := rfl

@[simp] theorem setEvents_pins (e : EventList) :
    (s.setEvents e).pins = s.pins := rfl
@[simp] theorem setEvents_straps (e : EventList) :
    (s.setEvents e).straps = s.straps := rfl
@[simp] theorem setEvents_bank0 (e : EventList) :
    (s.setEvents e).bank0 = s.bank0 := rfl
@[simp] theorem setEvents_bank1 (e : EventList) :
    (s.setEvents e).bank1 = s.bank1 := rfl
@[simp] theorem setEvents_activeBank (e : EventList) :
    (s.setEvents e).activeBank = s.activeBank := rfl
@[simp] theorem setEvents_engine (e : EventList) :
    (s.setEvents e).engine = s.engine := rfl
@[simp] theorem setEvents_receivers (e : EventList) :
    (s.setEvents e).receivers = s.receivers := rfl
@[simp] theorem setEvents_queues (e : EventList) :
    (s.setEvents e).queues = s.queues := rfl
@[simp] theorem setEvents_timing (e : EventList) :
    (s.setEvents e).timing = s.timing := rfl
@[simp] theorem setEvents_outputs (e : EventList) :
    (s.setEvents e).outputs = s.outputs := rfl
@[simp] theorem setEvents_sups (e : EventList) :
    (s.setEvents e).sups = s.sups := rfl
@[simp] theorem setEvents_events (e : EventList) :
    (s.setEvents e).events = e := rfl
@[simp] theorem setEvents_portA (e : EventList) :
    (s.setEvents e).portA = s.portA := rfl
@[simp] theorem setEvents_portB (e : EventList) :
    (s.setEvents e).portB = s.portB := rfl
@[simp] theorem setEvents_lease (e : EventList) :
    (s.setEvents e).lease = s.lease := rfl
@[simp] theorem setEvents_capture (e : EventList) :
    (s.setEvents e).capture = s.capture := rfl
@[simp] theorem setEvents_draws (e : EventList) :
    (s.setEvents e).draws = s.draws := rfl
@[simp] theorem setEvents_pending (e : EventList) :
    (s.setEvents e).pending = s.pending := rfl
@[simp] theorem setEvents_receiver (e : EventList) (j : Highway) :
    (s.setEvents e).receiver j = s.receiver j := rfl
@[simp] theorem setEvents_queue (e : EventList) (j : Highway) :
    (s.setEvents e).queue j = s.queue j := rfl
@[simp] theorem setEvents_output (e : EventList) (j : Highway) :
    (s.setEvents e).output j = s.output j := rfl
@[simp] theorem setEvents_sup (e : EventList) (j : Highway) :
    (s.setEvents e).sup j = s.sup j := rfl
@[simp] theorem setEvents_slotState (e : EventList) (j : Highway) (n : Slot) :
    (s.setEvents e).slotState j n = s.slotState j n := rfl
@[simp] theorem setEvents_inService (e : EventList) (j : Highway) :
    (s.setEvents e).inService j = s.inService j := rfl
@[simp] theorem setEvents_port (e : EventList) (q : PortId) :
    (s.setEvents e).port q = s.port q := by cases q <;> rfl
@[simp] theorem setEvents_bank (e : EventList) (x : BankId) :
    (s.setEvents e).bank x = s.bank x := by cases x <;> rfl
@[simp] theorem setEvents_portEnabled (e : EventList) (q : PortId) :
    (s.setEvents e).portEnabled q = s.portEnabled q := rfl
@[simp] theorem setEvents_portPair (e : EventList) (q : PortId) :
    (s.setEvents e).portPair q = s.portPair q := rfl
@[simp] theorem setEvents_isProtected (e : EventList) (j : Highway) (n : Slot) :
    (s.setEvents e).isProtected j n = s.isProtected j n := rfl
@[simp] theorem setEvents_isMgmtHighway (e : EventList) (j : Highway) :
    (s.setEvents e).isMgmtHighway j = s.isMgmtHighway j := rfl
@[simp] theorem setEvents_leaseHolder (e : EventList) :
    (s.setEvents e).leaseHolder = s.leaseHolder := rfl
@[simp] theorem setEvents_holdsLease (e : EventList) (q : PortId) :
    (s.setEvents e).holdsLease q = s.holdsLease q := rfl
@[simp] theorem setEvents_holderOctet (e : EventList) :
    (s.setEvents e).holderOctet = s.holderOctet := rfl
@[simp] theorem setEvents_standbyBank (e : EventList) :
    (s.setEvents e).standbyBank = s.standbyBank := rfl

@[simp] theorem setLease_pins (l : Lease) :
    (s.setLease l).pins = s.pins := rfl
@[simp] theorem setLease_straps (l : Lease) :
    (s.setLease l).straps = s.straps := rfl
@[simp] theorem setLease_bank0 (l : Lease) :
    (s.setLease l).bank0 = s.bank0 := rfl
@[simp] theorem setLease_bank1 (l : Lease) :
    (s.setLease l).bank1 = s.bank1 := rfl
@[simp] theorem setLease_activeBank (l : Lease) :
    (s.setLease l).activeBank = s.activeBank := rfl
@[simp] theorem setLease_engine (l : Lease) :
    (s.setLease l).engine = s.engine := rfl
@[simp] theorem setLease_receivers (l : Lease) :
    (s.setLease l).receivers = s.receivers := rfl
@[simp] theorem setLease_queues (l : Lease) :
    (s.setLease l).queues = s.queues := rfl
@[simp] theorem setLease_timing (l : Lease) :
    (s.setLease l).timing = s.timing := rfl
@[simp] theorem setLease_outputs (l : Lease) :
    (s.setLease l).outputs = s.outputs := rfl
@[simp] theorem setLease_sups (l : Lease) :
    (s.setLease l).sups = s.sups := rfl
@[simp] theorem setLease_events (l : Lease) :
    (s.setLease l).events = s.events := rfl
@[simp] theorem setLease_portA (l : Lease) :
    (s.setLease l).portA = s.portA := rfl
@[simp] theorem setLease_portB (l : Lease) :
    (s.setLease l).portB = s.portB := rfl
@[simp] theorem setLease_lease (l : Lease) :
    (s.setLease l).lease = l := rfl
@[simp] theorem setLease_capture (l : Lease) :
    (s.setLease l).capture = s.capture := rfl
@[simp] theorem setLease_draws (l : Lease) :
    (s.setLease l).draws = s.draws := rfl
@[simp] theorem setLease_pending (l : Lease) :
    (s.setLease l).pending = s.pending := rfl
@[simp] theorem setLease_receiver (l : Lease) (j : Highway) :
    (s.setLease l).receiver j = s.receiver j := rfl
@[simp] theorem setLease_queue (l : Lease) (j : Highway) :
    (s.setLease l).queue j = s.queue j := rfl
@[simp] theorem setLease_output (l : Lease) (j : Highway) :
    (s.setLease l).output j = s.output j := rfl
@[simp] theorem setLease_sup (l : Lease) (j : Highway) :
    (s.setLease l).sup j = s.sup j := rfl
@[simp] theorem setLease_slotState (l : Lease) (j : Highway) (n : Slot) :
    (s.setLease l).slotState j n = s.slotState j n := rfl
@[simp] theorem setLease_inService (l : Lease) (j : Highway) :
    (s.setLease l).inService j = s.inService j := rfl
@[simp] theorem setLease_port (l : Lease) (q : PortId) :
    (s.setLease l).port q = s.port q := by cases q <;> rfl
@[simp] theorem setLease_bank (l : Lease) (x : BankId) :
    (s.setLease l).bank x = s.bank x := by cases x <;> rfl
@[simp] theorem setLease_portEnabled (l : Lease) (q : PortId) :
    (s.setLease l).portEnabled q = s.portEnabled q := rfl
@[simp] theorem setLease_portPair (l : Lease) (q : PortId) :
    (s.setLease l).portPair q = s.portPair q := rfl
@[simp] theorem setLease_isProtected (l : Lease) (j : Highway) (n : Slot) :
    (s.setLease l).isProtected j n = s.isProtected j n := rfl
@[simp] theorem setLease_isMgmtHighway (l : Lease) (j : Highway) :
    (s.setLease l).isMgmtHighway j = s.isMgmtHighway j := rfl
@[simp] theorem setLease_standbyBank (l : Lease) :
    (s.setLease l).standbyBank = s.standbyBank := rfl

@[simp] theorem setCapture_pins (c : Capture) :
    (s.setCapture c).pins = s.pins := rfl
@[simp] theorem setCapture_straps (c : Capture) :
    (s.setCapture c).straps = s.straps := rfl
@[simp] theorem setCapture_bank0 (c : Capture) :
    (s.setCapture c).bank0 = s.bank0 := rfl
@[simp] theorem setCapture_bank1 (c : Capture) :
    (s.setCapture c).bank1 = s.bank1 := rfl
@[simp] theorem setCapture_activeBank (c : Capture) :
    (s.setCapture c).activeBank = s.activeBank := rfl
@[simp] theorem setCapture_engine (c : Capture) :
    (s.setCapture c).engine = s.engine := rfl
@[simp] theorem setCapture_receivers (c : Capture) :
    (s.setCapture c).receivers = s.receivers := rfl
@[simp] theorem setCapture_queues (c : Capture) :
    (s.setCapture c).queues = s.queues := rfl
@[simp] theorem setCapture_timing (c : Capture) :
    (s.setCapture c).timing = s.timing := rfl
@[simp] theorem setCapture_outputs (c : Capture) :
    (s.setCapture c).outputs = s.outputs := rfl
@[simp] theorem setCapture_sups (c : Capture) :
    (s.setCapture c).sups = s.sups := rfl
@[simp] theorem setCapture_events (c : Capture) :
    (s.setCapture c).events = s.events := rfl
@[simp] theorem setCapture_portA (c : Capture) :
    (s.setCapture c).portA = s.portA := rfl
@[simp] theorem setCapture_portB (c : Capture) :
    (s.setCapture c).portB = s.portB := rfl
@[simp] theorem setCapture_lease (c : Capture) :
    (s.setCapture c).lease = s.lease := rfl
@[simp] theorem setCapture_capture (c : Capture) :
    (s.setCapture c).capture = c := rfl
@[simp] theorem setCapture_draws (c : Capture) :
    (s.setCapture c).draws = s.draws := rfl
@[simp] theorem setCapture_pending (c : Capture) :
    (s.setCapture c).pending = s.pending := rfl
@[simp] theorem setCapture_receiver (c : Capture) (j : Highway) :
    (s.setCapture c).receiver j = s.receiver j := rfl
@[simp] theorem setCapture_queue (c : Capture) (j : Highway) :
    (s.setCapture c).queue j = s.queue j := rfl
@[simp] theorem setCapture_output (c : Capture) (j : Highway) :
    (s.setCapture c).output j = s.output j := rfl
@[simp] theorem setCapture_sup (c : Capture) (j : Highway) :
    (s.setCapture c).sup j = s.sup j := rfl
@[simp] theorem setCapture_slotState (c : Capture) (j : Highway) (n : Slot) :
    (s.setCapture c).slotState j n = s.slotState j n := rfl
@[simp] theorem setCapture_inService (c : Capture) (j : Highway) :
    (s.setCapture c).inService j = s.inService j := rfl
@[simp] theorem setCapture_port (c : Capture) (q : PortId) :
    (s.setCapture c).port q = s.port q := by cases q <;> rfl
@[simp] theorem setCapture_bank (c : Capture) (x : BankId) :
    (s.setCapture c).bank x = s.bank x := by cases x <;> rfl
@[simp] theorem setCapture_portEnabled (c : Capture) (q : PortId) :
    (s.setCapture c).portEnabled q = s.portEnabled q := rfl
@[simp] theorem setCapture_portPair (c : Capture) (q : PortId) :
    (s.setCapture c).portPair q = s.portPair q := rfl
@[simp] theorem setCapture_isProtected (c : Capture) (j : Highway) (n : Slot) :
    (s.setCapture c).isProtected j n = s.isProtected j n := rfl
@[simp] theorem setCapture_isMgmtHighway (c : Capture) (j : Highway) :
    (s.setCapture c).isMgmtHighway j = s.isMgmtHighway j := rfl
@[simp] theorem setCapture_leaseHolder (c : Capture) :
    (s.setCapture c).leaseHolder = s.leaseHolder := rfl
@[simp] theorem setCapture_holdsLease (c : Capture) (q : PortId) :
    (s.setCapture c).holdsLease q = s.holdsLease q := rfl
@[simp] theorem setCapture_holderOctet (c : Capture) :
    (s.setCapture c).holderOctet = s.holderOctet := rfl
@[simp] theorem setCapture_standbyBank (c : Capture) :
    (s.setCapture c).standbyBank = s.standbyBank := rfl

@[simp] theorem setPins_pins (t : Straps) :
    (s.setPins t).pins = t := rfl
@[simp] theorem setPins_straps (t : Straps) :
    (s.setPins t).straps = s.straps := rfl
@[simp] theorem setPins_bank0 (t : Straps) :
    (s.setPins t).bank0 = s.bank0 := rfl
@[simp] theorem setPins_bank1 (t : Straps) :
    (s.setPins t).bank1 = s.bank1 := rfl
@[simp] theorem setPins_activeBank (t : Straps) :
    (s.setPins t).activeBank = s.activeBank := rfl
@[simp] theorem setPins_engine (t : Straps) :
    (s.setPins t).engine = s.engine := rfl
@[simp] theorem setPins_receivers (t : Straps) :
    (s.setPins t).receivers = s.receivers := rfl
@[simp] theorem setPins_queues (t : Straps) :
    (s.setPins t).queues = s.queues := rfl
@[simp] theorem setPins_timing (t : Straps) :
    (s.setPins t).timing = s.timing := rfl
@[simp] theorem setPins_outputs (t : Straps) :
    (s.setPins t).outputs = s.outputs := rfl
@[simp] theorem setPins_sups (t : Straps) :
    (s.setPins t).sups = s.sups := rfl
@[simp] theorem setPins_events (t : Straps) :
    (s.setPins t).events = s.events := rfl
@[simp] theorem setPins_portA (t : Straps) :
    (s.setPins t).portA = s.portA := rfl
@[simp] theorem setPins_portB (t : Straps) :
    (s.setPins t).portB = s.portB := rfl
@[simp] theorem setPins_lease (t : Straps) :
    (s.setPins t).lease = s.lease := rfl
@[simp] theorem setPins_capture (t : Straps) :
    (s.setPins t).capture = s.capture := rfl
@[simp] theorem setPins_draws (t : Straps) :
    (s.setPins t).draws = s.draws := rfl
@[simp] theorem setPins_pending (t : Straps) :
    (s.setPins t).pending = s.pending := rfl
@[simp] theorem setPins_receiver (t : Straps) (j : Highway) :
    (s.setPins t).receiver j = s.receiver j := rfl
@[simp] theorem setPins_queue (t : Straps) (j : Highway) :
    (s.setPins t).queue j = s.queue j := rfl
@[simp] theorem setPins_output (t : Straps) (j : Highway) :
    (s.setPins t).output j = s.output j := rfl
@[simp] theorem setPins_sup (t : Straps) (j : Highway) :
    (s.setPins t).sup j = s.sup j := rfl
@[simp] theorem setPins_slotState (t : Straps) (j : Highway) (n : Slot) :
    (s.setPins t).slotState j n = s.slotState j n := rfl
@[simp] theorem setPins_inService (t : Straps) (j : Highway) :
    (s.setPins t).inService j = s.inService j := rfl
@[simp] theorem setPins_port (t : Straps) (q : PortId) :
    (s.setPins t).port q = s.port q := by cases q <;> rfl
@[simp] theorem setPins_bank (t : Straps) (x : BankId) :
    (s.setPins t).bank x = s.bank x := by cases x <;> rfl
@[simp] theorem setPins_portEnabled (t : Straps) (q : PortId) :
    (s.setPins t).portEnabled q = s.portEnabled q := rfl
@[simp] theorem setPins_portPair (t : Straps) (q : PortId) :
    (s.setPins t).portPair q = s.portPair q := rfl
@[simp] theorem setPins_isProtected (t : Straps) (j : Highway) (n : Slot) :
    (s.setPins t).isProtected j n = s.isProtected j n := rfl
@[simp] theorem setPins_isMgmtHighway (t : Straps) (j : Highway) :
    (s.setPins t).isMgmtHighway j = s.isMgmtHighway j := rfl
@[simp] theorem setPins_leaseHolder (t : Straps) :
    (s.setPins t).leaseHolder = s.leaseHolder := rfl
@[simp] theorem setPins_holdsLease (t : Straps) (q : PortId) :
    (s.setPins t).holdsLease q = s.holdsLease q := rfl
@[simp] theorem setPins_holderOctet (t : Straps) :
    (s.setPins t).holderOctet = s.holderOctet := rfl
@[simp] theorem setPins_standbyBank (t : Straps) :
    (s.setPins t).standbyBank = s.standbyBank := rfl

@[simp] theorem useDraw_pins :
    (s.useDraw).pins = s.pins := rfl
@[simp] theorem useDraw_straps :
    (s.useDraw).straps = s.straps := rfl
@[simp] theorem useDraw_bank0 :
    (s.useDraw).bank0 = s.bank0 := rfl
@[simp] theorem useDraw_bank1 :
    (s.useDraw).bank1 = s.bank1 := rfl
@[simp] theorem useDraw_activeBank :
    (s.useDraw).activeBank = s.activeBank := rfl
@[simp] theorem useDraw_engine :
    (s.useDraw).engine = s.engine := rfl
@[simp] theorem useDraw_receivers :
    (s.useDraw).receivers = s.receivers := rfl
@[simp] theorem useDraw_queues :
    (s.useDraw).queues = s.queues := rfl
@[simp] theorem useDraw_timing :
    (s.useDraw).timing = s.timing := rfl
@[simp] theorem useDraw_outputs :
    (s.useDraw).outputs = s.outputs := rfl
@[simp] theorem useDraw_sups :
    (s.useDraw).sups = s.sups := rfl
@[simp] theorem useDraw_events :
    (s.useDraw).events = s.events := rfl
@[simp] theorem useDraw_portA :
    (s.useDraw).portA = s.portA := rfl
@[simp] theorem useDraw_portB :
    (s.useDraw).portB = s.portB := rfl
@[simp] theorem useDraw_lease :
    (s.useDraw).lease = s.lease := rfl
@[simp] theorem useDraw_capture :
    (s.useDraw).capture = s.capture := rfl
@[simp] theorem useDraw_draws :
    (s.useDraw).draws = s.draws + 1 := rfl
@[simp] theorem useDraw_pending :
    (s.useDraw).pending = s.pending := rfl
@[simp] theorem useDraw_receiver  (j : Highway) :
    (s.useDraw).receiver j = s.receiver j := rfl
@[simp] theorem useDraw_queue  (j : Highway) :
    (s.useDraw).queue j = s.queue j := rfl
@[simp] theorem useDraw_output  (j : Highway) :
    (s.useDraw).output j = s.output j := rfl
@[simp] theorem useDraw_sup  (j : Highway) :
    (s.useDraw).sup j = s.sup j := rfl
@[simp] theorem useDraw_slotState  (j : Highway) (n : Slot) :
    (s.useDraw).slotState j n = s.slotState j n := rfl
@[simp] theorem useDraw_inService  (j : Highway) :
    (s.useDraw).inService j = s.inService j := rfl
@[simp] theorem useDraw_port  (q : PortId) :
    (s.useDraw).port q = s.port q := by cases q <;> rfl
@[simp] theorem useDraw_bank  (x : BankId) :
    (s.useDraw).bank x = s.bank x := by cases x <;> rfl
@[simp] theorem useDraw_portEnabled  (q : PortId) :
    (s.useDraw).portEnabled q = s.portEnabled q := rfl
@[simp] theorem useDraw_portPair  (q : PortId) :
    (s.useDraw).portPair q = s.portPair q := rfl
@[simp] theorem useDraw_isProtected  (j : Highway) (n : Slot) :
    (s.useDraw).isProtected j n = s.isProtected j n := rfl
@[simp] theorem useDraw_isMgmtHighway  (j : Highway) :
    (s.useDraw).isMgmtHighway j = s.isMgmtHighway j := rfl
@[simp] theorem useDraw_leaseHolder :
    (s.useDraw).leaseHolder = s.leaseHolder := rfl
@[simp] theorem useDraw_holdsLease  (q : PortId) :
    (s.useDraw).holdsLease q = s.holdsLease q := rfl
@[simp] theorem useDraw_holderOctet :
    (s.useDraw).holderOctet = s.holderOctet := rfl
@[simp] theorem useDraw_standbyBank :
    (s.useDraw).standbyBank = s.standbyBank := rfl

@[simp] theorem setBank_pins (b : BankId) (x : Bank) :
    (s.setBank b x).pins = s.pins := by cases b <;> rfl
@[simp] theorem setBank_straps (b : BankId) (x : Bank) :
    (s.setBank b x).straps = s.straps := by cases b <;> rfl
@[simp] theorem setBank_activeBank (b : BankId) (x : Bank) :
    (s.setBank b x).activeBank = s.activeBank := by cases b <;> rfl
@[simp] theorem setBank_engine (b : BankId) (x : Bank) :
    (s.setBank b x).engine = s.engine := by cases b <;> rfl
@[simp] theorem setBank_receivers (b : BankId) (x : Bank) :
    (s.setBank b x).receivers = s.receivers := by cases b <;> rfl
@[simp] theorem setBank_queues (b : BankId) (x : Bank) :
    (s.setBank b x).queues = s.queues := by cases b <;> rfl
@[simp] theorem setBank_timing (b : BankId) (x : Bank) :
    (s.setBank b x).timing = s.timing := by cases b <;> rfl
@[simp] theorem setBank_outputs (b : BankId) (x : Bank) :
    (s.setBank b x).outputs = s.outputs := by cases b <;> rfl
@[simp] theorem setBank_sups (b : BankId) (x : Bank) :
    (s.setBank b x).sups = s.sups := by cases b <;> rfl
@[simp] theorem setBank_events (b : BankId) (x : Bank) :
    (s.setBank b x).events = s.events := by cases b <;> rfl
@[simp] theorem setBank_portA (b : BankId) (x : Bank) :
    (s.setBank b x).portA = s.portA := by cases b <;> rfl
@[simp] theorem setBank_portB (b : BankId) (x : Bank) :
    (s.setBank b x).portB = s.portB := by cases b <;> rfl
@[simp] theorem setBank_lease (b : BankId) (x : Bank) :
    (s.setBank b x).lease = s.lease := by cases b <;> rfl
@[simp] theorem setBank_capture (b : BankId) (x : Bank) :
    (s.setBank b x).capture = s.capture := by cases b <;> rfl
@[simp] theorem setBank_draws (b : BankId) (x : Bank) :
    (s.setBank b x).draws = s.draws := by cases b <;> rfl
@[simp] theorem setBank_pending (b : BankId) (x : Bank) :
    (s.setBank b x).pending = s.pending := by cases b <;> rfl
@[simp] theorem setBank_receiver (b : BankId) (x : Bank) (j : Highway) :
    (s.setBank b x).receiver j = s.receiver j := by cases b <;> rfl
@[simp] theorem setBank_queue (b : BankId) (x : Bank) (j : Highway) :
    (s.setBank b x).queue j = s.queue j := by cases b <;> rfl
@[simp] theorem setBank_output (b : BankId) (x : Bank) (j : Highway) :
    (s.setBank b x).output j = s.output j := by cases b <;> rfl
@[simp] theorem setBank_sup (b : BankId) (x : Bank) (j : Highway) :
    (s.setBank b x).sup j = s.sup j := by cases b <;> rfl
@[simp] theorem setBank_slotState (b : BankId) (x : Bank) (j : Highway) (n : Slot) :
    (s.setBank b x).slotState j n = s.slotState j n := by cases b <;> rfl
@[simp] theorem setBank_inService (b : BankId) (x : Bank) (j : Highway) :
    (s.setBank b x).inService j = s.inService j := by cases b <;> rfl
@[simp] theorem setBank_port (b : BankId) (x : Bank) (q : PortId) :
    (s.setBank b x).port q = s.port q := by cases b <;> cases q <;> rfl
@[simp] theorem setBank_portEnabled (b : BankId) (x : Bank) (q : PortId) :
    (s.setBank b x).portEnabled q = s.portEnabled q := by cases b <;> rfl
@[simp] theorem setBank_portPair (b : BankId) (x : Bank) (q : PortId) :
    (s.setBank b x).portPair q = s.portPair q := by cases b <;> rfl
@[simp] theorem setBank_isProtected (b : BankId) (x : Bank) (j : Highway) (n : Slot) :
    (s.setBank b x).isProtected j n = s.isProtected j n := by cases b <;> rfl
@[simp] theorem setBank_isMgmtHighway (b : BankId) (x : Bank) (j : Highway) :
    (s.setBank b x).isMgmtHighway j = s.isMgmtHighway j := by cases b <;> rfl
@[simp] theorem setBank_leaseHolder (b : BankId) (x : Bank) :
    (s.setBank b x).leaseHolder = s.leaseHolder := by cases b <;> rfl
@[simp] theorem setBank_holdsLease (b : BankId) (x : Bank) (q : PortId) :
    (s.setBank b x).holdsLease q = s.holdsLease q := by cases b <;> rfl
@[simp] theorem setBank_holderOctet (b : BankId) (x : Bank) :
    (s.setBank b x).holderOctet = s.holderOctet := by cases b <;> rfl
@[simp] theorem setBank_standbyBank (b : BankId) (x : Bank) :
    (s.setBank b x).standbyBank = s.standbyBank := by cases b <;> rfl

@[simp] theorem setPort_pins (p : PortId) (x : Port) :
    (s.setPort p x).pins = s.pins := by cases p <;> rfl
@[simp] theorem setPort_straps (p : PortId) (x : Port) :
    (s.setPort p x).straps = s.straps := by cases p <;> rfl
@[simp] theorem setPort_bank0 (p : PortId) (x : Port) :
    (s.setPort p x).bank0 = s.bank0 := by cases p <;> rfl
@[simp] theorem setPort_bank1 (p : PortId) (x : Port) :
    (s.setPort p x).bank1 = s.bank1 := by cases p <;> rfl
@[simp] theorem setPort_activeBank (p : PortId) (x : Port) :
    (s.setPort p x).activeBank = s.activeBank := by cases p <;> rfl
@[simp] theorem setPort_engine (p : PortId) (x : Port) :
    (s.setPort p x).engine = s.engine := by cases p <;> rfl
@[simp] theorem setPort_receivers (p : PortId) (x : Port) :
    (s.setPort p x).receivers = s.receivers := by cases p <;> rfl
@[simp] theorem setPort_queues (p : PortId) (x : Port) :
    (s.setPort p x).queues = s.queues := by cases p <;> rfl
@[simp] theorem setPort_timing (p : PortId) (x : Port) :
    (s.setPort p x).timing = s.timing := by cases p <;> rfl
@[simp] theorem setPort_outputs (p : PortId) (x : Port) :
    (s.setPort p x).outputs = s.outputs := by cases p <;> rfl
@[simp] theorem setPort_sups (p : PortId) (x : Port) :
    (s.setPort p x).sups = s.sups := by cases p <;> rfl
@[simp] theorem setPort_events (p : PortId) (x : Port) :
    (s.setPort p x).events = s.events := by cases p <;> rfl
@[simp] theorem setPort_lease (p : PortId) (x : Port) :
    (s.setPort p x).lease = s.lease := by cases p <;> rfl
@[simp] theorem setPort_capture (p : PortId) (x : Port) :
    (s.setPort p x).capture = s.capture := by cases p <;> rfl
@[simp] theorem setPort_draws (p : PortId) (x : Port) :
    (s.setPort p x).draws = s.draws := by cases p <;> rfl
@[simp] theorem setPort_pending (p : PortId) (x : Port) :
    (s.setPort p x).pending = s.pending := by cases p <;> rfl
@[simp] theorem setPort_receiver (p : PortId) (x : Port) (j : Highway) :
    (s.setPort p x).receiver j = s.receiver j := by cases p <;> rfl
@[simp] theorem setPort_queue (p : PortId) (x : Port) (j : Highway) :
    (s.setPort p x).queue j = s.queue j := by cases p <;> rfl
@[simp] theorem setPort_output (p : PortId) (x : Port) (j : Highway) :
    (s.setPort p x).output j = s.output j := by cases p <;> rfl
@[simp] theorem setPort_sup (p : PortId) (x : Port) (j : Highway) :
    (s.setPort p x).sup j = s.sup j := by cases p <;> rfl
@[simp] theorem setPort_slotState (p : PortId) (x : Port) (j : Highway) (n : Slot) :
    (s.setPort p x).slotState j n = s.slotState j n := by cases p <;> rfl
@[simp] theorem setPort_inService (p : PortId) (x : Port) (j : Highway) :
    (s.setPort p x).inService j = s.inService j := by cases p <;> rfl
@[simp] theorem setPort_bank (p : PortId) (x : Port) (y : BankId) :
    (s.setPort p x).bank y = s.bank y := by cases p <;> cases y <;> rfl
@[simp] theorem setPort_portEnabled (p : PortId) (x : Port) (q : PortId) :
    (s.setPort p x).portEnabled q = s.portEnabled q := by cases p <;> rfl
@[simp] theorem setPort_portPair (p : PortId) (x : Port) (q : PortId) :
    (s.setPort p x).portPair q = s.portPair q := by cases p <;> rfl
@[simp] theorem setPort_isProtected (p : PortId) (x : Port) (j : Highway) (n : Slot) :
    (s.setPort p x).isProtected j n = s.isProtected j n := by cases p <;> rfl
@[simp] theorem setPort_isMgmtHighway (p : PortId) (x : Port) (j : Highway) :
    (s.setPort p x).isMgmtHighway j = s.isMgmtHighway j := by cases p <;> rfl
@[simp] theorem setPort_leaseHolder (p : PortId) (x : Port) :
    (s.setPort p x).leaseHolder = s.leaseHolder := by cases p <;> rfl
@[simp] theorem setPort_holdsLease (p : PortId) (x : Port) (q : PortId) :
    (s.setPort p x).holdsLease q = s.holdsLease q := by cases p <;> rfl
@[simp] theorem setPort_holderOctet (p : PortId) (x : Port) :
    (s.setPort p x).holderOctet = s.holderOctet := by cases p <;> rfl
@[simp] theorem setPort_standbyBank (p : PortId) (x : Port) :
    (s.setPort p x).standbyBank = s.standbyBank := by cases p <;> rfl

/-! ### Reading what was just written -/

@[simp] theorem receiver_setReceiver (k j : Highway) (r : Receiver) :
    (s.setReceiver k r).receiver j = if k = j then r else s.receiver j := by
  simp only [State.receiver, State.setReceiver, Fin.getElem_fin, Vector.getElem_set, Fin.ext_iff]

@[simp] theorem queue_setQueue (k j : Highway) (q : FrameQueue) :
    (s.setQueue k q).queue j = if k = j then q else s.queue j := by
  simp only [State.queue, State.setQueue, Fin.getElem_fin, Vector.getElem_set, Fin.ext_iff]

@[simp] theorem output_setOutput (k j : Highway) (x : Output) :
    (s.setOutput k x).output j = if k = j then x else s.output j := by
  simp only [State.output, State.setOutput, Fin.getElem_fin, Vector.getElem_set, Fin.ext_iff]

@[simp] theorem sup_setSup (k j : Highway) (x : Supervisor) :
    (s.setSup k x).sup j = if k = j then x else s.sup j := by
  simp only [State.sup, State.setSup, Fin.getElem_fin, Vector.getElem_set, Fin.ext_iff]

@[simp] theorem port_setPort (p q : PortId) (x : Port) :
    (s.setPort p x).port q = if p = q then x else s.port q := by
  cases p <;> cases q <;> rfl

@[simp] theorem bank_setBank (b c : BankId) (x : Bank) :
    (s.setBank b x).bank c = if b = c then x else s.bank c := by
  cases b <;> cases c <;> rfl

@[simp] theorem setPort_setPort (p : PortId) (x y : Port) : (s.setPort p x).setPort p y = s.setPort p y := by
  cases p <;> rfl

@[simp] theorem setPort_same (p : PortId) : s.setPort p (s.port p) = s := by
  cases p <;> rfl

@[simp] theorem setLease_setLease (l m : Lease) : (s.setLease l).setLease m = s.setLease m := rfl

@[simp] theorem setEvents_setEvents (l m : EventList) : (s.setEvents l).setEvents m = s.setEvents m := rfl

theorem setPort_setLease (p : PortId) (x : Port) (l : Lease) :
    (s.setPort p x).setLease l = (s.setLease l).setPort p x := by
  cases p <;> rfl

theorem setPort_setEngine (p : PortId) (x : Port) (e : Engine) :
    (s.setPort p x).setEngine e = (s.setEngine e).setPort p x := by
  cases p <;> rfl

theorem setPort_setBank (p : PortId) (x : Port) (b : BankId) (y : Bank) :
    (s.setPort p x).setBank b y = (s.setBank b y).setPort p x := by
  cases p <;> cases b <;> rfl

theorem setPort_setReceiver (p : PortId) (x : Port) (k : Highway) (r : Receiver) :
    (s.setPort p x).setReceiver k r = (s.setReceiver k r).setPort p x := by
  cases p <;> rfl

theorem setPort_setOutput (p : PortId) (x : Port) (k : Highway) (o : Output) :
    (s.setPort p x).setOutput k o = (s.setOutput k o).setPort p x := by
  cases p <;> rfl

theorem setPort_setSup (p : PortId) (x : Port) (k : Highway) (y : Supervisor) :
    (s.setPort p x).setSup k y = (s.setSup k y).setPort p x := by
  cases p <;> rfl

theorem setPort_setEvents (p : PortId) (x : Port) (l : EventList) :
    (s.setPort p x).setEvents l = (s.setEvents l).setPort p x := by
  cases p <;> rfl

theorem setPort_setCapture (p : PortId) (x : Port) (u : Capture) :
    (s.setPort p x).setCapture u = (s.setCapture u).setPort p x := by
  cases p <;> rfl

theorem setPort_useDraw (p : PortId) (x : Port) : (s.setPort p x).useDraw = s.useDraw.setPort p x := by
  cases p <;> rfl

end Sys2Proof.Machine
end

