-- ==== Sys2Proof/Laws/Events.lean ====
section
/-! SUPPORT. What raising an event can touch: the event list, the two ports (a NOTICE, or a drop that is counted) and the
count of free values. -/

namespace Sys2Proof.Machine

theorem sameButNews_refl (s : State) : s.sameButNews s := rfl

theorem sameButNews_trans {s t u : State} (h : s.sameButNews t) (h' : t.sameButNews u) : s.sameButNews u := by
  unfold State.sameButNews at h h' ⊢
  rw [h] at h'
  exact h'

theorem sameButNews_setEvents (s : State) (l : EventList) : s.sameButNews (s.setEvents l) := rfl

theorem sameButNews_setPort (s : State) (p : PortId) (x : Port) : s.sameButNews (s.setPort p x) := by
  cases p <;> rfl

theorem sameButNews_useDraw (s : State) : s.sameButNews s.useDraw := rfl

theorem sameButNews_queueNotice (s : State) (p : PortId) (n : List Octet) : s.sameButNews (s.queueNotice p n) := by
  unfold State.queueNotice
  split
  · exact sameButNews_setPort _ _ _
  · exact sameButNews_refl s

theorem sameButNews_noticeDropped (s : State) (p : PortId) : s.sameButNews (s.noticeDropped p) :=
  sameButNews_trans (sameButNews_setPort _ _ _) (sameButNews_setEvents _ _)

theorem sameButNews_offerNotices (s : State) : s.sameButNews s.offerNotices := by
  have h : s.sameButNews ((s.queueNotice .a s.events.notice).queueNotice .b s.events.notice) :=
    sameButNews_trans (sameButNews_queueNotice _ _ _) (sameButNews_queueNotice _ _ _)
  unfold State.offerNotices
  simp only
  split
  · exact h
  · exact sameButNews_trans h (sameButNews_noticeDropped _ _)
  · exact sameButNews_trans h (sameButNews_noticeDropped _ _)
  · split
    · exact sameButNews_trans h (sameButNews_trans (sameButNews_useDraw _)
        (sameButNews_trans (sameButNews_noticeDropped _ _) (sameButNews_noticeDropped _ _)))
    · exact sameButNews_trans h (sameButNews_trans (sameButNews_useDraw _)
        (sameButNews_trans (sameButNews_noticeDropped _ _) (sameButNews_noticeDropped _ _)))

theorem sameButNews_settleAttention (s : State) : s.sameButNews s.settleAttention := by
  unfold State.settleAttention
  split
  · exact sameButNews_refl s
  · split
    · exact sameButNews_trans (sameButNews_setEvents _ _) (sameButNews_offerNotices _)
    · exact sameButNews_setEvents _ _

/-- Raising an event changes at most the list, the ports and the count of free values (R109, R123, R125). -/
theorem sameButNews_raise (s : State) (key : EventKey) (v : EventValue) : s.sameButNews (s.raise key v) :=
  sameButNews_trans (sameButNews_setEvents _ _) (sameButNews_settleAttention _)

theorem sameButNews_listTick (s : State) (timerFirst delivered : Bool) :
    s.sameButNews (s.listTick timerFirst delivered) := by
  have hHold : ∀ u : State, u.sameButNews u.holdTick := by
    intro u
    unfold State.holdTick
    split
    · exact sameButNews_refl u
    · split
      · exact sameButNews_refl u
      · exact sameButNews_trans (sameButNews_setEvents _ _) (sameButNews_settleAttention _)
  have hTimer : ∀ (u : State) r, u.sameButNews (u.timerTick r delivered) := by
    intro u r
    unfold State.timerTick
    split
    · exact sameButNews_refl u
    · split
      · exact sameButNews_setEvents _ _
      · split
        · exact sameButNews_refl u
        · exact sameButNews_trans (sameButNews_setEvents _ _) (sameButNews_offerNotices _)
  unfold State.listTick
  split
  · exact sameButNews_trans (hTimer _ _) (hHold _)
  · exact sameButNews_trans (hHold _) (hTimer _ _)

/-- After a delivery of the same start the tick offers no NOTICE and changes the notice timer alone (R124). -/
theorem timerTick_delivered (s : State) (running : Option Octet) :
    s.timerTick running true = s.setEvents { s.events with timer := (s.timerTick running true).events.timer } := by
  unfold State.timerTick
  cases running with
  | none => rfl
  | some t =>
    simp only [if_true]
    split <;> rfl

end Sys2Proof.Machine
end

