-- ==== Sys2Proof/Laws/Map.lean ====
section
/-! SUPPORT. What the operations of the map store do, entry by entry. -/

namespace Sys2Proof.Machine

@[simp] theorem otherBank_ne (b : BankId) : otherBank b ≠ b := by cases b <;> decide

@[simp] theorem ne_otherBank (b : BankId) : b ≠ otherBank b := by cases b <;> decide

/-- A written slot takes its entry, and every other slot of the row keeps its own (R10). -/
theorem writeRow_get (row : Row) (first : Nat) (es : List Entry) (n : Slot) :
    (writeRow row first es)[n] = if first ≤ n.val then (es[n.val - first]?).getD row[n] else row[n] := by
  simp [writeRow]

/-- A write of `count` entries marks their slots and clears no mark (R13). -/
theorem markRow_get (marks : Vector Bool 64) (first count : Nat) (n : Slot) :
    (markRow marks first count)[n] = (decide (first ≤ n.val ∧ n.val < first + count) || marks[n]) := by
  simp [markRow]

/-- A copied slot takes the ACTIVE entry, and a marked one keeps its own (R29). -/
theorem copyRow_get (active standby : Row) (marks : Vector Bool 64) (n : Slot) :
    (copyRow active standby marks)[n] = if marks[n] then standby[n] else active[n] := by
  simp [copyRow]

/-- A cleared bank holds the initial content, but for its protected entries (R17). -/
theorem clearedBank_get (t : Straps) (b : Bank) (k : Highway) (n : Slot) :
    (clearedBank t b)[k][n] = if protectedSlot t k n then b[k][n] else initialEntry := by
  simp [clearedBank]

/-- Both banks after a power-on or cold reset (R7). -/
theorem initialBank_get (t : Straps) (k : Highway) (n : Slot) :
    (initialBank t)[k][n] = if protectedSlot t k n then protectedEntry else initialEntry := by
  simp [initialBank]

/-- A row replaced in a bank. -/
theorem bank_set_get (b : Bank) (k j : Highway) (row : Row) (n : Slot) :
    (b.set k row)[j][n] = if j = k then row[n] else b[j][n] := by
  by_cases h : j = k
  · subst h; simp
  · have h' : (k : Nat) ≠ j := fun e => h (Fin.ext e.symm)
    simp [h, Vector.getElem_set_ne _ _ h']

/-- The sync copy leaves every ACTIVE entry (R29). -/
theorem copyHighway_activeEntry (s : State) (pos : Highway) (marks : Marks) (k : Highway) (n : Slot) :
    (s.copyHighway pos marks).activeEntry k n = s.activeEntry k n := by
  unfold State.copyHighway State.activeEntry State.standbyBank
  cases h : s.activeBank <;> simp [State.setBank, State.bank, otherBank, h]

/-- The sync copy replaces the unmarked STANDBY entries of its highway and no others (R29). -/
theorem copyHighway_standbyEntry (s : State) (pos : Highway) (marks : Marks) (k : Highway) (n : Slot) :
    (s.copyHighway pos marks).standbyEntry k n =
      if k = pos ∧ marks[k][n] = false then s.activeEntry k n else s.standbyEntry k n := by
  have key : ∀ b : Bank, (b.set pos (copyRow (s.bank s.activeBank)[pos] b[pos] marks[pos]))[k][n] =
      if k = pos ∧ marks[k][n] = false then (s.bank s.activeBank)[k][n] else b[k][n] := by
    intro b
    rw [bank_set_get]
    by_cases hk : k = pos
    · subst hk
      rw [if_pos rfl, copyRow_get]
      cases marks[k][n] <;> simp
    · simp [hk]
  unfold State.copyHighway State.activeEntry State.standbyEntry State.standbyBank
  cases h : s.activeBank <;> simpa [State.setBank, State.bank, otherBank, h] using key _

/-- The checks of a WRITE_ENTRIES pass exactly when every entry passes its own (R11, R12). -/
theorem checkEntries_eq_none_iff (s : State) (k : Highway) (first i : Nat) (es : List RawEntry) :
    s.checkEntries k first i es = none ↔ ∀ j e, es[j]? = some e → s.checkEntry k (first + (i + j)) e = none := by
  induction es generalizing i with
  | nil => simp [State.checkEntries]
  | cons e es ih =>
    unfold State.checkEntries
    cases h : s.checkEntry k (first + i) e with
    | some status =>
      simp only [reduceCtorEq, false_iff, not_forall]
      exact ⟨0, e, rfl, by simp [h]⟩
    | none =>
      simp only [ih]
      constructor
      · intro hall j x hx
        cases j with
        | zero =>
          obtain rfl : e = x := by simpa using hx
          simpa using h
        | succ j =>
          have := hall j x (by simpa using hx)
          rwa [show i + (j + 1) = i + 1 + j by omega]
      · intro hall j x hx
        have := hall (j + 1) x (by simpa using hx)
        rwa [show i + (j + 1) = i + 1 + j by omega] at this

/-- The first entry that fails its checks is the offending one (R11). -/
theorem checkEntries_of_first (s : State) (k : Highway) (first i j : Nat) (es : List RawEntry) (e : RawEntry)
    (status : Status) (he : es[j]? = some e) (hs : s.checkEntry k (first + (i + j)) e = some status)
    (hb : ∀ m x, m < j → es[m]? = some x → s.checkEntry k (first + (i + m)) x = none) :
    s.checkEntries k first i es = some (status, i + j) := by
  induction es generalizing i j with
  | nil => simp at he
  | cons x es ih =>
    unfold State.checkEntries
    cases j with
    | zero =>
      obtain rfl : x = e := by simpa using he
      rw [Nat.add_zero] at hs
      simp [hs]
    | succ j =>
      have h0 := hb 0 x (by omega) (by simp)
      rw [Nat.add_zero] at h0
      rw [h0]
      have := ih (i + 1) j (by simpa using he) (by rwa [show i + 1 + j = i + (j + 1) by omega])
        (fun m y hm hy => by
          have := hb (m + 1) y (by omega) (by simpa using hy)
          rwa [show i + (m + 1) = i + 1 + m by omega] at this)
      simpa [show i + 1 + j = i + (j + 1) by omega] using this

end Sys2Proof.Machine
end

