-- ==== Sys2Proof/Laws/News.lean ====
section
/-! SUPPORT. What the event list holds after an occurrence, and what the offers of a NOTICE leave of it. -/

namespace Sys2Proof.Machine

/-! ### One occurrence at the list (R109, R112) -/

theorem mergeEntry_reports (key : EventKey) (v : EventValue) (now : Stamp) (es : List Event)
    (h : es.any (Event.accepts key) = true) :
    ∃ e ∈ mergeEntry key v now es, e.delivered = false ∧ ∃ first count, e.body = .ordinary key first v count := by
  induction es with
  | nil => simp at h
  | cons e es ih =>
    unfold mergeEntry
    cases hb : e.body with
    | ordinary k first w count =>
      simp only
      split
      · rename_i hk
        obtain ⟨rfl, hd⟩ := hk
        exact ⟨_, List.mem_cons_self, hd, _, _, rfl⟩
      · rename_i hk
        have hne : Event.accepts key e = false := by simpa [Event.accepts, hb] using hk
        obtain ⟨x, hx, hr⟩ := ih (by simpa [hne] using h)
        exact ⟨x, List.mem_cons_of_mem _ hx, hr⟩
    | overflow n =>
      have hne : Event.accepts key e = false := by simp [Event.accepts, hb]
      obtain ⟨x, hx, hr⟩ := ih (by simpa [hne] using h)
      exact ⟨x, List.mem_cons_of_mem _ hx, hr⟩

/-- An occurrence that the list admits is held as the latest of its key (R109). -/
theorem take_reports {l : EventList} {key : EventKey} (h : l.admits key) (v : EventValue) (now : Stamp) :
    (l.take key v now).reports key v := by
  unfold EventList.take
  split
  · exact mergeEntry_reports key v now l.entries ‹_›
  · rename_i hm
    have hroom : l.ordinaryCount < Config.ordinaryEntries := h.resolve_left hm
    rw [if_pos hroom]
    exact ⟨newEntry key v now, by simp, rfl, v, 1, rfl⟩

theorem mem_mergeEntry_of_other {key key' : EventKey} {v : EventValue} {now : Stamp} {es : List Event} {e : Event}
    (hk : key' ≠ key) (he : e ∈ es) (hb : ∃ first w count, e.body = .ordinary key' first w count) :
    e ∈ mergeEntry key v now es := by
  obtain ⟨first, w, count, hb⟩ := hb
  induction es with
  | nil => simp at he
  | cons x es ih =>
    unfold mergeEntry
    rcases List.mem_cons.mp he with rfl | he
    · simp [hb, hk]
    · split
      · split
        · exact List.mem_cons_of_mem _ he
        · exact List.mem_cons_of_mem _ (ih he)
      · exact List.mem_cons_of_mem _ (ih he)

/-- An occurrence of one key leaves what the list reports of another (R109, R112). -/
theorem take_reports_other {l : EventList} {key key' : EventKey} {v v' : EventValue} (hk : key' ≠ key)
    (h : l.reports key' v') (now : Stamp) : (l.take key v now).reports key' v' := by
  obtain ⟨e, he, hd, first, count, hb⟩ := h
  unfold EventList.take
  split
  · exact ⟨e, mem_mergeEntry_of_other hk he ⟨_, _, _, hb⟩, hd, first, count, hb⟩
  · split
    · exact ⟨e, List.mem_append_left _ he, hd, first, count, hb⟩
    · unfold EventList.lose
      split
      · exact ⟨e, List.mem_map.mpr ⟨e, he, by simp [bumpOverflow, hb]⟩, hd, first, count, hb⟩
      · unfold EventList.spill
        split
        · exact ⟨e, List.mem_append_left _ he, hd, first, count, hb⟩
        · exact ⟨e, he, hd, first, count, hb⟩

theorem ordinaryCount_mergeEntry (key : EventKey) (v : EventValue) (now : Stamp) (es : List Event) :
    (mergeEntry key v now es).countP Event.isOrdinary = es.countP Event.isOrdinary := by
  induction es with
  | nil => rfl
  | cons e es ih =>
    unfold mergeEntry
    cases hb : e.body with
    | ordinary k first w count =>
      simp only
      split
      · simp [List.countP_cons, Event.isOrdinary, hb]
      · simp [List.countP_cons, ih]
    | overflow n => simp [List.countP_cons, ih]

/-- An occurrence makes at most one new ordinary entry (R109, R112). -/
theorem take_ordinaryCount_le (l : EventList) (key : EventKey) (v : EventValue) (now : Stamp) :
    (l.take key v now).ordinaryCount ≤ l.ordinaryCount + 1 := by
  unfold EventList.take EventList.ordinaryCount
  split
  · rw [ordinaryCount_mergeEntry]; omega
  · split
    · simp [List.countP_append, List.countP_cons, newEntry, Event.isOrdinary]
    · unfold EventList.lose
      split
      · rw [List.countP_map]
        refine Nat.le_succ_of_le (le_of_eq (List.countP_congr fun e _ => ?_))
        simp only [Function.comp, bumpOverflow]
        cases hb : e.body with
        | ordinary k first w count => simp
        | overflow n => cases hd : e.delivered <;> simp [Event.isOrdinary, hb]
      · unfold EventList.spill
        split
        · simp [List.countP_append, Event.isOrdinary]
        · simp

theorem admits_of_roomy {l : EventList} (h : l.roomy) (key : EventKey) : l.admits key := by
  unfold EventList.roomy at h
  exact .inr (by omega)

/-! ### The offers of a NOTICE (R123, R125) -/

theorem takeOccurrence_events (s : State) (key : EventKey) (v : EventValue) :
    (s.takeOccurrence key v).events = s.events.take key v s.timing.stamp := rfl

theorem noticeDropped_events (s : State) (p : PortId) :
    (s.noticeDropped p).events = s.events.take (.mgmtError p) .noticeDrop s.timing.stamp := by
  simp [State.noticeDropped, State.takeOccurrence, State.countPort]

theorem queueNotice_events (s : State) (p : PortId) (n : List Octet) : (s.queueNotice p n).events = s.events := by
  unfold State.queueNotice
  split <;> simp

/-- The offers leave a report of any key but those of the drops, and make at most two new entries. -/
theorem offerNotices_events (s : State) :
    (∀ key v, (∀ p, key ≠ .mgmtError p) → s.events.reports key v → s.offerNotices.events.reports key v) ∧
    s.offerNotices.events.ordinaryCount ≤ s.events.ordinaryCount + 2 := by
  have keep : ∀ (t : State) (p : PortId) key v, (∀ q, key ≠ .mgmtError q) → t.events.reports key v →
      (t.noticeDropped p).events.reports key v := fun t p key v hk h => by
    rw [noticeDropped_events]; exact take_reports_other (hk p) h _
  have count : ∀ (t : State) (p : PortId), (t.noticeDropped p).events.ordinaryCount ≤ t.events.ordinaryCount + 1 :=
    fun t p => by rw [noticeDropped_events]; exact take_ordinaryCount_le _ _ _ _
  have h0 : ((s.queueNotice .a s.events.notice).queueNotice .b s.events.notice).events = s.events := by
    rw [queueNotice_events, queueNotice_events]
  unfold State.offerNotices
  simp only
  split
  · rw [h0]; exact ⟨fun _ _ _ h => h, by omega⟩
  · refine ⟨fun key v hk h => keep _ _ _ _ hk (by rwa [h0]), ?_⟩
    have := count ((s.queueNotice .a s.events.notice).queueNotice .b s.events.notice) .a
    rw [h0] at this; omega
  · refine ⟨fun key v hk h => keep _ _ _ _ hk (by rwa [h0]), ?_⟩
    have := count ((s.queueNotice .a s.events.notice).queueNotice .b s.events.notice) .b
    rw [h0] at this; omega
  · have hd : (((s.queueNotice .a s.events.notice).queueNotice .b s.events.notice).useDraw).events = s.events := h0
    split
    · refine ⟨fun key v hk h => keep _ _ _ _ hk (keep _ _ _ _ hk (by rwa [hd])), ?_⟩
      refine le_trans (count _ _) (Nat.succ_le_succ (le_trans (count _ _) ?_))
      rw [hd]
    · refine ⟨fun key v hk h => keep _ _ _ _ hk (keep _ _ _ _ hk (by rwa [hd])), ?_⟩
      refine le_trans (count _ _) (Nat.succ_le_succ (le_trans (count _ _) ?_))
      rw [hd]

/-- The re-evaluation of the attention condition leaves a report of any key but those of the drops, and makes at most two
new entries (R122, R125). -/
theorem settleAttention_events (s : State) :
    (∀ key v, (∀ p, key ≠ .mgmtError p) → s.events.reports key v → s.settleAttention.events.reports key v) ∧
    s.settleAttention.events.ordinaryCount ≤ s.events.ordinaryCount + 2 := by
  unfold State.settleAttention
  split
  · exact ⟨fun _ _ _ h => h, by omega⟩
  · split
    · exact offerNotices_events (s.setEvents { s.events with attn := true, timer := startedTimer s.events.interval })
    · exact ⟨fun _ _ _ h => h, Nat.le_add_right _ _⟩

/-! ### Raising an event -/

/-- A raised event that the list admits is held as the latest of its key (R109), for every key but those of the drops. -/
theorem raise_reports {s : State} {key : EventKey} (h : s.events.admits key) (hk : ∀ p, key ≠ .mgmtError p)
    (v : EventValue) : (s.raise key v).events.reports key v :=
  (settleAttention_events (s.takeOccurrence key v)).1 _ _ hk (take_reports h v _)

/-- Raising an event leaves what the list reports of another key, but for those of the drops. -/
theorem raise_reports_other {s : State} {key key' : EventKey} {v v' : EventValue} (hne : key' ≠ key)
    (hk : ∀ p, key' ≠ .mgmtError p) (h : s.events.reports key' v') : (s.raise key v).events.reports key' v' :=
  (settleAttention_events (s.takeOccurrence key v)).1 _ _ hk (take_reports_other hne h _)

/-- Raising an event makes at most three new entries: its own and two drops of a NOTICE. -/
theorem raise_ordinaryCount_le (s : State) (key : EventKey) (v : EventValue) :
    (s.raise key v).events.ordinaryCount ≤ s.events.ordinaryCount + 3 := by
  have h1 := (settleAttention_events (s.takeOccurrence key v)).2
  have h2 := take_ordinaryCount_le s.events key v s.timing.stamp
  rw [takeOccurrence_events] at h1
  unfold State.raise
  omega

end Sys2Proof.Machine
end

