-- ==== Sys2Proof/WellFormed.lean ====
section
/-! DEFINITION. Which commands are well formed: their lists have a length that a line or a message can bring. Every
other operand is confined by its type. -/

namespace Sys2Proof

/-- A body has 2 to 124 octets (R131). A WRITE_ENTRIES body holds five octets before its entry octets (11.2), and a
hunt's happening brings at least one bit (R43). -/
def Instr.wf : Instr → Bool
  | .goodMessage _ body => decide (2 ≤ body.length) && decide (body.length ≤ 124)
  | .writeEntries _ _ _ _ _ octets => decide (octets.length ≤ 119)
  | .huntCandidate _ bits => !bits.isEmpty
  | .powerOnReset _ | .coldResetEffect _ _ | .warmResetEffect _ | .outputFrameStart _ | .swap _ | .syncCopy _
  | .syncDone _ | .leaseExpired _ | .batchLapse _ | .noticeTimerExpiry _ | .markerPosition _ _
  | .confirmationComplete _ _ | .alignmentLoss _ _ | .guardEnd _ _ _ | .inputFrameCompletion _ _ _
  | .identify _ _ | .claim _ _ | .release _ _ | .setLease _ _ _ | .reset _ _ _ | .readEntries _ _ _ _ _ _
  | .clearStandby _ _ | .resync _ _ | .commit _ _ | .abortCommit _ _ | .readBanks _ _ | .setInput _ _ _ _ _ _
  | .setOutput _ _ _ _ _ _ | .readHighway _ _ _ | .readCountersHighway _ _ _ _ | .readCountersPort _ _ _ _
  | .watch _ _ _ _ _ _ | .readSignaling _ _ _ | .fetchEvents _ _ _ | .setAttention _ _ _ _ _ _
  | .armCapture _ _ _ _ _ _ _ _ _ _ _ | .readCapture _ _ | .cancelCapture _ _ | .captureDone _ _ _ => true

end Sys2Proof
end

