-- ==== Sys2Proof/Laws/PerInstr.lean ====
section
/-! SUPPORT. One family of statements about every command as syntax: the body that a well-formed manager command sends
fits a message (R131). -/

namespace Sys2Proof.Laws.MessageLength

open Sys2Proof.Machine

/-- A well-formed manager command has a body of 2 to 124 octets (R131). -/
def Statement (i : Instr) : Prop :=
  i.wf = true → ∀ (p : PortId) (tag : Octet) (c : Command), managerCommand i = some (p, tag, c) →
    2 ≤ (c.body tag).length ∧ (c.body tag).length ≤ 124

/-- A command that no manager sends has no body. -/
theorem of_none {i : Instr} (h : managerCommand i = none) : Statement i := by
  intro _ p tag c hc
  simp [h] at hc

/-- A command with at most nine argument octets. -/
theorem of_short {i : Instr} {p : PortId} {tag : Octet} {c : Command} (h : managerCommand i = some (p, tag, c))
    (hc : c.arguments.length ≤ 9) : Statement i := by
  intro _ p' tag' c' h'
  obtain ⟨rfl, rfl, rfl⟩ : p = p' ∧ tag = tag' ∧ c = c' := by simpa [h] using h'
  simp only [Command.body, List.length_cons]
  omega

theorem powerOnReset (pins : Straps) : Statement (.powerOnReset pins) := of_none rfl

theorem coldResetEffect (pins : Straps) (order : StartOrder) : Statement (.coldResetEffect pins order) := of_none rfl

theorem warmResetEffect (order : StartOrder) : Statement (.warmResetEffect order) := of_none rfl

theorem outputFrameStart (order : StartOrder) : Statement (.outputFrameStart order) := of_none rfl

theorem swap (order : StartOrder) : Statement (.swap order) := of_none rfl

theorem syncCopy (order : StartOrder) : Statement (.syncCopy order) := of_none rfl

theorem syncDone (order : StartOrder) : Statement (.syncDone order) := of_none rfl

theorem leaseExpired (order : StartOrder) : Statement (.leaseExpired order) := of_none rfl

theorem batchLapse (order : StartOrder) : Statement (.batchLapse order) := of_none rfl

theorem noticeTimerExpiry (order : StartOrder) : Statement (.noticeTimerExpiry order) := of_none rfl

theorem huntCandidate (k : Highway) (bits : List Bool) : Statement (.huntCandidate k bits) := of_none rfl

theorem markerPosition (k : Highway) (octet : Octet) : Statement (.markerPosition k octet) := of_none rfl

theorem confirmationComplete (k : Highway) (octet : Octet) : Statement (.confirmationComplete k octet) := of_none rfl

theorem alignmentLoss (k : Highway) (octet : Octet) : Statement (.alignmentLoss k octet) := of_none rfl

theorem guardEnd (k : Highway) (frame : InFrame) (order : CompletionOrder) :
    Statement (.guardEnd k frame order) := of_none rfl

theorem inputFrameCompletion (k : Highway) (frame : InFrame) (order : CompletionOrder) :
    Statement (.inputFrameCompletion k frame order) := of_none rfl

theorem goodMessage (p : PortId) (body : List Octet) : Statement (.goodMessage p body) := of_none rfl

theorem identify (p : PortId) (tag : Octet) : Statement (.identify p tag) :=
  of_short rfl (Nat.le_of_ble_eq_true rfl)

theorem claim (p : PortId) (tag : Octet) : Statement (.claim p tag) :=
  of_short rfl (Nat.le_of_ble_eq_true rfl)

theorem release (p : PortId) (tag : Octet) : Statement (.release p tag) :=
  of_short rfl (Nat.le_of_ble_eq_true rfl)

theorem setLease (p : PortId) (tag period : Octet) : Statement (.setLease p tag period) :=
  of_short rfl (Nat.le_of_ble_eq_true rfl)

theorem reset (p : PortId) (tag scope : Octet) : Statement (.reset p tag scope) :=
  of_short rfl (Nat.le_of_ble_eq_true rfl)

theorem writeEntries (p : PortId) (tag highway first count : Octet) (octets : List Octet) :
    Statement (.writeEntries p tag highway first count octets) := by
  intro h p' tag' c' hc
  simp only [Instr.wf, decide_eq_true_eq] at h
  simp only [managerCommand, Option.some.injEq, Prod.mk.injEq] at hc
  obtain ⟨rfl, rfl, rfl⟩ := hc
  simp only [Command.body, Command.arguments, List.length_cons]
  omega

theorem readEntries (p : PortId) (tag role highway first count : Octet) :
    Statement (.readEntries p tag role highway first count) :=
  of_short rfl (Nat.le_of_ble_eq_true rfl)

theorem clearStandby (p : PortId) (tag : Octet) : Statement (.clearStandby p tag) :=
  of_short rfl (Nat.le_of_ble_eq_true rfl)

theorem resync (p : PortId) (tag : Octet) : Statement (.resync p tag) :=
  of_short rfl (Nat.le_of_ble_eq_true rfl)

theorem commit (p : PortId) (tag : Octet) : Statement (.commit p tag) :=
  of_short rfl (Nat.le_of_ble_eq_true rfl)

theorem abortCommit (p : PortId) (tag : Octet) : Statement (.abortCommit p tag) :=
  of_short rfl (Nat.le_of_ble_eq_true rfl)

theorem readBanks (p : PortId) (tag : Octet) : Statement (.readBanks p tag) :=
  of_short rfl (Nat.le_of_ble_eq_true rfl)

theorem setInput (p : PortId) (tag highway enable persistence guard : Octet) :
    Statement (.setInput p tag highway enable persistence guard) :=
  of_short rfl (Nat.le_of_ble_eq_true rfl)

theorem setOutput (p : PortId) (tag highway enable idleOctet idleCode : Octet) :
    Statement (.setOutput p tag highway enable idleOctet idleCode) :=
  of_short rfl (Nat.le_of_ble_eq_true rfl)

theorem readHighway (p : PortId) (tag highway : Octet) : Statement (.readHighway p tag highway) :=
  of_short rfl (Nat.le_of_ble_eq_true rfl)

theorem readCountersHighway (p : PortId) (tag number clear : Octet) :
    Statement (.readCountersHighway p tag number clear) :=
  of_short rfl (Nat.le_of_ble_eq_true rfl)

theorem readCountersPort (p : PortId) (tag number clear : Octet) : Statement (.readCountersPort p tag number clear) :=
  of_short rfl (Nat.le_of_ble_eq_true rfl)

theorem watch (p : PortId) (tag highway first count setting : Octet) :
    Statement (.watch p tag highway first count setting) :=
  of_short rfl (Nat.le_of_ble_eq_true rfl)

theorem readSignaling (p : PortId) (tag highway : Octet) : Statement (.readSignaling p tag highway) :=
  of_short rfl (Nat.le_of_ble_eq_true rfl)

theorem fetchEvents (p : PortId) (tag : Octet) (ack : Option Octet) : Statement (.fetchEvents p tag ack) :=
  of_short rfl (match ack with
    | none => Nat.zero_le 9
    | some _ => Nat.le_of_ble_eq_true rfl)

theorem setAttention (p : PortId) (tag maskHigh maskLow interval hold : Octet) :
    Statement (.setAttention p tag maskHigh maskLow interval hold) :=
  of_short rfl (Nat.le_of_ble_eq_true rfl)

theorem armCapture (p : PortId) (tag kind highway slot trigger a b c lengthHigh lengthLow : Octet) :
    Statement (.armCapture p tag kind highway slot trigger a b c lengthHigh lengthLow) :=
  of_short rfl (Nat.le_of_ble_eq_true rfl)

theorem readCapture (p : PortId) (tag : Octet) : Statement (.readCapture p tag) :=
  of_short rfl (Nat.le_of_ble_eq_true rfl)

theorem cancelCapture (p : PortId) (tag : Octet) : Statement (.cancelCapture p tag) :=
  of_short rfl (Nat.le_of_ble_eq_true rfl)

theorem captureDone (frame : InFrame) (completion : CompletionOrder) (start : StartOrder) :
    Statement (.captureDone frame completion start) := of_none rfl

end Sys2Proof.Laws.MessageLength
end

