-- ==== Sys2Proof/Laws/Ports.lean ====
section
/-! SUPPORT. What the port's shared operations do: places, cache entries, and a command that starts at once. -/

namespace Sys2Proof.Machine

/-! ### Places and cache entries -/

theorem fillPlace_append (r : Reservation) (m : List Octet) (x : Option Scope) (tx rest : List Place)
    (h : tx.any (Place.isReservedFor r) = false) :
    fillPlace r m x (tx ++ .reserved r :: rest) = tx ++ .message m x :: rest := by
  induction tx with
  | nil => simp [fillPlace]
  | cons a tx ih =>
    simp only [List.any_cons, Bool.or_eq_false_iff] at h
    cases a with
    | message n y => simp [fillPlace, ih h.2]
    | reserved q =>
      have hq : q ≠ r := by simpa [Place.isReservedFor] using h.1
      simp [fillPlace, hq, ih h.2]

theorem keepForCommit_append (tx rest : List Place) (h : tx.any (Place.isReservedFor .command) = false) :
    keepForCommit (tx ++ .reserved .command :: rest) = tx ++ .reserved .commit :: rest := by
  induction tx with
  | nil => simp [keepForCommit]
  | cons a tx ih =>
    simp only [List.any_cons, Bool.or_eq_false_iff] at h
    cases a with
    | message n y => simp [keepForCommit, ih h.2]
    | reserved q =>
      cases q with
      | command => simp [Place.isReservedFor] at h
      | commit => simp [keepForCommit, ih h.2]

theorem fillPlace_isReservedFor (r r' : Reservation) (m : List Octet) (x : Option Scope) (tx : List Place)
    (hr : r ≠ r') :
    (fillPlace r m x tx).any (Place.isReservedFor r') = tx.any (Place.isReservedFor r') := by
  induction tx with
  | nil => rfl
  | cons a tx ih =>
    cases a with
    | message n y => simp [fillPlace, ih, Place.isReservedFor]
    | reserved q =>
      by_cases hq : q = r
      · subst hq
        simp [fillPlace, Place.isReservedFor, hr]
      · simp [fillPlace, hq, ih, Place.isReservedFor]

theorem fillPlace_length (r : Reservation) (m : List Octet) (x : Option Scope) (tx : List Place) :
    (fillPlace r m x tx).length = tx.length := by
  induction tx with
  | nil => rfl
  | cons a tx ih =>
    cases a with
    | message n y => simp [fillPlace, ih]
    | reserved q =>
      by_cases hq : q = r <;> simp [fillPlace, hq, ih]

theorem mem_of_mem_evictDone {e : CacheEntry} {cache : List CacheEntry} (h : e ∈ evictDone cache) : e ∈ cache := by
  induction cache with
  | nil => simp [evictDone] at h
  | cons a cache ih =>
    by_cases ha : a.state.isDone = true
    · simp only [evictDone, ha, if_true] at h
      exact List.mem_cons_of_mem _ h
    · simp only [evictDone, ha, Bool.false_eq_true, if_false, List.mem_cons] at h
      rcases h with h | h
      · simp [h]
      · exact List.mem_cons_of_mem _ (ih h)

theorem completeEntry_of_absent (tag : Octet) (m : List Octet) (cache : List CacheEntry)
    (h : ∀ e ∈ cache, e.tag ≠ tag) : completeEntry tag m cache = cache := by
  unfold completeEntry
  conv_rhs => rw [← List.map_id cache]
  exact List.map_congr_left fun e he => by simp [h e he]

theorem completeEntry_insertEntry (tag : Octet) (check : Pair) (m : List Octet) (cache : List CacheEntry)
    (h : ∀ e ∈ cache, e.tag ≠ tag) :
    completeEntry tag m (insertEntry { tag := tag, check := check, state := .inProgress } cache) =
      insertEntry { tag := tag, check := check, state := .done m } cache := by
  have h' : ∀ e ∈ (if cache.length < Config.cachePlaces then cache else evictDone cache), e.tag ≠ tag := by
    intro e he
    split at he
    · exact h e he
    · exact h e (mem_of_mem_evictDone he)
  unfold insertEntry
  have := completeEntry_of_absent tag m _ h'
  unfold completeEntry at this ⊢
  rw [List.map_append, this]
  simp

/-! ### The lease in front of a command -/

theorem renewLease_setPort (s : State) (p q : PortId) (x : Port) :
    (s.setPort q x).renewLease p = (s.renewLease p).setPort q x := by
  unfold State.renewLease
  simp only [setPort_holdsLease, setPort_lease]
  split
  · exact setPort_setLease s q x _
  · rfl

@[simp] theorem renewLease_port (s : State) (p q : PortId) : (s.renewLease p).port q = s.port q := by
  unfold State.renewLease
  split <;> simp

@[simp] theorem renewLease_holdsLease (s : State) (p q : PortId) :
    (s.renewLease p).holdsLease q = s.holdsLease q := by
  unfold State.renewLease
  split
  · rename_i h
    simp only [State.holdsLease, decide_eq_true_eq] at h
    simp only [State.holdsLease, h]
    simp [State.leaseHolder, State.setLease, Lease.granted]
  · rfl

/-! ### A command that starts at once -/

theorem started_eq (s : State) (p : PortId) (tag : Octet) (c : Command) :
    s.started p tag c = (s.renewLease p).setPort p
      { s.port p with
        commands := [queuedCommand tag c]
        cache := s.cacheWith p tag c .inProgress
        transmit := (s.port p).transmit ++ [.reserved .command] } := renewLease_setPort _ _ _ _

theorem State.ready.cached {s : State} {p : PortId} {tag : Octet} (h : s.ready p tag) (ht : tag ≠ 0) :
    (s.port p).cached tag = none := by
  have := h.2.2.2.2.resolve_left ht
  simp only [Port.cached, List.find?_eq_none]
  intro e he
  simp [this e he]

/-- A command that finds its port ready is executed at once, and completes with its result (R139, R140). -/
theorem takeCommand_of_ready {s : State} {p : PortId} {tag : Octet} (h : s.ready p tag) (c : Command) :
    s.takeCommand p tag c =
      (runCommand p (queuedCommand tag c) (s.started p tag c)).1.complete p (queuedCommand tag c)
        (runCommand p (queuedCommand tag c) (s.started p tag c)).2 := by
  obtain ⟨h1, h2, h3, h4, h5⟩ := h
  have hc : (s.port p).commands.length < Config.commandPlaces := by simp [h2, Config.commandPlaces]
  have hr : s.receive p (commandMessage tag c) = s.receiveNew p (commandMessage tag c) := by
    unfold State.receive
    by_cases ht : tag = 0
    · simp [commandMessage, ht]
    · have := State.ready.cached ⟨h1, h2, h3, h4, h5⟩ ht
      simp [commandMessage, this]
  have hn : s.receiveNew p (commandMessage tag c) = s.enqueue p (commandMessage tag c) c := by
    simp [State.receiveNew, commandMessage, hc]
  have ha : s.enqueue p (commandMessage tag c) c =
      (s.setPort p { s.port p with commands := [queuedCommand tag c], cache := s.cacheWith p tag c .inProgress }).runPort p := by
    unfold State.enqueue State.cacheMessage State.cacheWith
    by_cases ht : tag = 0
    · simp [commandMessage, ht, h2, queuedCommand]
    · simp only [commandMessage, ht, if_false, port_setPort, if_true, setPort_setPort, h2, List.nil_append,
        queuedCommand]
      rfl
  rw [State.takeCommand, if_pos h1, hr, hn, ha]
  simp [State.runPort, runQueue, State.startCommand, State.executeCommand, State.reservePlace, Port.hasPlace, h3,
    Config.transmitPlaces, queuedCommand, State.started]

/-- A response completes its command: it stands where the place was reserved, and in the cache for a non-zero tag
(R140). -/
theorem complete_reply {s u : State} {p : PortId} {tag : Octet} (h : s.ready p tag) (c : Command) (r : Reply)
    (hu : u.port p = (s.started p tag c).port p) :
    u.complete p (queuedCommand tag c) (.reply r) =
      u.setPort p
        { s.port p with
          transmit := (s.port p).transmit ++ [.message (responseMessage tag c.code r) none]
          cache := s.cacheWith p tag c (.done (responseMessage tag c.code r)) } := by
  obtain ⟨h1, h2, h3, h4, h5⟩ := h
  rw [started_eq] at hu
  simp only [port_setPort, if_true] at hu
  have hc : (if tag = 0 then s.cacheWith p tag c .inProgress else
      completeEntry tag (responseMessage tag c.code r) (s.cacheWith p tag c .inProgress)) =
      s.cacheWith p tag c (.done (responseMessage tag c.code r)) := by
    unfold State.cacheWith
    by_cases ht : tag = 0
    · simp [ht]
    · simp only [ht, if_false]
      exact completeEntry_insertEntry _ _ _ _ (h5.resolve_left ht)
  simp only [State.complete, State.answerCommand, State.dropHead, hu, port_setPort, if_true, setPort_setPort,
    queuedCommand, fillPlace_append _ _ _ _ _ h4, List.drop_one, List.tail_cons, h2]
  congr 2
  rw [← hc]
  by_cases ht : tag = 0 <;> simp [ht]

/-- A command that finds its port ready and is answered without touching the ports. -/
theorem takeCommand_reply {s : State} {p : PortId} {tag : Octet} (h : s.ready p tag) (c : Command) {u : State}
    {r : Reply}
    (hrun : runCommand p (queuedCommand tag c) (s.started p tag c) = (u, .reply r))
    (hu : u.port p = (s.started p tag c).port p) :
    s.takeCommand p tag c =
      u.setPort p
        { s.port p with
          transmit := (s.port p).transmit ++ [.message (responseMessage tag c.code r) none]
          cache := s.cacheWith p tag c (.done (responseMessage tag c.code r)) } := by
  rw [takeCommand_of_ready h, hrun]
  exact complete_reply h c r hu

/-! ### A quiet framer -/

/-- A highway that carries no port has no framer to bring anything about. -/
theorem framerQuiet_of_portless {s : State} {k : Highway} (h : portOn s.straps k = none) (f : InFrame) :
    s.framerQuiet k f := by
  intro p hp
  rw [h] at hp
  cases hp

/-- Octets that complete nothing change the framer alone (R132). -/
theorem foldl_framerOctet_quiet (p : PortId) (os : List Octet) (s : State)
    (h : ∀ x ∈ (Framer.takeAll (s.port p).framer os).2, x = .none) :
    os.foldl (fun t o => t.framerOctet p o) s = s.setFramer p (Framer.takeAll (s.port p).framer os).1 := by
  induction os generalizing s with
  | nil => cases p <;> rfl
  | cons o os ih =>
    simp only [Framer.takeAll, List.mem_cons, forall_eq_or_imp] at h
    have ho : s.framerOctet p o = s.setFramer p ((s.port p).framer.take o).1 := by
      simp only [State.framerOctet, h.1]
    rw [List.foldl_cons, ho, ih]
    · simp [State.setFramer, Framer.takeAll]
    · simpa [State.setFramer] using h.2

/-- A quiet framer takes the management octets of a completed frame, and nothing else comes of them (R51, R132). -/
theorem framerFrame_quiet {s : State} {k : Highway} {f : InFrame} (h : s.framerQuiet k f) :
    s.framerFrame k f.payload =
      match portOn s.straps k with
      | some p => s.setFramer p (Framer.takeAll (s.port p).framer (mgmtOctetsOf s.straps f.payload)).1
      | none => s := by
  unfold State.framerFrame
  cases hp : portOn s.straps k with
  | none => rfl
  | some p =>
    refine foldl_framerOctet_quiet p _ s fun x hx => h p hp x ?_
    rw [show (if s.straps.four then 60 else 63) = 64 - strapWidth s.straps from by unfold strapWidth; split <;> rfl]
    exact hx

end Sys2Proof.Machine
end

