-- ==== Sys2Proof/Laws/Start.lean ====
section
/-! SUPPORT. Orders, the selection of the reading frames, and what each part of an output frame start leaves alone. -/

namespace Sys2Proof.Machine

/-! ### Orders -/

theorem mem_firstMentions {α : Type} [DecidableEq α] {x : α} {l : List α} : x ∈ firstMentions l ↔ x ∈ l := by
  induction l with
  | nil => simp [firstMentions]
  | cons y l ih =>
    by_cases h : x = y
    · simp [firstMentions, h]
    · simp [firstMentions, h, ih]

theorem firstMentions_nodup {α : Type} [DecidableEq α] (l : List α) : (firstMentions l).Nodup := by
  induction l with
  | nil => simp [firstMentions]
  | cons y l ih =>
    simp only [firstMentions, List.nodup_cons]
    exact ⟨by simp, ih.filter _⟩

/-- Every part of the start is taken, each once, whatever the order names. -/
theorem mem_startParts (order : StartOrder) (x : StartTask) : x ∈ startParts order := by
  rw [startParts, mem_firstMentions]
  refine List.mem_append_right _ ?_
  cases x with
  | slip k => revert k; decide
  | take p => cases p <;> decide
  | start p => cases p <;> decide
  | timing | swap | copy | capture | leaseTick | listTick | reset => decide

theorem startParts_nodup (order : StartOrder) : (startParts order).Nodup := firstMentions_nodup _

theorem mem_completionOrder (order : CompletionOrder) (x : CompletionTask) :
    x ∈ firstMentions (order ++ completionTasks) := by
  rw [mem_firstMentions]
  cases x <;> simp [completionTasks]

/-- A property that every part of a list of parts keeps is kept by them all. -/
theorem foldl_keeps {α σ : Type} (P : σ → Prop) (f : σ → α → σ) (l : List α) (s : σ) (h0 : P s)
    (hf : ∀ s, ∀ x ∈ l, P s → P (f s x)) : P (l.foldl f s) := by
  induction l generalizing s with
  | nil => exact h0
  | cons x l ih =>
    exact ih _ (hf _ _ (by simp) h0) fun s y hy => hf s y (by simp [hy])

/-- An output frame start keeps what its beginning and each of its parts keep. -/
theorem outputStart_induct (P : StartRun → Prop) (s : State) (order : StartOrder) (h0 : P s.beginStart)
    (ht : ∀ r x, P r → P (r.task order x)) : ∃ r, P r ∧ s.outputStart order = r.state :=
  ⟨_, ht _ _ (foldl_keeps P _ _ _ h0 fun r x _ h => ht r x h), rfl⟩

/-! ### The selection of the reading frames (R64 to R66) -/

/-- The head of the list becomes the reading frame (R64). -/
theorem selectedQueue_head {s : State} {k : Highway} {f : Payload} {rest : List Payload} (hs : s.inService k = true)
    (hf : (s.queue k).frames = f :: rest) : s.selectedQueue k = { frames := rest, reading := some f } := by
  simp [State.selectedQueue, hs, hf]

/-- An empty list leaves the queue as it was (R65, R66). -/
theorem selectedQueue_empty {s : State} {k : Highway} (hf : (s.queue k).frames = []) :
    s.selectedQueue k = s.queue k := by
  simp [State.selectedQueue, hf]

/-- Out of service nothing is selected (R66). -/
theorem selectedQueue_out {s : State} {k : Highway} (hs : s.inService k = false) : s.selectedQueue k = s.queue k := by
  simp [State.selectedQueue, hs]

@[simp] theorem selectAll_queue (s : State) (k : Highway) : s.selectAll.queue k = s.selectedQueue k := by
  simp [State.selectAll, State.queue, State.setQueues]

/-- A repeat slip is due exactly where R65 says. -/
theorem repeats_iff (s : State) (k : Highway) :
    s.repeats k = true ↔ s.inService k = true ∧ (s.queue k).frames = [] ∧ ∃ f, (s.queue k).reading = some f := by
  simp [State.repeats, Option.isSome_iff_exists, and_assoc]

theorem mem_highways (k : Highway) : k ∈ highways := by
  revert k; decide

/-- A repeat slip changes the counters of its highway and the news alone (R65, R70). -/
theorem repeatSlip_frame (s : State) (k : Highway) :
    (s.countHighway k fun c => { c with repeatSlips := saturate c.repeatSlips }).sameButNews (s.repeatSlip k) :=
  sameButNews_raise _ _ _

/-! ### What a start finds -/

theorem dueSwap_eq_some (s : State) (r : PendingCommit) :
    s.dueSwap = some r ↔ s.boundaryNext = true ∧ s.engine = .pending r := by
  unfold State.dueSwap Engine.record
  cases s.boundaryNext <;> cases s.engine <;> simp

theorem dueSwap_isSome (s : State) : s.dueSwap.isSome = s.swapsNext := by
  unfold State.dueSwap State.swapsNext
  cases s.boundaryNext <;> cases s.engine <;> rfl

/-- The frames are built from the new timing, the selected reading frames and the bank that is ACTIVE after the swap
(R25, R64, R75, R78), and from nothing else that has changed. -/
theorem frameState_eq (s : State) :
    s.frameState = ((s.setTiming s.timing.advance).setQueues (Vector.ofFn fun k => s.selectedQueue k)).setActiveBank
      s.nextActive := by
  unfold State.frameState State.nextActive
  rw [dueSwap_isSome]
  split <;> rfl

/-- The beginning of a start changes the frame queues and the lines alone. -/
theorem beginStart_state (s : State) :
    s.beginStart.state =
      { s with
        queues := Vector.ofFn fun k => s.selectedQueue k
        outputs := Vector.ofFn fun k => s.frameState.nextOutput k } := rfl

/-! ### The parts of a start -/

/-- The outcome of a swap changes the ports, the event list and the count of free values alone (R25, R26). -/
theorem sameButNews_answerCommit (s : State) (r : PendingCommit) (reply : Reply) :
    s.sameButNews (s.answerCommit r reply) := by
  unfold State.answerCommit
  simp only
  split
  · exact sameButNews_setPort _ _ _
  · exact sameButNews_refl s

/-- A swap exchanges the bank roles, starts the sync, and changes nothing else but the news (R25, R26). -/
theorem makeSwap_frame (s : State) (r : PendingCommit) :
    ((s.setActiveBank s.standbyBank).setEngine (.syncing 0 noMarks)).sameButNews (s.makeSwap r) :=
  sameButNews_trans (sameButNews_answerCommit _ _ _) (sameButNews_raise _ _ _)

/-- The tick at the lease unit changes the lease and the news alone (R154). -/
theorem leaseTick_frame (s : State) : (s.setLease s.leaseTick.lease).sameButNews s.leaseTick := by
  unfold State.leaseTick
  split
  · rfl
  · split
    · rw [show ((s.setLease s.lease.freed).raise (.lease _) .expired).lease = s.lease.freed from by
        rw [sameButNews_raise]; rfl]
      exact sameButNews_raise _ _ _
    · rfl

/-- The sync step changes the STANDBY bank, the engine and the news alone (R29). -/
theorem syncStep_frame (s : State) :
    s.syncStep.activeBank = s.activeBank ∧ s.syncStep.bank s.activeBank = s.bank s.activeBank ∧
    s.syncStep.receivers = s.receivers ∧ s.syncStep.queues = s.queues ∧ s.syncStep.timing = s.timing ∧
    s.syncStep.outputs = s.outputs ∧ s.syncStep.sups = s.sups ∧ s.syncStep.lease = s.lease ∧
    s.syncStep.capture = s.capture ∧ s.syncStep.straps = s.straps ∧ s.syncStep.pins = s.pins ∧
    s.syncStep.pending = s.pending := by
  have hn := fun (t : State) key v => sameButNews_raise t key v
  unfold State.syncStep
  split
  · simp only
    split
    · rw [hn]
      unfold State.copyHighway State.standbyBank
      cases h : s.activeBank <;> simp [State.bank, State.setBank, otherBank, State.setEngine, h]
    · unfold State.copyHighway State.standbyBank
      cases h : s.activeBank <;> simp [State.bank, State.setBank, otherBank, State.setEngine, h]
  · simp
  · simp

/-- A port gives its octets once. -/
theorem takeOctets_of_taken {r : StartRun} {p : PortId} (h : p ∈ r.taken) : r.takeOctets p = r := if_pos h

/-- An assembler hands over its octets once at a start (R163). -/
theorem handOctet_of_handed {r : StartRun} {h : Highway} (hh : h ∈ r.handed) : r.handOctet h = r := if_pos hh

/-- While the unit has no output source the octets of a start are disregarded, and no assembler hands them over again
(R163). -/
theorem handOctet_of_no_source {r : StartRun} {h : Highway} (hh : h ∉ r.handed)
    (hj : ∀ k n job, r.state.capture.phase.job = some job → job.source ≠ .output k n) :
    r.handOctet h = { r with handed := h :: r.handed } := by
  unfold StartRun.handOctet
  rw [if_neg hh]
  split
  · rename_i hk
    exact absurd rfl (hj _ _ _ hk)
  · rfl
  · rfl

/-- Once the octets of a start have been handed over, handing over does nothing more (R163). -/
theorem takeCapture_of_handed {r : StartRun} (hh : ∀ h, h ∈ r.handed) : r.takeCapture = r := by
  unfold StartRun.takeCapture
  induction highways with
  | nil => rfl
  | cons h hs ih => rw [List.foldl_cons, handOctet_of_handed (hh h), ih]

/-- Handing over puts the highway on the list and takes none off it. -/
theorem mem_handOctet (r : StartRun) (h k : Highway) : k ∈ (r.handOctet h).handed ↔ k = h ∨ k ∈ r.handed := by
  unfold StartRun.handOctet
  split
  · rename_i hh
    exact ⟨.inr, fun x => x.elim (fun e => e ▸ hh) id⟩
  · split
    · split <;> exact List.mem_cons
    · exact List.mem_cons
    · exact List.mem_cons

/-- After the part of the capture unit every assembler has handed over its octets (R163). -/
theorem mem_takeCapture (r : StartRun) (k : Highway) : k ∈ r.takeCapture.handed := by
  have hf : ∀ (hs : List Highway) (r : StartRun), k ∈ hs ∨ k ∈ r.handed →
      k ∈ (hs.foldl StartRun.handOctet r).handed := by
    intro hs
    induction hs with
    | nil => exact fun r hr => hr.elim (fun x => by cases x) id
    | cons h hs ih =>
      intro r hr
      refine ih _ ?_
      rw [mem_handOctet]
      rcases hr with hr | hr
      · exact (List.mem_cons.mp hr).elim (fun e => .inr (.inl e)) .inl
      · exact .inr (.inr hr)
  exact hf _ r (.inl (mem_highways k))

/-- What the swap is to be touches the lines alone, and no enable and no idle setting (R24, R25, R28). -/
theorem setSwap_state (r : StartRun) (c : Option PendingCommit) :
    (r.setSwap c).state = { r.state with outputs := (r.setSwap c).state.outputs } ∧
    ∀ k, (r.setSwap c).state.output k = { r.state.output k with line := ((r.setSwap c).state.output k).line } := by
  unfold StartRun.setSwap
  split
  · exact ⟨rfl, fun _ => rfl⟩
  · refine ⟨rfl, fun k => ?_⟩
    simp [State.rebuildFrames, State.output, State.setOutputs]

/-- The swap to be made after `setSwap`, and the bank that the frames are built from: it changes with the swap. -/
theorem setSwap_swap (r : StartRun) (c : Option PendingCommit) :
    (r.setSwap c).swap = c ∧ (r.setSwap c).frame.activeBank =
      if c.isSome = r.swap.isSome then r.frame.activeBank else otherBank r.frame.activeBank := by
  unfold StartRun.setSwap
  split <;> exact ⟨rfl, rfl⟩

/-- Once the boundary has been taken no command changes what it found (R24, R28). -/
theorem checkSwap_of_begun {r : StartRun} (h : r.begun = true) : r.checkSwap = r := by
  simp [StartRun.checkSwap, h]

/-- A command waits for no part of the start but for those that `StartRun.before` names. -/
theorem before_of_other {r : StartRun} {c : Command} (ha : c ≠ .abortCommit)
    (ho : ∀ a b d e, c ≠ .setOutput a b d e) (hr : ∀ a, c ≠ .readHighway a) : r.before c = r := by
  cases c with
  | abortCommit => exact absurd rfl ha
  | setOutput a b d e => exact absurd rfl (ho a b d e)
  | readHighway a => exact absurd rfl (hr a)
  | _ => rfl

/-- Nothing of a start is left after a cold reset (R146). -/
theorem task_of_cold {r : StartRun} (h : r.cold = true) (order : StartOrder) (x : StartTask) : r.task order x = r :=
  if_pos h

/-- The octets that a port gives touch nothing but its port and the lines (R81, R141, R143). -/
theorem takeOctets_frame (r : StartRun) (p : PortId) :
    (r.takeOctets p).state =
      { r.state with
        portA := (r.takeOctets p).state.portA
        portB := (r.takeOctets p).state.portB
        outputs := (r.takeOctets p).state.outputs } := by
  unfold StartRun.takeOctets
  split
  · rfl
  · simp only
    split <;> split <;> cases p <;> rfl

end Sys2Proof.Machine
end

