-- ==== Sys2Proof/Tests/Slice0.lean ====
section
/-! SUPPORT. Small tests with results taken from the spec, and for each statement with hypotheses a state and operands
that meet them. -/

namespace Sys2Proof.Tests

set_option Elab.async false

open Sys2Proof Sys2Proof.Machine

/-! ### States to test on -/

/-- Port A's highway 0 is in service. -/
def upState : State := (State.powerOn lowStraps).setReceiver 0 { initialReceiver with align := .aligned 3 }

/-- Port A holds the lease with 100 ticks left. -/
def heldState : State := upState.setLease { holder := some { port := .a, remaining := 100 }, period := 125 }

/-- Both ports, at width four: port A on pair 0 and port B on pair 1, both in service. -/
def pairState : State :=
  ((State.powerOn { ma := 0, mbe := true, mb := 1, four := true }).setReceiver 0
    { initialReceiver with align := .aligned 3 }).setReceiver 1 { initialReceiver with align := .aligned 9 }

/-- A waiting message of six octets. -/
def waitingMessage : Place := .message [1, 2, 3, 4, 5, 6] none

/-- A frame of zeros. -/
def zeroFrame : InFrame := { sig1 := 0, sig2 := 0, payload := Vector.replicate 64 0 }

def countingPayload : Payload := Vector.ofFn fun n : Slot => BitVec.ofNat 8 n.val

/-- Highway 2 in service in the alignment state given, with a frame arriving. -/
def arriving (a : Align) (s : State) : State := s.setReceiver 2 { initialReceiver with align := a, inFrame := true }

/-- Highway 2 at a marker position. -/
def atMarker (a : Align) (s : State) : State := s.setReceiver 2 { initialReceiver with align := a, inFrame := false }

/-- The last frame of a multiframe is being sent, and the boundary that follows hands out a tick. -/
def tickDue (s : State) : State := s.setTiming { frame := 15, stamp := 7, startPending := false }

def oneEvent : Event :=
  { body := .ordinary .commit .aborted .aborted 1, created := 0, updated := 0, delivered := false }

/-- A batch of port A with one DELIVERED entry. -/
def batched (hold : Octet) (s : State) : State :=
  s.setEvents
    { s.events with
      entries := [{ oneEvent with delivered := true }], batchNumber := 1, batch := some { port := .a, hold := hold } }

/-- A capture that lacks one octet. -/
def running (x : Source) : Capture :=
  { phase := .running { source := x, trigger := .now, length := 5 } 4 9, filling := [1, 2, 3, 4], ready := [],
    nextSequence := 7 }

/-- The response of an accepted RESET, of which one octet is left. -/
def resetting (x : Scope) (s : State) : State :=
  s.setPort .a
    { s.portA with
      transmit := [.message [9] (some x)], commands := [{ queuedCommand 1 (.reset 0) with started := true }] }

/-- A test of the next state. -/
def after (o : Host.Outcome State Fault Refusal) (test : State → Bool) : Bool :=
  match o with
  | .next t => test t
  | .fault _ => false
  | .refused _ => false

/-- The status octet and data of the last message waiting at a port. -/
def answer (s : State) (p : PortId) : List Octet :=
  match (s.port p).transmit.getLast? with
  | some (.message m _) => (m.drop 4).dropLast.dropLast
  | _ => []

/-! ### WellFormed refuses what no message and no line can bring (R131, R43) -/

theorem test_wf_short_body : (Instr.goodMessage .a [1]).wf = false := by decide
theorem test_wf_long_body : (Instr.goodMessage .a (List.replicate 125 0)).wf = false := by decide +kernel
theorem test_wf_longest_body : (Instr.goodMessage .a (List.replicate 124 0)).wf = true := by decide +kernel
theorem test_wf_long_entries : (Instr.writeEntries .a 1 0 0 24 (List.replicate 120 0)).wf = false := by decide +kernel
theorem test_wf_longest_entries : (Instr.writeEntries .a 1 0 0 24 (List.replicate 119 0)).wf = true :=
    by decide +kernel
theorem test_wf_no_bits : (Instr.huntCandidate 0 []).wf = false := by decide
theorem test_wf_one_bit : (Instr.huntCandidate 0 [true]).wf = true := by decide

/-! ### Words -/

/-- No row of the table gives bits. -/
theorem test_table_word : decodeTableWord 16 0x0C28 = none := by decide

/-- SLOT FOLLOW from IH5/TS20, conditioning octet D5H and code 9 (11.3). -/
theorem test_entry_follow :
    (Entry.octets { content := .slot 5 20 .follow, condOctet := 0xD5, condCode :=
        9 }) = [0x65, 0x14, 0xD5, 0x09] := by
  decide

/-- A received SLOT FIXED entry (11.3): the reserved bits 4 and 3 are disregarded. -/
theorem test_entry_fixed :
    RawEntry.entry ⟨0x5D, 0x14, 0xD5, 0x39⟩ =
      { content := .slot 5 20 (.fixed 3), condOctet := 0xD5, condCode := 9 } := by decide

/-- The check register over no octets stays at FFFFH (R131). -/
theorem test_check_start : checkOf [] = 0xFFFF := by decide

/-- The check of the nine octets 31H to 39H under the generator of R131, started at FFFFH and sent as it stands, is
29B1H: the published check value of this code. -/
theorem test_check_value : checkOf [0x31, 0x32, 0x33, 0x34, 0x35, 0x36, 0x37, 0x38, 0x39] = 0x29B1 :=
    by decide +kernel

/-! ### Commands, one small step each -/

/-- R88: frames begin with frame 0 of multiframe 0, and MBE brings port B (R129). -/
theorem test_power_on : after (exec (.powerOnReset { ma := 2, mbe := true, mb := 4, four := false }) heldState)
    (fun t => t.timing.startPending && t.portEnabled .b && (t.activeEntry 4 63 == protectedEntry)) = true := by
  decide +kernel

/-- R146: a cold reset samples the straps. -/
theorem test_cold_reset : after (exec (.coldResetEffect { ma := 3, mbe := false, mb := 0, four :=
    true } standingOrder)
    (resetting .cold heldState)) (fun t => t.straps.four && (t.activeEntry 3 60 == protectedEntry) &&
        t.portA.commands.isEmpty) =
    true := by decide +kernel

/-- R160: a warm reset frees the lease and keeps the period. -/
theorem test_warm_reset : after (exec (.warmResetEffect standingOrder) (resetting .warm heldState))
    (fun t => t.lease.holder.isNone && t.lease.period == 125 && t.portA.transmit.isEmpty) = true := by decide +kernel

/-- R53, R79: the first frame has the number 0, and RA = 0 for highway 0, which is ALIGNED,
    1 for highway 1 in SEARCH. -/
theorem test_frame_start : after (exec (.outputFrameStart standingOrder) upState)
    (fun t => (t.output 0).line[0] == 0xA0 && (t.output 1).line[0] == 0xB0) = true := by decide +kernel

/-- R25, R26: bank 1 becomes ACTIVE at the boundary, and SWAPPED has the value 11H (11.5). -/
theorem test_swap : after (exec (.swap standingOrder)
    (upState.setEngine (.pending { port := .a, tag := 1, cached := true })))
    (fun t => t.activeBank == .one && t.engine == .syncing 0 noMarks &&
        (t.events.entries.map fun e => e.octets.take 4) == [[0x50, 0x00, 0x11, 0x11]]) = true := by decide +kernel

/-- R29: one highway is copied. -/
theorem test_sync_copy : after (exec (.syncCopy standingOrder) (upState.setEngine (.syncing 3 noMarks)))
    (fun t => t.engine == .syncing 4 noMarks) = true := by decide +kernel

/-- R29: SYNC_DONE has the value 30H (11.5). -/
theorem test_sync_done : after (exec (.syncDone standingOrder) (upState.setEngine (.syncing 7 noMarks)))
    (fun t => t.engine == .idle &&
        (t.events.entries.map fun e => e.octets.take 4) == [[0x50, 0x00, 0x30, 0x30]]) = true := by
  decide +kernel

/-- R154: LEASE EXPIRED of port A is 60H with the value 01H (11.4, 11.5). -/
theorem test_lease_expired : after (exec (.leaseExpired standingOrder)
    ((tickDue heldState).setLease { holder := some { port := .a, remaining := 1 }, period := 125 }))
    (fun t => t.lease.holder.isNone &&
        (t.events.entries.map fun e => e.octets.take 4) == [[0x60, 0x00, 0x01, 0x01]]) = true := by
  decide +kernel

/-- R119, R122: a lapse asserts ATTN. -/
theorem test_batch_lapse : after (exec (.batchLapse standingOrder) (tickDue (batched 1 upState)))
    (fun t => t.events.lapsed && t.events.attn) = true := by decide +kernel

/-- R124: the timer restarts at the interval of 32. The order takes the tick before the octets, so TS63 carries the lead
octet of the NOTICE (R143). -/
theorem test_notice_timer : after (exec (.noticeTimerExpiry { standingOrder with tasks := [.listTick] })
    (tickDue (upState.setEvents
    { initialEvents with
      entries := [{ oneEvent with body := .ordinary (.alignState 2) .inService .inService 1 }]
      attn := true, timer := some 1 })))
    (fun t => t.events.timer == some 32 && (t.output 0).line[66] == 0xB4) = true := by decide +kernel

/-- R65, R77: a repeat slip of a start at a boundary carries the stamp of either multiframe. -/
theorem test_slip_stamp :
    [(.slip 3 : StartTask), .timing].map (fun x => after
      (exec (.outputFrameStart { standingOrder with tasks := [x] }) (tickDue ((upState.setReceiver 3
        { initialReceiver with align := .aligned 3 }).setQueue 3 { frames := [], reading := some zeroFrame.payload })))
      (fun t => t.events.entries.map (·.created) == [if x = .timing then 8 else 7])) = [true, true] := by
  decide +kernel

/-- A command waits at port A, and the next start frees a place for it. -/
def waitsAtA (c : Command) (s : State) : State :=
  s.setPort .a
    { initialPort with
      commands := [queuedCommand 9 c], transmit := .message [5] none :: List.replicate 5 waitingMessage }

/-- R85, R168: the start has placed the octet FFH of TS9 of highway 3, so the capture stores it, and is DONE, before the
SET_OUTPUT that the start lets start disables the highway. -/
theorem test_set_output_after_octet : after
    (exec (.outputFrameStart { standingOrder with tasks := [.start .a, .capture] })
      (waitsAtA (.setOutput 3 0 0xFF 0) (heldState.setCapture (running (.output 3 9)))))
    (fun t => !(t.output 3).enabled && t.capture.ready == [⟨7, true, [1, 2, 3, 4, 0xFF]⟩]) = true := by decide +kernel

/-- R163: an octet handed over before an ARM_CAPTURE of port A is not stored, and one handed over after it is, whatever a
SET_OUTPUT of port B at the same start asks of that octet. -/
theorem test_arm_and_octet :
    [[StartTask.capture, .start .a, .start .b], [.start .a, .capture, .start .b]].map (fun o => after
      (exec (.outputFrameStart { standingOrder with tasks := o })
        (([(PortId.a, Command.armCapture 1 3 9 0 0 0 0 0 10), (.b, .setOutput 3 1 0xFF 0)].foldl (fun s x => s.setPort x.1
          { initialPort with
            commands := [queuedCommand 9 x.2]
            transmit := .message [5, 5, 5, 5] none :: List.replicate 5 waitingMessage }) pairState).setLease
              heldState.lease))
      (fun t => t.capture.filling.length == (if o.head? = some .capture then 0 else 1) &&
        t.capture.phase.job.isSome && t.portB.commands.isEmpty)) = [true, true] := by decide +kernel

/-- R124: with an interval of 1 the timer does not expire at a tick that a delivery comes before. A tick taken first offers
a NOTICE, here dropped at a full queue (R125). -/
theorem test_delivery_and_tick :
    [[StartTask.start .a, .listTick], [.listTick, .start .a]].map (fun o => after
      (exec (.outputFrameStart { standingOrder with tasks := o })
        (waitsAtA (.fetchEvents none) (tickDue (upState.setEvents
          { initialEvents with
            entries := List.replicate 13 { oneEvent with body := .ordinary (.alignState 2) .inService .inService 1 }
            attn := true, interval := 1, timer := some 1 }))))
      (fun t => t.events.attn && t.events.timer == some 1 &&
        t.portA.counters.dropped == if o.head? = some .listTick then 1 else 0)) = [true, true] := by decide +kernel

/-- R111: a FETCH_EVENTS that a boundary lets start reaches the list before SWAPPED or after it. -/
theorem test_fetch_and_swap :
    [[StartTask.start .a, .swap], [.swap, .start .a]].map (fun o => after
      (exec (.outputFrameStart { standingOrder with tasks := o })
        ((waitsAtA (.fetchEvents none) (tickDue upState)).setEngine (.pending { port := .b, tag := 1, cached := false })))
      (fun t => t.events.entries.map (·.delivered) == [o.head? == some .swap])) = [true, true] := by decide +kernel

/-- R24: a COMMIT that a boundary lets start swaps there, or at the next boundary. -/
theorem test_commit_and_boundary :
    [[StartTask.start .a], [.timing, .start .a]].map (fun o => after
      (exec (.outputFrameStart { standingOrder with tasks := o }) (waitsAtA .commit (tickDue heldState)))
      (fun t => t.activeBank == (if o.length = 1 then .one else .zero) && t.engine.isPending == (o.length == 2))) =
    [true, true] := by decide +kernel

/-- R28, R77: an ABORT_COMMIT that a boundary lets start cancels the commit, with the stamp of the multiframe that ends,
or comes after the swap. -/
theorem test_abort_and_boundary :
    [[StartTask.start .a], [.timing, .start .a]].map (fun o => after
      (exec (.outputFrameStart { standingOrder with tasks := o })
        ((waitsAtA .abortCommit (tickDue heldState)).setEngine (.pending { port := .b, tag := 1, cached := false })))
      (fun t => t.events.entries.map (fun e => (e.octets.take 4, e.created)) ==
        [if o.length = 1 then ([0x50, 0x00, 0x20, 0x20], 7) else ([0x50, 0x00, 0x11, 0x11], 8)])) = [true, true] := by
  decide +kernel

/-- R43: the candidate 1011 0110 is number 6, so 7 is expected. -/
theorem test_hunt : after (exec (.huntCandidate 2 [false, true, false, true, true, false, true, true, false]) upState)
    (fun t => (t.receiver 2).align == .confirm 7 0 [true, false, true, true, false, true, true, false]) = true := by
  decide +kernel

/-- R47: a bad marker sends ALIGNED to FLYWHEEL with count 1. -/
theorem test_marker_bad : after (exec (.markerPosition 2 0xA4) (atMarker (.aligned 5) upState))
    (fun t => (t.receiver 2).align == .flywheel 6 1 && (t.receiver 2).counters.markerErrors == 1) = true := by
  decide +kernel

/-- R54: a good marker with RA raises REMOTE_ALARM of highway 2, 32H. -/
theorem test_marker_ra : after (exec (.markerPosition 2 0xB5) (atMarker (.aligned 5) upState))
    (fun t => (t.receiver 2).receivedRA &&
        (t.events.entries.map fun e => e.octets.take 4) == [[0x32, 0x00, 0x01, 0x01]]) = true := by
  decide +kernel

/-- R44: with G = 4 the third good marker enters GUARD. -/
theorem test_confirmation : after (exec (.confirmationComplete 2 0xA5) (atMarker (.confirm 5 2 []) upState))
    (fun t => (t.receiver 2).align == .guard 6 4) = true := by decide +kernel

/-- R48: alignment is lost at the fourth bad marker. -/
theorem test_alignment_loss : after (exec (.alignmentLoss 2 0x00) (atMarker (.flywheel 5 3) upState))
    (fun t => (t.receiver 2).align == .search [] && (t.receiver 2).counters.alignmentLosses == 1) = true := by
  decide +kernel

/-- R46, R52: the guard ends in service. -/
theorem test_guard_end : after (exec (.guardEnd 2 zeroFrame []) (arriving (.guard 0 1) upState))
    (fun t => t.inService 2 &&
        (t.events.entries.map fun e => e.octets.take 4) == [[0x22, 0x00, 0x01, 0x01]]) = true := by
  decide +kernel

/-- R62: a completed frame is queued. -/
theorem test_completion : after (exec (.inputFrameCompletion 2 { zeroFrame with payload := countingPayload } [])
    (arriving (.aligned 7) upState)) (fun t => (t.queue 2).frames == [countingPayload]) = true := by decide +kernel

/-- R63: the fourth frame pushes the oldest out. -/
theorem test_completion_slip : after (exec (.inputFrameCompletion 2 zeroFrame [])
    ((arriving (.aligned 7) upState).setQueue 2 { frames :=
        [countingPayload, zeroFrame.payload, zeroFrame.payload], reading := none }))
    (fun t => (t.receiver 2).counters.dropSlips == 1 && (t.queue 2).frames.length == 3 &&
        (t.queue 2).frames.all (· == zeroFrame.payload)) = true := by
  decide +kernel

/-- R136: code 06H is none of the part's. The response code is 86H, the status 03H. -/
theorem test_unknown : after (exec (.goodMessage .a [7, 0x06]) upState)
    (fun t => t.portA.transmit.map (fun | .message m _ => m.take 5 | .reserved _ => []) == [[0xB4, 3, 7, 0x86,
        0x03]]) = true := by
  decide +kernel

/-- R144: vendor 6BH, part 0832H, revision 01H. -/
theorem test_identify : after (exec (.identify .a 1) upState)
    (fun t => answer t .a == [0x00, 0x6B, 0x08, 0x32, 0x01, 0, 0, 0, 0, 1, 0]) = true := by decide +kernel

/-- R151: the period is 125, 7DH. -/
theorem test_claim : after (exec (.claim .a 1) upState)
    (fun t => answer t .a == [0x00, 0, 0x7D, 0x7D, 0]) = true := by
  decide +kernel

theorem test_release : after (exec (.release .a 1) heldState) (fun t => answer t .a == [0x00, 0x7D] &&
    t.lease.holder.isNone) = true := by
  decide +kernel

theorem test_set_lease : after (exec (.setLease .a 1 10) heldState)
    (fun t => t.lease == { holder := some { port := .a, remaining := 10 }, period := 10 }) = true := by decide +kernel

/-- R145: the accepted RESET waits at the head. -/
theorem test_reset : after (exec (.reset .a 1 1) heldState)
    (fun t => answer t .a == [0x00, 1] && t.portA.commands.length == 1) = true := by decide +kernel

/-- R10, R2: a CONSTANT entry for OH6/TS9. -/
theorem test_write_entries : after (exec (.writeEntries .a 1 6 9 1 [0x80, 0x55, 0xFF, 0x20]) heldState)
    (fun t => t.standbyEntry 6 9 == { content := .constant 0x55 2, condOctet := 0xFF, condCode := 0 } &&
        t.activeEntry 6 9 == initialEntry) =
    true := by decide +kernel

/-- R12: TS63 of OH0 is protected, and the index of the offending entry is 1. -/
theorem test_write_entries_protected :
    after (exec (.writeEntries .a 1 0 62 2 [0x80, 0x55, 0xFF, 0x20, 0x80, 0x55, 0xFF, 0x20]) heldState)
    (fun t => answer t .a == [0x07, 1] && t.standbyEntry 0 62 == initialEntry) = true := by decide +kernel

theorem test_read_entries : after (exec (.readEntries .a 1 0 0 62 2) upState)
    (fun t => answer t .a == [0x00, 0, 0, 62, 2, 0x00, 0x00, 0xFF, 0x00, 0xC0, 0x00, 0xFF, 0x00]) = true :=
        by decide +kernel

theorem test_clear_standby : after (exec (.clearStandby .a 1) (heldState.setEngine (.syncing 2 noMarks)))
    (fun t => t.engine == .idle &&
        (t.events.entries.map fun e => e.octets.take 4) == [[0x50, 0x00, 0x40, 0x40]]) = true := by
  decide +kernel

theorem test_resync : after (exec (.resync .a 1) heldState) (fun t => t.engine == .syncing 0 noMarks &&
    answer t .a == [0, 0]) = true := by
  decide +kernel

theorem test_commit : after (exec (.commit .a 1) heldState)
    (fun t => t.portA.transmit == [.reserved .commit]) = true := by
  decide +kernel

/-- R27, 2.11: the abort comes too late once the engine is SYNCING. -/
theorem test_abort_late : after (exec (.abortCommit .a 1) (heldState.setEngine (.syncing 2 noMarks)))
    (fun t => answer t .a == [0x0B, 0, 2]) = true := by decide +kernel

theorem test_read_banks :
    after (exec (.readBanks .a 1) upState) (fun t => answer t .a == [0, 0, 0, 0xFF, 0, 0, 0, 0]) = true := by
  decide +kernel

theorem test_set_input : after (exec (.setInput .a 1 5 0 7 15) heldState)
    (fun t => answer t .a == [0, 5, 0, 7, 15, 0] && (t.receiver 5).align == .disabled) = true := by decide +kernel

/-- R55: port A's highway cannot be disabled. -/
theorem test_set_input_own :
    after (exec (.setInput .a 1 0 0 7 15) heldState) (fun t => answer t .a == [0x07]) = true := by
  decide +kernel

theorem test_set_output : after (exec (.setOutput .a 1 3 1 0x54 13) heldState)
    (fun t => (t.output 3).idleOctet == 0x54 && (t.output 3).idleCode == 13) = true := by decide +kernel

/-- R56, R87: highway 5 in SEARCH, with no port and not yet a frame. -/
theorem test_read_highway : after (exec (.readHighway .a 1 5) upState)
    (fun t => answer t .a == [0, 5, 1, 2, 4, 1, 0, 0xFF, 0xFF, 0xFF, 0xFF, 0, 1, 0, 0, 1, 0xFF, 0, 0xFF, 0, 0,
        0]) = true := by
  decide +kernel

theorem test_read_counters_highway : after (exec (.readCountersHighway .a 1 2 0) upState)
    (fun t => answer t .a == [0, 0, 2, 0, 0, 0, 0, 0, 0, 0, 0]) = true := by decide +kernel

/-- R148: the figures include the reading command itself. Port B is disabled: its items are absent. -/
theorem test_read_counters_port : after (exec (.readCountersPort .a 1 0 0) upState)
    (fun t => answer t .a == [0, 1, 0, 1, 0, 0, 0, 0, 0, 0, 0, 0, 0, 0, 0, 1, 1, 1, 1, 1]) = true := by decide +kernel

theorem test_read_counters_port_b : after (exec (.readCountersPort .a 1 1 0) upState)
    (fun t => answer t .a == [0, 1, 1, 0, 0, 0, 0, 0, 0, 0, 0, 0, 0, 0, 0xFF, 0xFF, 0xFF, 0xFF, 0xFF,
        0xFF]) = true := by
  decide +kernel

theorem test_watch : after (exec (.watch .a 1 4 60 4 1) heldState)
    (fun t => answer t .a == [0, 4, 60, 4, 1, 4] && (t.slotState 4 63).watched &&
        !(t.slotState 4 59).watched) = true := by
  decide +kernel

theorem test_read_signaling :
    after (exec (.readSignaling .a 1 8) upState) (fun t => answer t .a == [0x04]) = true := by
  decide +kernel

/-- R114: nothing is outstanding, so an acknowledgement is stale. -/
theorem test_fetch_stale :
    after (exec (.fetchEvents .a 1 (some 0)) upState) (fun t => (answer t .a).headD 0 == 0x0D) = true := by
  decide +kernel

/-- R126: a hold time of 0 is out of range. -/
theorem test_set_attention :
    after (exec (.setAttention .a 1 0xFF 0x22 0 0) heldState) (fun t => answer t .a == [0x04]) = true := by
  decide +kernel

theorem test_set_attention_mask : after (exec (.setAttention .a 1 0xFF 0x22 5 6) heldState)
    (fun t => answer t .a == [0, 0x01, 0x22, 5, 6, 0]) = true := by decide +kernel

/-- R162: a length of 1025 is out of range. -/
theorem test_arm_capture :
    after (exec (.armCapture .a 1 0 2 9 1 0x7E 0 0 4 1) heldState) (fun t => answer t .a == [0x04]) = true := by
  decide +kernel

theorem test_read_capture : after (exec (.readCapture .a 1)
    (upState.setCapture
      { initialCapture with
        phase := .ended .done { source := .input 2 9, trigger := .now, length := 2 } 2 3
        ready := [⟨6, true, [8, 9]⟩] }))
    (fun t => answer t .a == [0, 3, 6, 2, 1, 0, 0, 2, 0, 0, 3, 8, 9]) = true := by decide +kernel

theorem test_cancel_capture : after (exec (.cancelCapture .a 1) (heldState.setCapture (running (.input 2 9))))
    (fun t => answer t .a == [0, 2, 0] && t.capture.nextSequence == 7) = true := by decide +kernel

theorem test_capture_done : after (exec (.captureDone { zeroFrame with payload := countingPayload } [] standingOrder)
    ((arriving (.aligned 7) upState).setCapture (running (.input 2 9))))
    (fun t => t.capture.ready == [⟨7, true, [1, 2, 3, 4, 9]⟩]) = true := by decide +kernel

/-! ### States and operands that meet the hypotheses of the statements -/

/-- Port A with commands waiting behind an accepted RESET and with messages waiting. -/
def queuedState (commands messages : Nat) : State :=
  upState.setPort .a
    { initialPort with
      commands := List.replicate commands { queuedCommand 9 .commit with started := true }
      transmit := List.replicate messages waitingMessage }

/-- Port A with a cache entry for a COMMIT of tag 1, and messages waiting. -/
def cachedState (check : Pair) (x : CacheState) (messages : Nat) : State :=
  upState.setPort .a
    { initialPort with
      cache := [{ tag := 1, check := check, state := x }], transmit := List.replicate messages waitingMessage }

/-- A commit of port A that is pending, with its place and its cache entry. -/
def pendingState : State :=
  (heldState.setPort .a
    { initialPort with
      cache := [{ tag := 9, check := 0, state := .inProgress }]
      transmit := [.reserved .commit] }).setEngine (.pending { port := .a, tag := 9, cached := true })

theorem witness_IdentifyGivesTheStraps : upState.ready .a 1 ∧ upState.ready .a 0 ∧ pairState.ready .b 255 := by
  unfold State.ready Port.settled
  decide +kernel

theorem witness_ReadBanksCounts : upState.ready .a 1 ∧ pendingState.ready .a 1 := by
  unfold State.ready Port.settled
  decide +kernel

theorem witness_ReadHighwayReports :
    upState.ready .a 1 ∧ 7 < (8 : Octet).toNat ∧ (7 : Octet).toNat = (7 : Highway).val := by
  unfold State.ready Port.settled
  decide +kernel

theorem witness_ReadSignalingGivesEverySlot :
    upState.ready .a 1 ∧ 7 < (8 : Octet).toNat ∧ (7 : Octet).toNat = (7 : Highway).val := by
  unfold State.ready Port.settled
  decide +kernel

theorem witness_ReleaseAndSetLease :
    heldState.ready .a 1 ∧ heldState.holdsLease .a = true ∧ upState.ready .a 1 ∧ upState.holdsLease .a = false ∧
    (1 : Octet) ≠ 0 := by
  unfold State.ready Port.settled
  decide +kernel

theorem witness_ResetIsAnsweredAndWaits :
    heldState.ready .a 1 ∧ heldState.holdsLease .a = true ∧ 1 < (2 : Octet).toNat ∧ (1 : Octet).toNat ≤ 1 := by
  unfold State.ready Port.settled
  decide +kernel

theorem witness_CommitAndResyncBegin :
    heldState.ready .a 1 ∧ heldState.holdsLease .a = true ∧ heldState.engine = .idle ∧
    pendingState.ready .a 1 ∧ pendingState.holdsLease .a = true ∧ pendingState.engine.isPending = true ∧
    (heldState.setEngine (.syncing 7 noMarks)).ready .a 1 ∧
    (heldState.setEngine (.syncing 7 noMarks)).holdsLease .a = true := by
  unfold State.ready Port.settled
  decide +kernel

theorem witness_RowsAreTheirMessages : managerCommand (.commit .a 1) = some (.a, 1, .commit) := rfl

theorem witness_MessagesOnTheWireAreRead :
    (Command.body 1 .commit).length ≤ 124 ∧
    (Command.body 1 (.writeEntries 0 0 24 (List.replicate 119 0))).length ≤ 124 := by decide +kernel

theorem witness_CommandsWaitOrAreBusy :
    managerCommand (.commit .a 1) = some (.a, 1, .commit) ∧ (Command.body 1 .commit).length ≤ 124 ∧
    (queuedState 3 5).portReceives .a = true ∧ (∀ e ∈ ((queuedState 3 5).port .a).cache, e.tag ≠ 1) ∧
    ((queuedState 3 5).port .a).commands.length < 4 ∧
        ((queuedState 3 5).port .a).commands.head?.map (·.started) = some true ∧
    ((queuedState 0 6).port .a).commands.length < 4 ∧ 6 ≤ ((queuedState 0 6).port .a).transmit.length ∧
    4 ≤ ((queuedState 4 5).port .a).commands.length ∧ ((queuedState 4 5).port .a).transmit.length < 6 ∧
    4 ≤ ((queuedState 4 6).port .a).commands.length ∧ 6 ≤ ((queuedState 4 6).port .a).transmit.length := by
  decide +kernel

/-- A start inside a multiframe that frees a place of port A's full queue for a command. -/
def freeing (c : Command) : State :=
  (waitsAtA c upState).setTiming { frame := 3, stamp := 0, startPending := false }

theorem witness_CommandsWaitOrAreBusy_freed :
    ∀ c ∈ [Command.identify, .commit],
      (freeing c).portSends .a = true ∧ ((freeing c).port .a).commands = [queuedCommand 9 c] ∧
      (queuedCommand 9 c).started = false ∧
      ((freeing c).port .a).transmit = .message [5] none :: List.replicate 5 waitingMessage ∧
      ([5] : List Octet).length = strapWidth (freeing c).straps ∧
      (∀ x ∈ List.replicate 5 waitingMessage, x ≠ .reserved .command) ∧
      (freeing c).portEnabled (otherPort .a) = false ∧ (freeing c).port (otherPort .a) = initialPort ∧
      (freeing c).boundaryNext = false ∧
      (∀ k, (freeing c).repeats k = false) ∧ (freeing c).engine.position = none ∧
      (freeing c).capture.phase.job = none ∧ (freeing c).swapsNext = false ∧
      ((freeing c).port (otherPort .a)).commands = [] ∧ (freeing c).resetNext (otherPort .a) = none := by
  decide +kernel

theorem witness_DuplicatesAreNotExecuted :
    (∀ x messages, ((cachedState 5 x messages).port .a).cached 1 = some { tag := 1, check := 5, state := x }) ∧
    (cachedState 5 .inProgress 6).portReceives .a = true ∧ (5 : Pair) ≠ messageCheck (Command.body 1 .commit) ∧
    ((cachedState (messageCheck (Command.body 1 .commit)) .inProgress 0).port .a).cached 1 =
      some { tag := 1, check := messageCheck (Command.body 1 .commit), state := .inProgress } ∧
    ((cachedState (messageCheck (Command.body 1 .commit)) (.done [1]) 5).port .a).transmit.length < 6 ∧
    6 ≤ ((cachedState (messageCheck (Command.body 1 .commit)) (.done [1]) 6).port .a).transmit.length := by
  refine ⟨fun _ _ => rfl, ?_⟩
  decide +kernel

theorem witness_BodiesAreJudgedOnReceipt :
    (0x06 : Octet) ∉ minimumBodies.map Prod.fst ∧ ((0x1C : Octet), 11) ∈ minimumBodies ∧
    ([1, 2, 3, 4, 5, 6, 7, 8] : List Octet).length + 2 < 11 ∧
        ([1, 2, 3, 4, 5, 6, 7, 8, 9] : List Octet).length + 2 = 11 ∧
    ([0, 0, 0] : List Octet).length ≠ 4 * (1 : Octet).toNat ∧ heldState.holdsLease .a = true ∧
    heldState.engine.isPending = false ∧ (1 : Octet).toNat < 2 ∧ 124 < (125 : Octet).toNat ∧
    readArguments 0x06 [] = .refused .unknownCommand ∧ readArguments 0x04 [] = .refused .badLength ∧
    upState.portReceives .a = true ∧ (∀ e ∈ (upState.port .a).cache, e.tag ≠ 1) ∧
    (upState.port .a).transmit.length < 6 := by decide +kernel

theorem witness_LeaseIsChecked :
    upState.ready .a 1 ∧
    Command.needsLease .commit = true ∧ Command.needsLease (.readCounters 0 0 1) = true ∧
    upState.holdsLease .a = false ∧ managerCommand (.commit .a 1) = some (.a, 1, .commit) ∧
    (Command.body 1 .commit).length ≤ 124 ∧ heldState.leaseHolder = some .a ∧
    (heldState.receiver (heldState.portPair .a)).align ≠ .disabled ∧ heldState.leaseHolder ≠ some .b ∧
    (queuedCommand 1 .commit).command ≠ .release ∧ (queuedCommand 1 .commit).command ≠ .claim ∧
    ∀ period, (queuedCommand 1 .commit).command ≠ .setLease period := by
  unfold State.ready Port.settled
  refine ⟨by decide +kernel, by decide, by decide, by decide +kernel, rfl, by decide, rfl, by decide +kernel,
    by decide +kernel, by decide, by decide, fun _ h => ?_⟩
  cases h

theorem witness_ClaimTakesTheFreeLease :
    upState.ready .a 1 ∧ heldState.ready .a 1 ∧
    (pairState.setLease { holder := some { port := .a, remaining := 1 }, period := 1 }).ready .b 1 ∧
    ((State.powerOn lowStraps).receiver ((State.powerOn lowStraps).portPair .a)).align.hunting = true ∧
    upState.lease.holder = none ∧ heldState.lease.holder = some { port := .a, remaining := 100 } ∧
    (pairState.setLease { holder := some { port := .a, remaining := 1 }, period :=
        1 }).lease.holder.map (·.port) ≠ some .b ∧
    (pairState.setLease { holder := some { port := .a, remaining := 1 }, period := 1 }).portReceives .b = true := by
  unfold State.ready Port.settled
  decide +kernel

theorem witness_WriteEntriesReplacesTheRun :
    (heldState.ready .a 1 ∧ heldState.holdsLease .a = true ∧ (heldState.setEngine (.syncing 2 noMarks)).ready .a 1 ∧
      (heldState.setEngine (.syncing 2 noMarks)).holdsLease .a = true) ∧
    heldState.engine.isPending = false ∧ (heldState.setEngine (.syncing 2 noMarks)).engine.isPending = false ∧
    (5 : Octet).toNat = (5 : Highway).val ∧ (63 : Octet).toNat ≤ 63 ∧
        ([0x80, 0x55, 0xFF, 0x20] : List Octet).length = 4 * 1 ∧
    ∀ i e, (rawEntries [0x80, 0x55, 0xFF, 0x20])[i]? = some e → heldState.checkEntry 5 (63 + i) e = none := by
  refine ⟨by unfold State.ready Port.settled; decide +kernel, by decide, by decide, by decide, by decide,
      by decide, ?_⟩
  intro i e h
  match i with
  | 0 =>
    obtain rfl : RawEntry.mk 0x80 0x55 0xFF 0x20 = e := by simpa [rawEntries] using h
    decide +kernel
  | n + 1 => simp [rawEntries] at h

theorem witness_WriteEntriesChecksInOrder :
    upState.ready .a 1 ∧ upState.holdsLease .a = false ∧
    pendingState.ready .a 1 ∧ pendingState.holdsLease .a = true ∧ heldState.ready .a 1 ∧
        heldState.holdsLease .a = true ∧
    pendingState.engine.isPending = true ∧ heldState.engine.isPending = false ∧ 7 < (8 : Octet).toNat ∧
    24 < (25 : Octet).toNat ∧ heldState.checkEntry 0 (62 + 1) ⟨0x80, 0x55, 0xFF, 0x20⟩ = some .protectedSlot ∧
    heldState.checkEntry 0 62 ⟨0x80, 0x55, 0xFF, 0x20⟩ = none ∧ 63 < 64 := by
  unfold State.ready Port.settled
  decide +kernel

theorem witness_ReadEntriesReturnsTheRun :
    upState.ready .a 1 ∧
    (1 : Octet).toNat ≤ 1 ∧ (7 : Octet).toNat = (7 : Highway).val ∧ (24 : Octet).toNat ≤ 24 ∧
    (40 : Octet).toNat + (24 : Octet).toNat ≤ 64 ∧ 64 < (41 : Octet).toNat + (24 : Octet).toNat ∧
        1 < (2 : Octet).toNat := by
  unfold State.ready Port.settled
  decide +kernel

theorem witness_ClearStandbyClears :
    pendingState.ready .a 1 ∧ pendingState.holdsLease .a = true ∧ heldState.ready .a 1 ∧
    heldState.holdsLease .a = true ∧ (heldState.setEngine (.syncing 7 noMarks)).ready .a 1 ∧
    (heldState.setEngine (.syncing 7 noMarks)).holdsLease .a = true ∧
    pendingState.engine.isPending = true ∧ heldState.engine = .idle ∧
    (heldState.setEngine (.syncing 7 noMarks)).engine.isPending = false ∧
    (heldState.setEngine (.syncing 7 noMarks)).events.admits .commit := by
  unfold State.ready Port.settled EventList.admits
  decide +kernel

theorem witness_AbortCancelsThePendingCommit :
    pendingState.ready .a 1 ∧ pendingState.holdsLease .a = true ∧
    (heldState.setEngine (.syncing 7 noMarks)).ready .a 1 ∧ heldState.ready .a 1 ∧ heldState.engine = .idle ∧
    pendingState.engine = .pending { port := .a, tag := 9, cached := true } ∧
    (pendingState.port .a).transmit = [] ++ .reserved .commit :: [] ∧
    (upState.port .a).transmit.any (Place.isReservedFor .commit) = false ∧
    ([] : List Place).any (Place.isReservedFor .commit) = false ∧
    (pendingState.port .a).cached 9 = some { tag := 9, check := 0, state := .inProgress } := by
  unfold State.ready Port.settled
  decide +kernel

theorem witness_SetInputStoresAndEnters :
    heldState.ready .a 1 ∧ heldState.holdsLease .a = true ∧
    (heldState.setReceiver 7 { initialReceiver with align := .disabled }).ready .a 1 ∧
    (atMarker (.aligned 1) heldState).ready .a 1 ∧ heldState.events.admits (.alignState 2) ∧
    7 < (8 : Octet).toNat ∧ 15 < (16 : Octet).toNat ∧ (portOn heldState.straps 0).isSome = true ∧
    (heldState.receiver 7).align ≠ .disabled ∧ portOn heldState.straps 7 = none ∧
    ((heldState.setReceiver 7 { initialReceiver with align := .disabled }).receiver 7).align = .disabled ∧
    (atMarker (.aligned 1) heldState).inService 2 = true ∧ portOn heldState.straps 2 = none ∧
    ((atMarker (.aligned 1) heldState).setCapture (running (.input 2 9))).ready .a 1 ∧
    ((atMarker (.aligned 1) heldState).setCapture (running (.input 2 9))).capture.phase =
      .running { source := .input 2 9, trigger := .now, length := 5 } 4 9 ∧ Source.onInput 2 (.input 2 9) = true ∧
    Source.onInput 2 (.output 2 9) = false ∧ heldState.events.ordinaryCount ≤ 32 := by
  unfold State.ready Port.settled EventList.admits
  decide +kernel

theorem witness_SetOutputStores :
    heldState.ready .a 1 ∧ heldState.holdsLease .a = true ∧
        (heldState.setCapture (running (.output 3 9))).ready .a 1 ∧
    portOn heldState.straps 3 = none ∧ (portOn heldState.straps 0).isSome = true ∧
        (heldState.output 3).enabled = true ∧
    heldState.capture.phase = .idle ∧
    (heldState.setCapture (running (.output 3 9))).capture.phase =
      .running { source := .output 3 9, trigger := .now, length := 5 } 4 9 ∧
          Source.onOutput 3 (.output 3 9) = true := by
  unfold State.ready Port.settled
  decide +kernel

theorem witness_ReadCountersReportsAndClears :
    upState.ready .a 1 ∧ heldState.ready .a 1 ∧
    upState.holdsLease .a = false ∧ heldState.holdsLease .a = true ∧ 7 < (8 : Octet).toNat ∧ 1 < (2 : Octet).toNat ∧
    (1 : Octet) = portOctet .b ∧ (7 : Octet).toNat = (7 : Highway).val := by
  unfold State.ready Port.settled
  decide +kernel

theorem witness_WatchSetsTheRun :
    upState.ready .a 1 ∧ upState.holdsLease .a = false ∧ heldState.ready .a 1 ∧ heldState.holdsLease .a = true ∧
    64 < (1 : Octet).toNat + (64 : Octet).toNat ∧ (0 : Octet).toNat + (64 : Octet).toNat ≤ 64 ∧
        (1 : Octet).toNat ≤ 1 := by
  unfold State.ready Port.settled
  decide +kernel

/-- A DELIVERED OVERFLOW entry with losses behind it and `waiting` UNDELIVERED entries of a key outside the mask. -/
def lossy (waiting : Nat) : State :=
  upState.setEvents
    { initialEvents with
      entries := { body := .overflow 9, created := 0, updated := 0, delivered := true } ::
        List.replicate waiting oneEvent
      losses := 5, batchNumber := 1, batch := some { port := .a, hold := 1 } }

theorem witness_FetchEventsDelivers :
    (batched 1 upState).events.attn = (batched 1 upState).events.condition ∧ (batched 1 upState).events.holdTime ≠ 0 ∧
    (batched 1 upState).events.batch = some { port := .a, hold := 1 } ∧
        (2 : Octet) ≠ (batched 1 upState).events.batchNumber ∧
    (batched 1 upState).events.deliveredEntries ≠ [] ∧ (batched 1 upState).ready .a 1 ∧
        (batched 1 pairState).ready .b 1 ∧
    ((batched 0 pairState).setEvents { (batched 0 pairState).events with attn := true }).ready .b 1 ∧
    (batched 0 pairState).events.condition = true ∧
        (batched 0 pairState).events.batch = some { port := .a, hold := 0 } ∧
    upState.events.batch = none ∧ upState.events.deliveredEntries = [] ∧
    upState.events.entries.filter (fun e => !e.delivered) = [] ∧
    (upState.setEvents { upState.events with entries := [oneEvent] }).events.condition = false ∧
    (upState.setEvents { upState.events with entries :=
        [oneEvent] }).events.entries.filter (fun e => !e.delivered) ≠ [] ∧
    ∀ waiting ∈ [0, 1, 12], (lossy waiting).ready .a 1 ∧ (lossy waiting).events.attn = false ∧
      (lossy waiting).events.condition = false ∧ (lossy waiting).events.holdTime ≠ 0 ∧
      (lossy waiting).events.batch = some { port := .a, hold := 1 } ∧ (lossy waiting).events.batchNumber = 1 ∧
      (lossy waiting).events.losses ≠ 0 ∧ (lossy waiting).events.mask.getLsbD 8 = true ∧
      (∀ e ∈ (lossy waiting).events.entries, e.isOverflow = true → e.delivered = true) ∧
      ((lossy waiting).events.entries.filter (fun e => !e.delivered)).length = waiting := by
  unfold State.ready Port.settled
  decide +kernel

/-- A full list: a DELIVERED entry of the commit key, and 62 others of which one is UNDELIVERED. -/
def fullEvents : EventList :=
  { initialEvents with
    entries := { oneEvent with delivered := true } ::
      List.replicate 62 { oneEvent with body := .ordinary .capture .done .done 255, delivered := true } }

def overflowEvent (delivered : Bool) : Event :=
  { body := .overflow 65535, created := 3, updated := 4, delivered := delivered }

theorem witness_OccurrencesMergeOrAreCounted :
    (∀ x ∈ [{ oneEvent with delivered := true }], x.delivered = true ∨ Event.hasKey .capture x = false) ∧
    oneEvent.delivered = false ∧ oneEvent.body = .ordinary .commit .aborted .aborted 1 ∧
    upState.events.ordinaryCount < 63 ∧ (∀ x ∈ upState.events.entries, x.delivered = true ∨ x.hasKey .commit = false) ∧
    63 ≤ fullEvents.ordinaryCount ∧ (∀ x ∈ fullEvents.entries, x.delivered = true ∨ x.hasKey .commit = false) ∧
    (∀ x ∈ fullEvents.entries, x.isOverflow = false) ∧ fullEvents.losses = 0 ∧
    (overflowEvent false).body = .overflow 65535 ∧ (overflowEvent true).isOverflow = true ∧
    ((atMarker (.aligned 5) upState).receiver 2).inFrame = false ∧ goodMarker 0xB5 5 = true ∧
    markerRA 0xB5 ≠ ((atMarker (.aligned 5) upState).receiver 2).receivedRA ∧
    (batched 0 upState).events.condition = true := by decide +kernel

theorem witness_SetAttentionStores :
    heldState.ready .a 1 ∧ heldState.holdsLease .a = true ∧
    (heldState.setEvents { heldState.events with entries := [oneEvent] }).ready .a 1 ∧
    ({ heldState.events with mask := ((0 : Octet) ++ (0x22 : Octet)).setWidth 9, interval := 5, holdTime := 1 } :
      EventList).condition = false ∧
    ({ (heldState.setEvents { heldState.events with entries := [oneEvent] }).events with
        mask := ((0 : Octet) ++ (0x10 : Octet)).setWidth 9, interval := 5, holdTime :=
        1 } : EventList).condition = true ∧
    (heldState.setEvents { heldState.events with entries := [oneEvent] }).events.attn = false ∧
    (heldState.port .a).transmit.length < 5 := by
  unfold State.ready Port.settled
  decide +kernel

theorem witness_ArmCaptureArms :
    heldState.ready .a 1 ∧ heldState.holdsLease .a = true ∧ (heldState.setCapture (running (.input 2 9))).ready .a 1 ∧
    1024 < ((4 : Octet) ++ (1 : Octet)).toNat ∧ ((4 : Octet) ++ (0 : Octet)).toNat ≤ 1024 ∧
    1 ≤ ((0 : Octet) ++ (1 : Octet)).toNat ∧ heldState.capture.phase = .idle ∧
    (heldState.setCapture (running (.input 2 9))).capture.phase.job ≠ none ∧
    (heldState.setOutput 3 { initialOutput with enabled := false }).ready .a 1 ∧
    ((heldState.setOutput 3 { initialOutput with enabled := false }).output 3).enabled = false ∧
    (heldState.output 3).enabled = true ∧ (7 : Octet).toNat = (7 : Highway).val ∧
        (63 : Octet).toNat = (63 : Slot).val := by
  unfold State.ready Port.settled
  decide +kernel

theorem witness_ReadAndCancelCapture :
    upState.ready .a 1 ∧ upState.holdsLease .a = false ∧
    (heldState.setCapture { running (.input 2 9) with ready := [⟨6, false, [1]⟩] }).ready .a 1 ∧
        heldState.ready .a 1 ∧
    heldState.holdsLease .a = true ∧
    (heldState.setCapture { running (.input 2 9) with ready :=
        [⟨6, false, [1]⟩] }).capture.ready = [⟨6, false, [1]⟩] ∧
    (heldState.setCapture { running (.input 2 9) with ready := [⟨6, false, [1]⟩] }).capture.phase =
      .running { source := .input 2 9, trigger := .now, length := 5 } 4 9 ∧ heldState.capture.ready = [] ∧
    (heldState.setCapture (running (.input 2 9))).capture.phase.captured = some 4 := by
  unfold State.ready Port.settled
  decide +kernel

/-- Highway 2 in service with a frame to read, and highway 3 with a reading frame alone. -/
def readingState : State :=
  (((atMarker (.aligned 3) upState).setReceiver 3 { initialReceiver with align := .aligned 3 }).setQueue 2
    { frames := [countingPayload], reading := none }).setQueue 3 { frames := [], reading := some countingPayload }

theorem witness_StartAdvancesAndSelects :
    readingState.noWork ∧ readingState.inService 1 = false ∧ readingState.inService 2 = true ∧
    (readingState.queue 2).frames = [countingPayload] ∧ readingState.inService 3 = true ∧
    (readingState.queue 3).frames = [] ∧ (readingState.queue 3).reading = some countingPayload ∧
    readingState.inService 0 = true ∧ (readingState.queue 0).reading = none ∧ readingState.events.roomy := by
  unfold State.noWork EventList.roomy
  decide +kernel

theorem witness_FramesFollowTheMap :
    (readingState.output 4).enabled = true ∧
        readingState.nextOctet 4 { initialEntry with content := .slot 2 9 .follow } = some 9 ∧
    ((readingState.setOutput 4 { initialOutput with enabled := false }).output 4).enabled = false := by decide +kernel

/-- Both ports at width four, with `places` waiting at port A. -/
def wideState (places : List Place) : State := pairState.setPort .a { initialPort with transmit := places }

theorem witness_ManagementSlotsDrainTheHead :
    ∀ places ∈ [[], [waitingMessage], [.message [1, 2, 3, 4] none, waitingMessage],
        [.message [9] none, waitingMessage], [.message [9] none, .reserved .commit],
        [.reserved .commit, waitingMessage], [.message [9] none]],
      (wideState places).portEnabled .a = true ∧
      ((wideState places).output ((wideState places).portPair .a)).enabled = true ∧ (wideState places).noWork ∧
      (wideState places).swapsNext = false ∧ strapWidth (wideState places).straps = 4 ∧
      (∀ n : Slot, mgmtSlot (wideState places).straps n = true →
        ((wideState places).bank (wideState places).activeBank)[(wideState places).portPair .a][n].isMgmt = true) ∧
      ((wideState places).port .a).transmit = places := by
  unfold State.noWork
  decide +kernel

theorem witness_SwapExchangesTheBanks :
    pendingState.boundaryNext = true ∧ (tickDue pendingState).boundaryNext = true ∧ pendingState.noWork ∧
    pendingState.events.roomy ∧ (pendingState.port .a).transmit.any (Place.isReservedFor .commit) = true := by
  unfold State.noWork EventList.roomy
  decide +kernel

theorem witness_SyncCopiesHighwayByHighway :
    ∀ pos : Highway, (upState.setEngine (.syncing pos noMarks)).noWork ∧
      (upState.setEngine (.syncing pos noMarks)).engine = .syncing pos noMarks ∧
      (upState.setEngine (.syncing pos noMarks)).events.roomy := by
  unfold State.noWork EventList.roomy
  decide +kernel

theorem witness_TickLowersLeaseAndHold :
    (tickDue heldState).tickNext = true ∧ (tickDue heldState).noWork ∧
    (tickDue heldState).lease.holder = some { port := .a, remaining := 100 } ∧
    ((tickDue heldState).setLease { holder := some { port := .a, remaining := 1 }, period := 125 }).noWork ∧
    heldState.events.roomy ∧ ∀ hold ∈ [(1 : Octet), 2], (tickDue (batched hold upState)).tickNext = true ∧
      (tickDue (batched hold upState)).noWork ∧
      (tickDue (batched hold upState)).events.batch = some { port := .a, hold := hold } := by
  unfold State.noWork EventList.roomy
  decide +kernel

/-- A notice timer about to expire, with `places` waiting at port A. -/
def noticeDue (places : List Place) : State :=
  (tickDue (upState.setPort .a { initialPort with transmit := places })).setEvents
    { initialEvents with
      entries := [{ oneEvent with body := .ordinary (.alignState 2) .inService .inService 1 }], attn :=
          true, timer := some 1 }

theorem witness_TimerExpiryOffersANotice :
    ∀ places ∈ [[], [waitingMessage], .reserved .commit :: List.replicate 4 waitingMessage,
        List.replicate 6 waitingMessage, .message [9] none :: List.replicate 5 waitingMessage, [.message [9] none]],
      (noticeDue places).tickNext = true ∧ (noticeDue places).events.timer = some 1 ∧
      (noticeDue places).events.attn = true ∧ (noticeDue places).events.condition = true ∧
      (noticeDue places).noWork ∧ (noticeDue places).events.roomy ∧ (noticeDue places).engine.isPending = false ∧
      (noticeDue places).portEnabled .a = true ∧ ((noticeDue places).port .a).transmit = places := by
  unfold State.noWork EventList.roomy
  decide +kernel

/-- An ARMED capture of input 2, or one that is about to fill its pool. -/
def armedCapture (x : Trigger) : Capture :=
  { initialCapture with phase := .armed { source := .input 2 9, trigger := x, length := 100 } }

theorem witness_CaptureTakesItsOctets :
    (∀ x ∈ [Trigger.now, .octet 9, .code 4 1 0], ((arriving (.aligned 7) upState).setCapture
      (armedCapture x)).capture.phase.job = some { source := .input 2 9, trigger := x, length := 100 } ∧
        ∀ m c, x ≠ .code 2 m c) ∧
    ((arriving (.aligned 7) upState).setCapture (running (.input 2 9))).capture.phase.job =
      some { source := .input 2 9, trigger := .now, length := 5 } ∧
    (upState.setCapture (running (.output 2 9))).capture.phase.job =
      some { source := .output 2 9, trigger := .now, length := 5 } ∧
    ((arriving (.aligned 7) upState).receiver 2).inFrame = true ∧ portOn upState.straps 2 = none ∧
    (arriving (.aligned 7) upState).inService 2 = true ∧ (arriving (.confirm 7 0 []) upState).inService 2 = false ∧
    (∀ m : Slot, (upState.slotState 2 m).watched = false) ∧ upState.events.roomy ∧
    (upState.setCapture (running (.output 2 9))).noWork ∧ (upState.output 2).enabled = true ∧
    ((upState.setOutput 2 { initialOutput with enabled := false }).output 2).enabled = false ∧
    Source.onInput 2 (.input 4 9) = false := by
  unfold State.noWork EventList.roomy
  refine ⟨fun x hx => ⟨rfl, fun m c h => ?_⟩, by decide +kernel⟩
  subst h
  revert hx
  simp

theorem witness_CaptureEndsAtItsLength :
    ((arriving (.aligned 7) upState).setCapture (running (.input 2 9))).capture.phase =
      .running { source := .input 2 9, trigger := .now, length := 5 } 4 9 ∧
    (running (.input 2 9)).filling ≠ [] ∧ ((arriving (.aligned 7) upState).receiver 2).inFrame = true ∧
    (arriving (.aligned 7) upState).inService 2 = true ∧ portOn upState.straps 2 = none ∧ upState.events.roomy ∧
    (upState.setCapture (running (.output 2 9))).noWork ∧ (upState.output 2).enabled = true := by
  unfold State.noWork EventList.roomy
  decide +kernel

theorem witness_ColdResetTakesEffect : (resetting .cold heldState).resetNext .a = some .cold := by decide +kernel

/-- A warm reset due at port A, with the engine in `e` and highway 3 with a reading frame alone. -/
def warmDue (e : Engine) : State :=
  (((resetting .warm heldState).setEngine e).setReceiver 3 { initialReceiver with align := .aligned 3 }).setQueue 3
    { frames := [], reading := some zeroFrame.payload }

theorem witness_WarmResetClearsManagement :
    ∀ e ∈ [Engine.idle, .syncing 3 noMarks, .syncing 7 noMarks],
      (warmDue e).resetNext .a = some .warm ∧ (warmDue e).resetNext (otherPort .a) = none ∧
      ((warmDue e).port (otherPort .a)).commands = [] ∧
      (∀ q ∈ ((warmDue e).port .a).commands.head?, q.started = true) ∧ (warmDue e).repeats 3 = true ∧
      (warmDue e).engine = e := by decide +kernel

theorem witness_HuntTakesTheFirstCandidate :
    (upState.receiver 2).align = .search [] ∧
    ([] : List Bool) ++ [false, true, false, true, true, false, true, true, false] =
      [false] ++ (true :: false :: true :: [true, false, true, true, false]) ++ [] ∧
    (∀ pre' x' rest', [] ++ [false, true, false, true, true, false, true, true, false] =
      pre' ++ (true :: false :: true :: x') ++ rest' → x'.length = 5 → ([false] : List Bool).length ≤ pre'.length) ∧
    (∀ pre x rest, [] ++ [false, true] = pre ++ (true :: false :: true :: x) ++ rest → x.length ≠ 5) := by
  refine ⟨by decide +kernel, rfl, ?_, ?_⟩
  · intro pre' x' rest' h _
    cases pre' with
    | nil => simp at h
    | cons _ _ => simp
  · intro pre x rest h hx
    have := congrArg List.length h
    simp only [List.length_append, List.length_cons, List.length_nil] at this
    omega

/-- The bits of one frame of zeros and of the candidate A0H, without the first. -/
theorem zerosThenCandidate : (List.replicate 536 false ++ octetBits 0xA0).drop 1 =
    List.replicate 535 false ++ [true, false, true, false, false, false, false, false] := by decide +kernel

theorem candidateAfter_zeros : candidateAfter ((List.replicate 536 false ++ octetBits 0xA0).drop 1)
    (List.replicate 535 false) [true, false, true, false, false, false, false, false] := by
  refine ⟨zerosThenCandidate, ⟨[false, false, false, false, false], [], rfl, rfl⟩, fun i hi h => ?_⟩
  have h8 : Config.frameBits * i + 8 ≤ 8 := h
  simp only [Config.frameBits] at h8
  omega

/-- A one comes after all the zeros. -/
theorem le_of_zeros {n : Nat} {pre tail rest : List Bool} (h : List.replicate n false ++ rest = pre ++ true :: tail) :
    n ≤ pre.length := by
  by_contra hn
  have hl : pre.length < n := Nat.lt_of_not_le hn
  have := congrArg (·[pre.length]?) h
  simp [List.getElem?_append_left, hl] at this

theorem candidateAfter_zeros_first {pre tail : List Bool}
    (h : candidateAfter ((List.replicate 536 false ++ octetBits 0xA0).drop 1) pre tail) :
    (List.replicate 535 false).length ≤ pre.length := by
  obtain ⟨hb, ⟨x, rest, rfl, -⟩, -⟩ := h
  rw [List.length_replicate]
  exact le_of_zeros (zerosThenCandidate.symm.trans hb)

/-- Seven bits hold no candidate. -/
theorem not_candidateAfter_short {pre tail : List Bool} :
    ¬candidateAfter (([] ++ octetBits 0xA0).drop 1) pre tail := by
  rintro ⟨hb, ⟨x, rest, rfl, hx⟩, -⟩
  have := congrArg List.length hb
  simp [octetBits] at this
  omega

theorem witness_MarkersMoveTheReceiver :
    ((atMarker (.confirm 5 1 (List.replicate 536 false)) upState).receiver 2).align =
      .confirm 5 1 (List.replicate 536 false) ∧ (List.replicate 536 false).length % 536 = 0 ∧
    (List.replicate 536 false).length ≤ 1608 ∧ goodMarker 0xA0 5 = false ∧
    (portOn upState.straps 2 = none ∧ upState.capture.phase = .idle) ∧
    ((atMarker (.aligned 5) upState).receiver 2).inFrame = false ∧ goodMarker 0xA5 5 = true ∧
        goodMarker 0xB5 5 = true ∧
    markerRA 0xB5 ≠ ((atMarker (.aligned 5) upState).receiver 2).receivedRA ∧ goodMarker 0xA4 5 = false ∧
    ((atMarker (.flywheel 5 2) upState).receiver 2).align = .flywheel 5 2 ∧
    ((atMarker (.guard 5 4) upState).receiver 2).align = .guard 5 4 ∧
    ((atMarker (.confirm 5 1 []) upState).receiver 2).align = .confirm 5 1 [] ∧
        ([] : List Bool).length % 536 = 0 := by
  decide +kernel

theorem witness_ConfirmationEndsInGuardOrService :
    ((atMarker (.confirm 5 2 []) upState).receiver 2).inFrame = false ∧
    ((atMarker (.confirm 5 2 []) upState).receiver 2).align = .confirm 5 2 [] ∧ goodMarker 0xB5 5 = true ∧
    ((atMarker (.confirm 5 2 []) upState).receiver 2).guardLength ≠ 0 ∧
    ((upState.setReceiver 2 { initialReceiver with align := .confirm 5 2 [], guardLength :=
        0 }).receiver 2).guardLength = 0 ∧
    upState.events.admits (.alignState 2) ∧ upState.events.roomy := by
  unfold EventList.admits EventList.roomy
  decide +kernel

theorem witness_AlignmentLossEntersSearch :
    ((atMarker (.flywheel 5 3) upState).receiver 2).inFrame = false ∧ goodMarker 0x00 5 = false ∧
        upState.events.roomy ∧
    ((heldState.setReceiver 0 { initialReceiver with align := .flywheel 5 3 }).receiver 0).align = .flywheel 5 3 ∧
    portOn heldState.straps 0 = some .a ∧ heldState.leaseHolder = some .a ∧
    (upState.setCapture (running (.input 2 9))).capture.phase =
      .running { source := .input 2 9, trigger := .now, length := 5 } 4 9 ∧ Source.onInput 2 (.input 2 9) = true := by
  unfold EventList.roomy
  decide +kernel

theorem witness_GuardEndsInService :
    ((arriving (.guard 0 1) upState).receiver 2).inFrame = true ∧
        ((arriving (.guard 0 1) upState).receiver 2).align = .guard 0 1 ∧
    ((arriving (.guard 0 2) upState).receiver 2).align = .guard 0 2 ∧ portOn upState.straps 2 = none ∧
    upState.events.ordinaryCount + ((arriving (.guard 0 1) upState).sup 2).watchedCount ≤ 58 := by
  decide +kernel

theorem witness_CompletionQueuesTheFrame :
    (arriving (.aligned 7) upState).inService 2 = true ∧ (arriving (.guard 7 1) upState).inService 2 = false ∧
    3 ≤ (((arriving (.aligned 7) upState).setQueue 2
      { frames := [countingPayload, countingPayload, countingPayload], reading := none }).queue 2).frames.length ∧
    ((upState.setReceiver 0 { initialReceiver with align := .aligned 3, inFrame :=
        true }).receiver 0).inFrame = true ∧
    portOn upState.straps 0 = some .a ∧ (upState.receiver 0).align.handsOver = true ∧
    ∀ x ∈ (Framer.takeAll (upState.port .a).framer (zeroFrame.payload.toList.drop 63)).2, x = .none :=
        by decide +kernel

/-- A frame of zeros that ends with `o`. -/
def lastOctet (o : Octet) : InFrame := { zeroFrame with payload := zeroFrame.payload.set 63 o }

/-- Port A's highway 0 in `a` with a frame arriving, the framer in `x`, six places taken and ATTN asserted. -/
def framing (a : Align) (x : Framer) : State :=
  ((upState.setReceiver 0 { initialReceiver with align := a, inFrame := true }).setPort .a
    { initialPort with framer := x, transmit := List.replicate 6 waitingMessage }).setEvents
      { initialEvents with
        entries := [{ oneEvent with body := .ordinary (.alignState 2) .inService .inService 1 }], attn := true }

/-- The framer that lacks the last octet of a COMMIT of tag 1. -/
def lacksOne : Framer := .check 2 [1, 0x0C] (some ((checkOf [2, 1, 0x0C]).extractLsb' 8 8))

theorem witness_CompletionQueuesTheFrame_framer :
    (∀ a ∈ [Align.aligned 3, .guard 3 1],
      ((framing a lacksOne).receiver 0).inFrame = true ∧ portOn (framing a lacksOne).straps 0 = some .a ∧
      ((framing a lacksOne).receiver 0).align = a ∧ a.handsOver = true ∧ (framing a lacksOne).straps.four = false ∧
      (framing a lacksOne).events.attn = true ∧ (framing a lacksOne).events.condition = true ∧
      (framing a lacksOne).events.roomy ∧ (∀ m : Slot, ((framing a lacksOne).slotState 0 m).watched = false) ∧
      ((framing a lacksOne).port .a).commands.length < 4 ∧ 6 ≤ ((framing a lacksOne).port .a).transmit.length ∧
      ((framing a lacksOne).port .a).cache = []) ∧
    (Framer.takeAll .length ((lastOctet 1).payload.toList.drop 63)).2 = [.lengthError] ∧
    (Framer.takeAll lacksOne ((lastOctet ((checkOf [2, 1, 0x0C]).setWidth 8 + 1)).payload.toList.drop 63)).2 =
      [.checkError] ∧
    (Framer.takeAll lacksOne ((lastOctet ((checkOf [2, 1, 0x0C]).setWidth 8)).payload.toList.drop 63)).2 =
      [.good (Command.body 1 .commit)] := by
  unfold EventList.roomy
  decide +kernel

/-- A supervisor that lacks the codes of frame 15 alone, with a candidate 0 of count 1 everywhere. -/
def collectingSup : Supervisor :=
  { initialSupervisor with
    slots := Vector.replicate 64 { initialSlot with candidate := some { code := 0, count := 1 } }
    received := Vector.ofFn fun n : Slot => if n.val < 60 then some 0 else none }

/-- The last frame of a multiframe arrives on highway 2. -/
def evaluating : State := (arriving (.aligned 0) upState).setSup 2 collectingSup

theorem witness_EvaluationFiltersEverySlot :
    (evaluating.receiver 2).inFrame = true ∧ (evaluating.receiver 2).align.handsOver = true ∧
    (evaluating.receiver 2).align.expected = some 0 ∧ portOn evaluating.straps 2 = none ∧
    (evaluating.sup 2).spoiled = false ∧ (evaluating.receiver 2).align = .aligned 0 ∧
    (∀ n : Slot, ((evaluating.sup 2).collect 15 zeroFrame false).received[n] ≠ none) ∧
    (((evaluating.sup 2).watch 5 50 true).watchedCount = 50 ∧
      ((evaluating.sup 2).watch 5 50 true).slots[(5 : Slot)].watched = true ∧
      (evaluating.slotState 2 5).watched = false ∧ (evaluating.slotState 2 5).stable = none) ∧
    ((arriving (.aligned 0) upState).sup 2).received = emptyRecord := by decide +kernel

/-- The states of the witnesses above, with highway 2 without a port, meet the hypothesis of a quiet framer. -/
theorem witness_framerQuiet_portless (f : InFrame) :
    upState.framerQuiet 2 f ∧ evaluating.framerQuiet 2 f ∧ (∀ a, (arriving a upState).framerQuiet 2 f) ∧
    ∀ a u, ((arriving a upState).setCapture u).framerQuiet 2 f :=
  ⟨framerQuiet_of_portless rfl f, framerQuiet_of_portless rfl f, fun _ => framerQuiet_of_portless rfl f,
    fun _ _ => framerQuiet_of_portless rfl f⟩

/-- Port A's highway 0 meets the hypotheses of GuardEndsInService, EvaluationFiltersEverySlot, CompletionQueuesTheFrame,
CaptureTakesItsOctets and CaptureEndsAtItsLength with a framer that hunts, and with one that is inside a message. -/
theorem witness_framerQuiet_port :
    ∀ x ∈ [Framer.hunt, .body 4 [1]], ∀ a ∈ [Align.guard 0 1, .guard 0 2, .aligned 0, .aligned 7, .flywheel 0 2],
      (framing a x).framerQuiet 0 zeroFrame ∧ portOn (framing a x).straps 0 = some .a ∧
      ((framing a x).receiver 0).inFrame = true ∧ ((framing a x).receiver 0).align = a ∧ a.handsOver = true ∧
      ((framing a x).setCapture (running (.input 0 9))).capture.phase =
        .running { source := .input 0 9, trigger := .now, length := 5 } 4 9 ∧ (framing a x).events.roomy ∧
      (framing a x).events.ordinaryCount + ((framing a x).sup 0).watchedCount ≤ 58 ∧
      (∀ m : Slot, ((framing a x).slotState 0 m).watched = false) := by
  intro x hx a ha
  refine ⟨fun p h => ?_, ?_⟩
  · cases p
    · clear h
      revert a x
      decide +kernel
    · cases h
  · unfold EventList.roomy
    revert a x
    decide +kernel

/-- An evaluation changes a stable code. -/
theorem witness_StableCodesChangeByEvaluationAlone :
    ∃ t, exec (.inputFrameCompletion 2 zeroFrame []) evaluating = .next t ∧
      (t.slotState 2 5).stable ≠ (evaluating.slotState 2 5).stable :=
  ⟨_, rfl, by decide +kernel⟩

/-! The invariants hold of a state with a lease, a port in service, and a COMMIT to be taken,
    which has a next state. -/

def busyState : State := { heldState with pending := [.commit .a 1] }

theorem busyState_steps : ∃ t, step busyState = .next t := ⟨_, rfl⟩

theorem busyState_entry (b : BankId) (k : Highway) (n : Slot) :
    (busyState.bank b)[k][n] = if protectedSlot lowStraps k n then protectedEntry else initialEntry := by
  cases b <;>
    simp [busyState, heldState, upState, State.bank, State.powerOn, State.setLease, State.setReceiver, initialBank]

theorem witness_StepKeepsTheMap : busyState.mapOk ∧ ∃ t, step busyState = .next t := by
  refine ⟨⟨fun b k n => ?_, fun pos marks h => ?_⟩, busyState_steps⟩
  · have hs : busyState.isProtected k n = protectedSlot lowStraps k n := rfl
    rw [busyState_entry, State.entryOk, hs]
    cases protectedSlot lowStraps k n <;> simp [initialEntry, protectedEntry, Entry.isMgmt, Entry.source]
  · simp [busyState, heldState, upState, State.setLease, State.setReceiver, State.powerOn] at h

theorem witness_StepKeepsTheQueues : busyState.queuesOk ∧ ∃ t, step busyState = .next t := by
  refine ⟨?_, busyState_steps⟩
  unfold State.queuesOk
  decide +kernel

/-- A COMMIT waits at port B, whose six places are taken. -/
def waitingState : State :=
  pairState.setPort .b
    { initialPort with
      commands := [queuedCommand 5 .commit]
      cache := [{ tag := 5, check := messageCheck (Command.body 5 .commit), state := .inProgress }]
      transmit := List.replicate 6 (.message [1, 2, 3, 4, 5, 6, 7] none) }

theorem witness_StepKeepsThePorts :
    waitingState.portsOk ∧ ∃ t, step { waitingState with pending := [.outputFrameStart standingOrder] } = .next t := by
  refine ⟨fun p => ?_, _, rfl⟩
  cases p
  · exact ⟨by decide, by decide, by decide, rfl, fun _ _ h => absurd h (List.cons_ne_nil _ _).symm,
      ⟨fun _ _ h => absurd h List.not_mem_nil, fun _ h => absurd h List.not_mem_nil⟩, by decide,
      fun _ h => absurd h List.not_mem_nil, fun _ h => absurd h List.not_mem_nil⟩
  · refine ⟨by decide, by decide, by decide, rfl, fun _ _ _ _ => by decide, ⟨fun m x h => ?_, fun e h m hm => ?_⟩,
      by decide, by decide, fun e h _ => ?_⟩
    · have h' : Place.message m x ∈ List.replicate 5 (Place.message [1, 2, 3, 4, 5, 6, 7] none) := h
      obtain ⟨rfl, -⟩ := Place.message.inj (List.eq_of_mem_replicate h')
      decide
    · obtain rfl := List.mem_singleton.mp h
      cases hm
    · obtain rfl := List.mem_singleton.mp h
      exact .inl ⟨queuedCommand 5 .commit, List.mem_singleton.mpr rfl, rfl, rfl⟩

theorem witness_StepKeepsTheEventList : busyState.eventsOk ∧ ∃ t, step busyState = .next t := by
  refine ⟨?_, busyState_steps⟩
  refine ⟨by decide, by decide, fun _ _ => by simp [busyState, heldState, upState, State.setLease, State.setReceiver,
    State.powerOn, initialEvents], by decide, by decide, fun h => absurd rfl h, by decide, by decide, fun t h => ?_⟩
  cases h

theorem witness_StepKeepsTheLease : busyState.leaseOk ∧ ∃ t, step busyState = .next t := by
  refine ⟨⟨fun p => ?_, fun p => ?_, fun h hh => ?_, by decide⟩, busyState_steps⟩
  · cases p <;> decide +kernel
  · cases p <;> decide +kernel
  · obtain rfl : ({ port := .a, remaining := 100 } : Holder) = h :=
      by simpa [busyState, heldState, State.setLease] using hh
    decide +kernel

theorem witness_StepKeepsTheCaptureUnit : busyState.captureOk ∧ ∃ t, step busyState = .next t := by
  refine ⟨⟨by decide, by decide, ?_, rfl, rfl⟩, busyState_steps⟩
  intro x h
  exact absurd h List.not_mem_nil

theorem witness_StepKeepsTheInputs : busyState.inputsOk ∧ ∃ t, step busyState = .next t := by
  refine ⟨fun k => ?_, busyState_steps⟩
  have hs : busyState.sup k = initialSupervisor := by
    simp [busyState, heldState, upState, State.sup, State.setLease, State.setReceiver, State.powerOn]
  have hslot : ∀ n : Slot, busyState.slotState k n = initialSlot := by
    intro n
    simp [State.slotState, hs, initialSupervisor]
  refine ⟨?_, ?_, ?_, ?_, fun n d h => ?_, fun _ => ⟨fun n => ?_, ?_, ?_⟩⟩
  · revert k; decide +kernel
  · revert k; decide +kernel
  · revert k; decide +kernel
  · by_cases hk : k = 0
    · subst hk
      exact trivial
    · have : (busyState.receiver k).align = .search [] := by revert hk; revert k; decide +kernel
      rw [this]
      exact Nat.zero_le 7
  · rw [hslot] at h
    cases h
  · rw [hslot]; rfl
  · rw [hs]; rfl
  · rw [hs]; rfl

end Sys2Proof.Tests
end

section
/-! SUPPORT. The commands of the map store that leave the map as it was: the refusals of WRITE_ENTRIES, READ_ENTRIES and
READ_BANKS. -/

namespace Sys2Proof.Machine

/-! ### A start renews the lease and touches its own port, and nothing else -/

theorem renewLease_eq_setLease (s : State) (p : PortId) : ∃ l, s.renewLease p = s.setLease l := by
  unfold State.renewLease
  split
  · exact ⟨_, rfl⟩
  · exact ⟨s.lease, rfl⟩

theorem renewLease_of_not_holder {s : State} {p : PortId} (h : s.holdsLease p = false) : s.renewLease p = s := by
  simp [State.renewLease, h]

/-- A renewal keeps the holder (R153). -/
@[simp] theorem renewLease_leaseHolder (s : State) (p : PortId) : (s.renewLease p).leaseHolder = s.leaseHolder := by
  unfold State.renewLease
  split
  · rename_i h
    have hp : s.leaseHolder = some p := by simpa [State.holdsLease] using h
    rw [hp]
    rfl
  · rfl

theorem started_eq_setLease_setPort (s : State) (p : PortId) (tag : Octet) (c : Command) :
    ∃ l x, s.started p tag c = (s.setLease l).setPort p x := by
  obtain ⟨l, hl⟩ := renewLease_eq_setLease s p
  exact ⟨l, _, (started_eq s p tag c).trans (by rw [hl])⟩

section
variable (s : State) (p : PortId) (tag : Octet) (c : Command)

@[simp] theorem started_straps : (s.started p tag c).straps = s.straps := by
  obtain ⟨l, x, h⟩ := started_eq_setLease_setPort s p tag c
  simp [h]

@[simp] theorem started_engine : (s.started p tag c).engine = s.engine := by
  obtain ⟨l, x, h⟩ := started_eq_setLease_setPort s p tag c
  simp [h]

@[simp] theorem started_activeBank : (s.started p tag c).activeBank = s.activeBank := by
  obtain ⟨l, x, h⟩ := started_eq_setLease_setPort s p tag c
  simp [h]

@[simp] theorem started_standbyBank : (s.started p tag c).standbyBank = s.standbyBank := by
  obtain ⟨l, x, h⟩ := started_eq_setLease_setPort s p tag c
  simp [h]

@[simp] theorem started_bank (b : BankId) : (s.started p tag c).bank b = s.bank b := by
  obtain ⟨l, x, h⟩ := started_eq_setLease_setPort s p tag c
  simp [h]

@[simp] theorem started_activeEntry (k : Highway) (n : Slot) :
    (s.started p tag c).activeEntry k n = s.activeEntry k n := by
  simp [State.activeEntry]

@[simp] theorem started_standbyEntry (k : Highway) (n : Slot) :
    (s.started p tag c).standbyEntry k n = s.standbyEntry k n := by
  simp [State.standbyEntry]

@[simp] theorem started_isProtected (k : Highway) (n : Slot) :
    (s.started p tag c).isProtected k n = s.isProtected k n := by
  simp [State.isProtected]

@[simp] theorem started_holdsLease (q : PortId) : (s.started p tag c).holdsLease q = s.holdsLease q := by
  simp [started_eq]

@[simp] theorem started_leaseHolder : (s.started p tag c).leaseHolder = s.leaseHolder := by
  simp [started_eq]

end

/-- A command that its block answers without a change leaves the renewal and the response, and nothing else (R140,
R153). -/
theorem takeCommand_of_unchanged {s : State} {p : PortId} {tag : Octet} (h : s.ready p tag) (c : Command) {r : Reply}
    (hrun : runCommand p (queuedCommand tag c) (s.started p tag c) = (s.started p tag c, .reply r)) :
    s.takeCommand p tag c = (s.renewLease p).answered p tag c r := by
  rw [takeCommand_reply h c hrun rfl, started_eq]
  simp [State.answered, State.cacheWith]

/-! ### Octets that name a highway or a role -/

theorem highwayOf_of_toNat_eq {o : Octet} {k : Highway} (h : o.toNat = k.val) : highwayOf o = some k := by
  simp [highwayOf, h]

theorem highwayOf_of_gt {o : Octet} (h : 7 < o.toNat) : highwayOf o = none := by
  simp [highwayOf, Nat.not_lt.mpr h]

theorem flagOf_of_le_one {o : Octet} (h : o.toNat ≤ 1) : flagOf o = some (decide (o ≠ 0)) := by
  by_cases h0 : o = 0
  · simp [flagOf, h0]
  · have h1 : o = 1 := by bv_omega
    simp [flagOf, h1]

theorem flagOf_of_gt_one {o : Octet} (h : 1 < o.toNat) : flagOf o = none :=
  (if_neg (by bv_omega)).trans (if_neg (by bv_omega))

/-! ### The checks of one entry (R12) -/

/-- The checks of an entry read the map through the protected slots alone. -/
theorem checkEntry_congr {s t : State} (h : ∀ k n, t.isProtected k n = s.isProtected k n) (k : Highway) (target : Nat)
    (e : RawEntry) : t.checkEntry k target e = s.checkEntry k target e := by
  simp only [State.checkEntry, h]

theorem checkEntry_of_target_gt (s : State) (k : Highway) {target : Nat} (h : 63 < target) (e : RawEntry) :
    s.checkEntry k target e = some .badArgument :=
  dif_neg (by omega)

/-- The table of R12 for a target within the highway. -/
theorem checkEntry_slot (s : State) (k : Highway) (n : Slot) (e : RawEntry) :
    s.checkEntry k n.val e =
      if s.isProtected k n then some .protectedSlot
      else if e.kind = 3 then some .badArgument
      else if e.follow = true ∧ e.kind ≠ 1 then some .badArgument
      else if e.kind = 1 ∧ 63 < e.o1.toNat then some .badArgument
      else if e.kind = 1 ∧ s.isProtected e.sourceHighway (Fin.ofNat 64 e.o1.toNat) then some .protectedSlot
      else none := by
  unfold State.checkEntry
  rw [dif_pos n.isLt]
  by_cases hk : e.kind = 1
  · by_cases h2 : e.o1.toNat < 64
    · have hsrc : Fin.ofNat 64 e.o1.toNat = ⟨e.o1.toNat, h2⟩ := Fin.ext (Nat.mod_eq_of_lt h2)
      have hle : ¬ 63 < e.o1.toNat := by omega
      simp [hk, h2, hle, hsrc, -Fin.ofNat_eq_cast]
    · have hgt : 63 < e.o1.toNat := by omega
      simp [hk, h2, hgt]
  · simp only [hk, bne_iff_ne, Bool.and_eq_true, ne_eq, not_false_eq_true, false_and, if_false]

/-! ### WRITE_ENTRIES refused (R11) -/

section
variable {s : State} {p : PortId} {highway first count : Octet} {octets : List Octet}

theorem runWriteEntries_of_no_lease (h : s.holdsLease p = false) :
    runWriteEntries p highway first count octets s = (s, .reply s.noLease) := by
  simp [runWriteEntries, State.leased, h]

theorem runWriteEntries_of_pending (hl : s.holdsLease p = true) (he : s.engine.isPending = true) :
    runWriteEntries p highway first count octets s = (s, .reply (refusal .commitPending)) := by
  cases hg : s.engine with
  | pending r => simp [runWriteEntries, State.leased, hl, hg]
  | idle => simp [hg, Engine.isPending] at he
  | syncing pos marks => simp [hg, Engine.isPending] at he

theorem runWriteEntries_of_bad_argument (hl : s.holdsLease p = true) (he : s.engine.isPending = false)
    (h : 7 < highway.toNat ∨ 63 < first.toNat ∨ count.toNat = 0 ∨ 24 < count.toNat ∨
      octets.length ≠ 4 * count.toNat) :
    runWriteEntries p highway first count octets s = (s, .reply (refusal .badArgument)) := by
  unfold runWriteEntries State.leased
  rw [if_pos hl]
  cases hg : s.engine with
  | pending r => simp [hg, Engine.isPending] at he
  | idle | syncing pos marks =>
    rcases h with hk | h
    · simp only [highwayOf_of_gt hk]
    · cases highwayOf highway with
      | none => rfl
      | some k => exact if_pos h

/-- The answer of the entry checks names the first entry that fails (R11, step 4). -/
theorem runWriteEntries_of_bad_entry (hl : s.holdsLease p = true) (he : s.engine.isPending = false)
    {k : Highway} (hk : highway.toNat = k.val) (hf : first.toNat ≤ 63) (hc : 1 ≤ count.toNat)
    (hc' : count.toNat ≤ 24) (ho : octets.length = 4 * count.toNat) {i : Nat} {status : Status}
    (h : s.checkEntries k first.toNat 0 (rawEntries octets) = some (status, i)) :
    runWriteEntries p highway first count octets s = (s, .reply { status := status, data := [octet i] }) := by
  have hargs : ¬ (63 < first.toNat ∨ count.toNat = 0 ∨ 24 < count.toNat ∨ octets.length ≠ 4 * count.toNat) := by omega
  unfold runWriteEntries State.leased
  rw [if_pos hl]
  cases hg : s.engine with
  | pending r => simp [hg, Engine.isPending] at he
  | idle | syncing pos marks => simp only [highwayOf_of_toNat_eq hk, if_neg hargs, h]

end

/-- A WRITE_ENTRIES that its block refuses changes nothing but the renewal (R11). -/
theorem exec_writeEntries_of_refused {s : State} {p : PortId} {tag highway first count : Octet} {octets : List Octet}
    (h : s.ready p tag) (hlen : octets.length ≤ 119) {r : Reply}
    (hrun : runWriteEntries p highway first count octets (s.started p tag (.writeEntries highway first count octets)) =
      (s.started p tag (.writeEntries highway first count octets), .reply r)) :
    exec (.writeEntries p tag highway first count octets) s =
      .next ((s.renewLease p).answered p tag (.writeEntries highway first count octets) r) :=
  (if_pos hlen).trans (congrArg _ (takeCommand_of_unchanged h (.writeEntries highway first count octets) hrun))

/-- Settles O16: each refusal of R11 from its own equation of `runWriteEntries`, and the table of R12 from
`checkEntry_slot`. -/
theorem writeEntriesChecksInOrder : Obligations.WriteEntriesChecksInOrder := by
  unfold Obligations.WriteEntriesChecksInOrder
  refine ⟨fun p tag highway first count octets s hr hlen => ⟨fun hl => ?_, fun hl he => ?_, fun hl he hargs => ?_,
      fun k i e status hl he hk hf hc hc' ho hi hbad hgood => ?_⟩,
    fun s k target e ht => checkEntry_of_target_gt s k ht e, checkEntry_slot⟩
  · have hrun := runWriteEntries_of_no_lease (highway := highway) (first := first) (count := count) (octets := octets)
      ((started_holdsLease s p tag (.writeEntries highway first count octets) p).trans hl)
    rw [exec_writeEntries_of_refused hr hlen hrun, renewLease_of_not_holder hl]
    simp [State.noLease, State.holderOctet]
  · exact exec_writeEntries_of_refused hr hlen (runWriteEntries_of_pending (by simpa using hl) (by simpa using he))
  · exact exec_writeEntries_of_refused hr hlen
      (runWriteEntries_of_bad_argument (by simpa using hl) (by simpa using he) hargs)
  · have hsame := checkEntry_congr (started_isProtected s p tag (.writeEntries highway first count octets))
    have hfirst := checkEntries_of_first (s.started p tag (.writeEntries highway first count octets)) k first.toNat 0 i
      (rawEntries octets) e status hi (by simpa [hsame] using hbad)
      (fun j x hj hx => by simpa [hsame] using hgood j x hj hx)
    rw [Nat.zero_add] at hfirst
    exact exec_writeEntries_of_refused hr hlen
      (runWriteEntries_of_bad_entry (by simpa using hl) (by simpa using he) hk hf hc hc' ho hfirst)

/-! ### READ_ENTRIES (R15) -/

/-- The run that a READ_ENTRIES returns, slot by slot. -/
theorem readRun_eq_flatMap_range (s : State) (b : BankId) (k : Highway) (first count : Nat) :
    s.readRun b k first count =
      (List.range count).flatMap fun i => ((s.bank b)[k][first + i]?.map Entry.octets).getD [] := by
  unfold State.readRun
  generalize (s.bank b)[k] = row
  induction count with
  | zero => simp
  | succ count ih =>
    rw [List.take_add_one, List.flatMap_append, ih, List.range_succ, List.flatMap_append, List.getElem?_drop,
      Vector.getElem?_toList]
    cases h : row[first + count]? <;> simp [h]

theorem exec_readEntries_of_run {s : State} {p : PortId} {tag role highway first count : Octet} (h : s.ready p tag)
    {r : Reply}
    (hrun : runReadEntries role highway first count (s.started p tag (.readEntries role highway first count)) =
      (s.started p tag (.readEntries role highway first count), .reply r)) :
    exec (.readEntries p tag role highway first count) s =
      .next ((s.renewLease p).answered p tag (.readEntries role highway first count) r) :=
  congrArg _ (takeCommand_of_unchanged h (.readEntries role highway first count) hrun)

theorem runReadEntries_of_good {s : State} {role highway first count : Octet} {k : Highway} (hr : role.toNat ≤ 1)
    (hk : highway.toNat = k.val) (hc : 1 ≤ count.toNat) (hc' : count.toNat ≤ 24)
    (hf : first.toNat + count.toNat ≤ 64) :
    runReadEntries role highway first count s =
      (s, .reply (okReply ([bankOctet (if role = 0 then s.activeBank else s.standbyBank), highway, first, count] ++
        s.readRun (if role = 0 then s.activeBank else s.standbyBank) k first.toNat count.toNat))) := by
  have hargs : ¬ (63 < first.toNat ∨ count.toNat = 0 ∨ 24 < count.toNat ∨ 64 < first.toNat + count.toNat) := by omega
  have hb : (if decide (role ≠ 0) = true then s.standbyBank else s.activeBank) =
      if role = 0 then s.activeBank else s.standbyBank := by
    by_cases h0 : role = 0 <;> simp [h0]
  simp only [runReadEntries, flagOf_of_le_one hr, highwayOf_of_toNat_eq hk, if_neg hargs, hb]

theorem runReadEntries_of_bad {s : State} {role highway first count : Octet}
    (h : 1 < role.toNat ∨ 7 < highway.toNat ∨ 63 < first.toNat ∨ count.toNat = 0 ∨ 24 < count.toNat ∨
      64 < first.toNat + count.toNat) :
    runReadEntries role highway first count s = (s, .reply (refusal .badArgument)) := by
  unfold runReadEntries
  rcases h with hr | hk | hargs
  · rw [flagOf_of_gt_one hr]
  · rw [highwayOf_of_gt hk]
    cases flagOf role <;> rfl
  · cases flagOf role with
    | none => rfl
    | some standby =>
      cases highwayOf highway with
      | none => rfl
      | some k => exact if_pos hargs

/-- Settles O17: the two outcomes of `runReadEntries`, with the run given slot by slot. -/
theorem readEntriesReturnsTheRun : Obligations.ReadEntriesReturnsTheRun := by
  unfold Obligations.ReadEntriesReturnsTheRun
  refine fun p tag role highway first count s hready => ⟨fun k hr hk hc hc' hf => ?_, fun hbad => ?_⟩
  · rw [exec_readEntries_of_run hready (runReadEntries_of_good hr hk hc hc' hf)]
    simp only [started_activeBank, started_standbyBank, readRun_eq_flatMap_range, started_bank]
  · exact exec_readEntries_of_run hready (runReadEntries_of_bad hbad)

/-! ### READ_BANKS (R19) -/

@[simp] theorem started_differenceCount (s : State) (p : PortId) (tag : Octet) (c : Command) :
    (s.started p tag c).differenceCount = s.differenceCount := by
  simp [State.differenceCount]

theorem differenceCount_eq_decide (s : State) :
    s.differenceCount =
      countSlots fun k n => !s.isProtected k n && decide (s.standbyEntry k n ≠ s.activeEntry k n) := by
  simp only [State.differenceCount, bne, beq_eq_decide, decide_not]

/-- The answer of READ_BANKS at each engine state: only a sync has a position, and only a sync has dirty marks (R19). -/
theorem runReadBanks_eq (s : State) :
    runReadBanks s = (s, .reply (okReply
      ((match s.engine with
        | .idle => [bankOctet s.activeBank, 0x00, 0xFF, 0x00, 0x00]
        | .pending _ => [bankOctet s.activeBank, 0x01, 0xFF, 0x00, 0x00]
        | .syncing pos marks => [bankOctet s.activeBank, 0x02, highwayOctet pos] ++
          pairOctets (BitVec.ofNat 16 (countSlots fun k n => marks[k][n]))) ++
        pairOctets (BitVec.ofNat 16 s.differenceCount)))) := by
  cases hg : s.engine <;> simp [runReadBanks, State.dirtyCount, hg, engineOctet, orAbsent, pairOctets]

/-- Settles O21: the answer of `runReadBanks_eq` at the start of the command reads the map and the engine, which a start
leaves as they were. -/
theorem readBanksCounts : Obligations.ReadBanksCounts := by
  unfold Obligations.ReadBanksCounts
  intro p tag s hready
  have hrun := runReadBanks_eq (s.started p tag .readBanks)
  simp only [started_engine, started_activeBank, started_differenceCount, differenceCount_eq_decide s] at hrun
  exact congrArg _ (takeCommand_of_unchanged hready .readBanks hrun)

end Sys2Proof.Machine
end

section
/-! SUPPORT. What an output frame start rests on, and what leaves it alone: the lines being sent, the ACTIVE bank,
whether a commit is PENDING, the commands that wait, and the reset that the next octets of a port bring about. -/

namespace Sys2Proof.Machine

/-! ### The reset that the octets of a port bring about (R141, R146) -/

/-- The reset that the next `n` octets of a transmit queue bring about. -/
def bringsReset (n : Nat) (places : List Place) : Option Scope := (takeOctets n places).2.2

theorem bringsReset_succ (n : Nat) (places : List Place) :
    bringsReset (n + 1) places = (takeOctet places).2.2.or (bringsReset n (takeOctet places).2.1) := rfl

/-- The start reads the reset of a port off its transmit queue when the port gives octets (R81, R146). -/
theorem octetsFrom_reset (s : State) (p : PortId) (places : List Place) :
    (s.octetsFrom p places).2.2 = if s.portSends p then bringsReset (strapWidth s.straps) places else none := by
  unfold State.octetsFrom
  split <;> rfl

/-- A queue whose head gives 00H brings nothing about (R141). -/
theorem bringsReset_of_idle {places : List Place} (h : takeOctet places = (0x00, places, none)) (n : Nat) :
    bringsReset n places = none := by
  induction n with
  | zero => rfl
  | succ n ih => simp [bringsReset_succ, h, ih]

/-- The octets of a message that brings no reset about bring none about while it lasts. -/
theorem bringsReset_message {n : Nat} {m : List Octet} (h : n ≤ m.length) (rest : List Place) :
    bringsReset n (.message m none :: rest) = none := by
  induction n generalizing m with
  | zero => rfl
  | succ n ih =>
    match m, h with
    | [o], h =>
      obtain rfl : n = 0 := by simpa using h
      rfl
    | o :: o' :: os, h => simpa [bringsReset_succ, takeOctet] using ih (by simpa using h)

/-- A message that enters at the tail brings nothing about that the queue does not (R123). -/
theorem bringsReset_append (n : Nat) (places : List Place) (m : List Octet) :
    bringsReset n (places ++ [.message m none]) = bringsReset n places := by
  induction n generalizing places with
  | zero => rfl
  | succ n ih =>
    match places with
    | [] =>
      have hnil : ∀ j, bringsReset j [] = none := bringsReset_of_idle rfl
      have hm : ∀ (j : Nat) (m : List Octet), bringsReset j [.message m none] = none := by
        intro j
        induction j with
        | zero => exact fun _ => rfl
        | succ j ihj =>
          intro m
          match m with
          | [] => exact bringsReset_of_idle rfl _
          | [o] => simp [bringsReset_succ, takeOctet, hnil]
          | o :: o' :: os => simp [bringsReset_succ, takeOctet, ihj]
      rw [List.nil_append, hm, hnil]
    | .reserved r :: rest => rw [bringsReset_of_idle rfl, bringsReset_of_idle rfl]
    | .message [] x :: rest => rw [bringsReset_of_idle rfl, bringsReset_of_idle rfl]
    | .message [o] x :: rest => simp [bringsReset_succ, takeOctet, ih]
    | .message (o :: o' :: os) x :: rest =>
      simpa [bringsReset_succ, takeOctet] using ih (.message (o' :: os) x :: rest)

/-- A reserved place holds back what is behind it, and so does the message that fills it, as long as it is sent
(R141). -/
theorem bringsReset_fillPlace {n : Nat} {m : List Octet} (h : n ≤ m.length) (r : Reservation) (places : List Place) :
    bringsReset n (fillPlace r m none places) = bringsReset n places := by
  induction n generalizing places with
  | zero => rfl
  | succ n ih =>
    match places with
    | [] => rfl
    | .reserved r' :: rest =>
      rw [bringsReset_of_idle (places := .reserved r' :: rest) rfl]
      unfold fillPlace
      split
      · exact bringsReset_message h rest
      · exact bringsReset_of_idle rfl _
    | .message [] x :: rest => rw [fillPlace, bringsReset_of_idle rfl, bringsReset_of_idle rfl]
    | .message [o] x :: rest =>
      simpa [bringsReset_succ, takeOctet, fillPlace] using congrArg _ (ih (by omega) rest)
    | .message (o :: o' :: os) x :: rest =>
      simpa [bringsReset_succ, takeOctet, fillPlace] using ih (by omega) (.message (o' :: os) x :: rest)

theorem four_le_responseMessage (tag code : Octet) (r : Reply) : 4 ≤ (responseMessage tag code r).length := by
  simp only [responseMessage, envelope, List.length_cons, List.length_append]
  omega

theorem strapWidth_le (t : Straps) : strapWidth t ≤ 4 := by
  unfold strapWidth
  split <;> omega

/-! ### What a start rests on -/

/-- The command waits at a port and has not started (R137, R145). -/
def State.waits (s : State) (c : Command) : Prop := ∃ p, ∃ q ∈ (s.port p).commands, q.command = c ∧ q.started = false

/-- Port `y` is port `x` as far as a start rests on it: it holds the same commands, and its next octets bring the same
reset about. -/
structure Port.restsAs (x y : Port) : Prop where
  commands : y.commands = x.commands
  resets   : ∀ n ≤ 4, bringsReset n y.transmit = bringsReset n x.transmit

theorem Port.restsAs.refl (x : Port) : x.restsAs x := ⟨rfl, fun _ _ => rfl⟩

theorem Port.restsAs.trans {x y z : Port} (h : x.restsAs y) (h' : y.restsAs z) : x.restsAs z :=
  ⟨h'.commands.trans h.commands, fun n hn => (h'.resets n hn).trans (h.resets n hn)⟩

/-- State `t` is state `s` as far as a start rests on it. -/
structure State.restsAs (s t : State) : Prop where
  lines      : ∀ k, (t.output k).line = (s.output k).line
  activeBank : t.activeBank = s.activeBank
  pending    : t.engine.isPending = s.engine.isPending
  ports      : ∀ p, (s.port p).restsAs (t.port p)

theorem State.restsAs.refl (s : State) : s.restsAs s := ⟨fun _ => rfl, rfl, rfl, fun _ => Port.restsAs.refl _⟩

theorem State.restsAs.trans {s t u : State} (h : s.restsAs t) (h' : t.restsAs u) : s.restsAs u :=
  ⟨fun k => (h'.lines k).trans (h.lines k), h'.activeBank.trans h.activeBank, h'.pending.trans h.pending,
    fun p => (h.ports p).trans (h'.ports p)⟩

/-- What leaves the outputs, the ACTIVE bank, the engine and the ports alone leaves all that a start rests on. -/
theorem restsAs_of_same {s t : State} (ho : t.outputs = s.outputs) (ha : t.activeBank = s.activeBank)
    (he : t.engine = s.engine) (hp : ∀ p, t.port p = s.port p) : s.restsAs t :=
  ⟨fun k => by rw [State.output, State.output, ho], ha, by rw [he], fun p => hp p ▸ Port.restsAs.refl _⟩

section
variable (s : State)

theorem restsAs_setReceiver (k : Highway) (x : Receiver) : s.restsAs (s.setReceiver k x) :=
  restsAs_of_same rfl rfl rfl (by simp)

theorem restsAs_countHighway (k : Highway) (f : HighwayCounters → HighwayCounters) : s.restsAs (s.countHighway k f) :=
  restsAs_setReceiver s k _

theorem restsAs_setQueue (k : Highway) (x : FrameQueue) : s.restsAs (s.setQueue k x) :=
  restsAs_of_same rfl rfl rfl (by simp)

theorem restsAs_setSup (k : Highway) (x : Supervisor) : s.restsAs (s.setSup k x) :=
  restsAs_of_same rfl rfl rfl (by simp)

theorem restsAs_setTiming (x : Timing) : s.restsAs (s.setTiming x) := restsAs_of_same rfl rfl rfl (by simp)

theorem restsAs_setEvents (x : EventList) : s.restsAs (s.setEvents x) := restsAs_of_same rfl rfl rfl (by simp)

theorem restsAs_setLease (x : Lease) : s.restsAs (s.setLease x) := restsAs_of_same rfl rfl rfl (by simp)

theorem restsAs_setCapture (x : Capture) : s.restsAs (s.setCapture x) := restsAs_of_same rfl rfl rfl (by simp)

theorem restsAs_useDraw : s.restsAs s.useDraw := restsAs_of_same rfl rfl rfl (by simp)

theorem restsAs_setBank (b : BankId) (x : Bank) : s.restsAs (s.setBank b x) :=
  restsAs_of_same (by simp) (by simp) (by simp) (by simp)

theorem restsAs_setEngine {e : Engine} (h : e.isPending = s.engine.isPending) : s.restsAs (s.setEngine e) :=
  ⟨fun _ => rfl, rfl, h, fun p => by simpa using Port.restsAs.refl (s.port p)⟩

theorem restsAs_setOutput (k : Highway) {x : Output} (h : x.line = (s.output k).line) :
    s.restsAs (s.setOutput k x) := by
  refine ⟨fun j => ?_, rfl, rfl, fun p => by simpa using Port.restsAs.refl (s.port p)⟩
  by_cases hj : k = j
  · subst hj; simp [h]
  · simp [hj]

theorem restsAs_setPort (p : PortId) {x : Port} (h : (s.port p).restsAs x) : s.restsAs (s.setPort p x) := by
  refine ⟨by simp, by simp, by simp, fun q => ?_⟩
  by_cases hq : p = q
  · subst hq; simpa using h
  · simpa [hq] using Port.restsAs.refl (s.port q)

theorem restsAs_countPort (p : PortId) (f : PortCounters → PortCounters) : s.restsAs (s.countPort p f) :=
  restsAs_setPort s p ⟨rfl, fun _ _ => rfl⟩

theorem restsAs_renewLease (p : PortId) : s.restsAs (s.renewLease p) := by
  obtain ⟨l, h⟩ := renewLease_eq_setLease s p
  exact h ▸ restsAs_setLease s l

/-! ### News (R109, R123, R125) -/

theorem restsAs_queueNotice (p : PortId) (n : List Octet) : s.restsAs (s.queueNotice p n) := by
  unfold State.queueNotice
  split
  · exact restsAs_setPort s p ⟨rfl, fun i _ => bringsReset_append i _ n⟩
  · exact .refl s

theorem restsAs_noticeDropped (p : PortId) : s.restsAs (s.noticeDropped p) :=
  (restsAs_countPort s p _).trans (restsAs_setEvents _ _)

theorem restsAs_offerNotices : s.restsAs s.offerNotices := by
  have h := (restsAs_queueNotice s .a s.events.notice).trans (restsAs_queueNotice _ .b s.events.notice)
  unfold State.offerNotices
  simp only
  split
  · exact h
  · exact h.trans (restsAs_noticeDropped _ _)
  · exact h.trans (restsAs_noticeDropped _ _)
  · have hd := h.trans (restsAs_useDraw _)
    split
    · exact (hd.trans (restsAs_noticeDropped _ _)).trans (restsAs_noticeDropped _ _)
    · exact (hd.trans (restsAs_noticeDropped _ _)).trans (restsAs_noticeDropped _ _)

theorem restsAs_settleAttention : s.restsAs s.settleAttention := by
  unfold State.settleAttention
  split
  · exact .refl s
  · split
    · exact (restsAs_setEvents s _).trans (restsAs_offerNotices _)
    · exact restsAs_setEvents s _

/-- An event, and the NOTICE that it may bring, leave what a start rests on: a NOTICE enters behind what waits. -/
theorem restsAs_raise (key : EventKey) (v : EventValue) : s.restsAs (s.raise key v) :=
  (restsAs_setEvents s _).trans (restsAs_settleAttention _)

theorem restsAs_holdTick : s.restsAs s.holdTick := by
  unfold State.holdTick
  split
  · exact .refl s
  · split
    · exact .refl s
    · exact (restsAs_setEvents s _).trans (restsAs_settleAttention _)

theorem restsAs_timerTick (running : Option Octet) (delivered : Bool) : s.restsAs (s.timerTick running delivered) := by
  unfold State.timerTick
  split
  · exact .refl s
  · split
    · exact restsAs_setEvents s _
    · split
      · exact .refl s
      · exact (restsAs_setEvents s _).trans (restsAs_offerNotices _)

theorem restsAs_listTick (timerFirst delivered : Bool) : s.restsAs (s.listTick timerFirst delivered) := by
  unfold State.listTick
  split
  · exact (restsAs_timerTick s _ _).trans (restsAs_holdTick _)
  · exact (restsAs_holdTick s).trans (restsAs_timerTick _ _ _)

theorem restsAs_leaseTick : s.restsAs s.leaseTick := by
  unfold State.leaseTick
  split
  · exact .refl s
  · split
    · exact (restsAs_setLease s _).trans (restsAs_raise _ _ _)
    · exact restsAs_setLease s _

theorem restsAs_repeatSlip (k : Highway) : s.restsAs (s.repeatSlip k) :=
  (restsAs_countHighway s k _).trans (restsAs_raise _ _ _)

/-! ### The blocks -/

theorem restsAs_captureOctet (o : Octet) : s.restsAs (s.captureOctet o) := by
  unfold State.captureOctet
  split
  · exact restsAs_setCapture s _
  · exact (restsAs_setCapture s _).trans (restsAs_raise _ _ _)

theorem restsAs_breakCapture (down : Source → Bool) : s.restsAs (s.breakCapture down) := by
  unfold State.breakCapture
  split
  · split
    · exact (restsAs_setCapture s _).trans (restsAs_raise _ _ _)
    · exact .refl s
  · exact .refl s
  · exact .refl s
  · exact .refl s

/-- The deferred response of a COMMIT holds back what is behind it, as its reserved place did (R141). -/
theorem restsAs_answerCommit (r : PendingCommit) (reply : Reply) : s.restsAs (s.answerCommit r reply) := by
  unfold State.answerCommit
  simp only
  split
  · exact restsAs_setPort s _
      ⟨rfl, fun n hn => bringsReset_fillPlace (hn.trans (four_le_responseMessage _ _ _)) _ _⟩
  · exact .refl s

/-- Of a swap, the start rests on the bank roles and the engine alone (R25, R26). -/
theorem restsAs_makeSwap (r : PendingCommit) :
    ((s.setActiveBank s.standbyBank).setEngine (.syncing 0 noMarks)).restsAs (s.makeSwap r) :=
  (restsAs_answerCommit _ _ _).trans (restsAs_raise _ _ _)

theorem restsAs_syncStep : s.restsAs s.syncStep := by
  unfold State.syncStep
  split
  · rename_i pos marks he
    have h : ∀ e : Engine, e.isPending = false → s.restsAs ((s.copyHighway pos marks).setEngine e) := fun e h =>
      (restsAs_setBank s _ _).trans (restsAs_setEngine _ (h.trans (by simp [he, Engine.isPending])))
    simp only
    split
    · exact (h _ rfl).trans (restsAs_raise _ _ _)
    · exact h _ rfl
  · exact .refl s
  · exact .refl s

theorem restsAs_setAlign (k : Highway) (a : Align) (f : Bool) : s.restsAs (s.setAlign k a f) :=
  restsAs_setReceiver s k _

theorem restsAs_leaveTraffic (k : Highway) : s.restsAs (s.leaveTraffic k) :=
  (restsAs_setQueue s k _).trans (restsAs_setSup _ k _)

theorem restsAs_resetFramer (k : Highway) : s.restsAs (s.resetFramer k) := by
  unfold State.resetFramer
  split
  · exact restsAs_setPort s _ ⟨rfl, fun _ _ => rfl⟩
  · exact .refl s

theorem restsAs_loseLink (k : Highway) : s.restsAs (s.loseLink k) := by
  unfold State.loseLink
  split
  · exact .refl s
  · split
    · exact (restsAs_setLease s _).trans (restsAs_raise _ _ _)
    · exact .refl s

theorem restsAs_enterSearch (k : Highway) (history : List Bool) : s.restsAs (s.enterSearch k history) :=
  ((((restsAs_setAlign s k _ _).trans (restsAs_leaveTraffic _ k)).trans (restsAs_resetFramer _ k)).trans
    (restsAs_loseLink _ k)).trans (restsAs_breakCapture _ _)

theorem restsAs_enterDisabled (k : Highway) : s.restsAs (s.enterDisabled k) := by
  have h := (restsAs_setAlign s k .disabled false).trans (restsAs_leaveTraffic _ k)
  unfold State.enterDisabled
  simp only
  split
  · exact (h.trans (restsAs_raise _ _ _)).trans (restsAs_breakCapture _ _)
  · exact h.trans (restsAs_breakCapture _ _)

theorem restsAs_setInputEnable (k : Highway) (enable : Bool) : s.restsAs (s.setInputEnable k enable) := by
  unfold State.setInputEnable
  split
  · exact .refl s
  · split
    · exact restsAs_enterSearch s k _
    · exact restsAs_enterDisabled s k

theorem restsAs_writeStandby (k : Highway) (first : Nat) (es : List Entry) : s.restsAs (s.writeStandby k first es) := by
  have h := restsAs_setBank s s.standbyBank ((s.bank s.standbyBank).set k (writeRow (s.bank s.standbyBank)[k] first es))
  unfold State.writeStandby
  simp only
  split
  · rename_i he
    exact h.trans (restsAs_setEngine _ (by simp only [he, Engine.isPending]))
  · exact h
  · exact h

/-! ### The commands of a port (R139) -/

/-- A command that needs the lease does what it does, or is refused without a change (R158). -/
theorem restsAs_leased (p : PortId) {run : State × Result} (h : s.restsAs run.1) : s.restsAs (s.leased p run).1 := by
  unfold State.leased
  split
  · exact h
  · exact .refl s

theorem restsAs_runClaim (p : PortId) : s.restsAs (runClaim p s).1 := by
  unfold runClaim
  split
  · exact .refl s
  · split
    · exact restsAs_setLease s _
    · split
      · exact restsAs_setLease s _
      · exact .refl s

theorem restsAs_runRelease (p : PortId) : s.restsAs (runRelease p s).1 := by
  unfold runRelease
  split
  · exact restsAs_setLease s _
  · exact .refl s

theorem restsAs_runSetLease (p : PortId) (period : Octet) : s.restsAs (runSetLease p period s).1 := by
  refine restsAs_leased s p ?_
  split
  · exact .refl s
  · exact restsAs_setLease s _

theorem restsAs_runReset (p : PortId) (scope : Octet) : s.restsAs (runReset p scope s).1 := by
  refine restsAs_leased s p ?_
  split
  · exact .refl s
  · split <;> exact .refl s

theorem restsAs_runWriteEntries (p : PortId) (k n c : Octet) (es : List Octet) :
    s.restsAs (runWriteEntries p k n c es s).1 := by
  refine restsAs_leased s p ?_
  split
  · exact .refl s
  all_goals
    split
    · exact .refl s
    · split
      · exact .refl s
      · split
        · exact .refl s
        · exact restsAs_writeStandby s _ _ _

theorem restsAs_runReadEntries (r k n c : Octet) : s.restsAs (runReadEntries r k n c s).1 := by
  unfold runReadEntries
  split
  · split <;> exact .refl s
  · exact .refl s

theorem restsAs_runClearStandby (p : PortId) : s.restsAs (runClearStandby p s).1 := by
  refine restsAs_leased s p ?_
  split
  · exact .refl s
  · exact restsAs_setBank s _ _
  · rename_i he
    exact ((restsAs_setBank s _ _).trans (restsAs_setEngine _ (by simp [he, Engine.isPending]))).trans
      (restsAs_raise _ _ _)

theorem restsAs_runResync (p : PortId) : s.restsAs (runResync p s).1 := by
  refine restsAs_leased s p ?_
  split
  · exact .refl s
  · exact .refl s
  · rename_i he
    exact restsAs_setEngine s (by simp [he, Engine.isPending])

theorem restsAs_runSetInput (p : PortId) (k e x g : Octet) : s.restsAs (runSetInput p k e x g s).1 := by
  refine restsAs_leased s p ?_
  split
  · split
    · exact .refl s
    · split
      · exact .refl s
      · exact (restsAs_setReceiver s _ _).trans (restsAs_setInputEnable _ _ _)
  · exact .refl s

/-- A SET_OUTPUT leaves the frame that is being sent (R84). -/
theorem restsAs_runSetOutput (p : PortId) (k e o c : Octet) : s.restsAs (runSetOutput p k e o c s).1 := by
  refine restsAs_leased s p ?_
  split
  · rename_i h on _ _
    have hset : s.restsAs (s.setOutput h { s.output h with enabled := on, idleOctet := o, idleCode := lowCode c }) :=
      restsAs_setOutput s h rfl
    split
    · exact .refl s
    · split
      · exact .refl s
      · simp only
        split
        · exact hset.trans (restsAs_breakCapture _ _)
        · exact hset
  · exact .refl s

theorem restsAs_runReadHighway (k : Octet) : s.restsAs (runReadHighway k s).1 := by
  unfold runReadHighway
  split <;> exact .refl s

theorem restsAs_runReadCountersHighway (n : Octet) (clear : Bool) : s.restsAs (runReadCountersHighway n clear s).1 := by
  unfold runReadCountersHighway
  split
  · simp only
    split
    · exact restsAs_countHighway s _ _
    · exact .refl s
  · exact .refl s

theorem restsAs_runReadCountersPort (n : Octet) (clear : Bool) : s.restsAs (runReadCountersPort n clear s).1 := by
  unfold runReadCountersPort
  split
  · simp only
    split
    · exact restsAs_countPort s _ _
    · exact .refl s
  · exact .refl s

theorem restsAs_runReadCounters (p : PortId) (g n c : Octet) : s.restsAs (runReadCounters p g n c s).1 := by
  unfold runReadCounters
  split
  · exact .refl s
  · split
    · exact restsAs_runReadCountersHighway s _ _
    · exact restsAs_runReadCountersPort s _ _
    · exact .refl s

theorem restsAs_runWatch (p : PortId) (k n c v : Octet) : s.restsAs (runWatch p k n c v s).1 := by
  refine restsAs_leased s p ?_
  split
  · split
    · exact .refl s
    · exact restsAs_setSup s _ _
  · exact .refl s

theorem restsAs_runReadSignaling (k : Octet) : s.restsAs (runReadSignaling k s).1 := by
  unfold runReadSignaling
  split
  · exact restsAs_useDraw s
  · exact .refl s

theorem restsAs_runFetchEvents (p : PortId) (ack : Option Octet) : s.restsAs (runFetchEvents p ack s).1 := by
  have h : s.restsAs (s.fetch p ack).1 := (restsAs_setEvents s _).trans (restsAs_settleAttention _)
  unfold runFetchEvents
  simp only
  split
  · exact (h.trans (restsAs_setEvents _ _)).trans (restsAs_useDraw _)
  · exact h.trans (restsAs_useDraw _)

theorem restsAs_runSetAttention (p : PortId) (h l i t : Octet) : s.restsAs (runSetAttention p h l i t s).1 := by
  refine restsAs_leased s p ?_
  split
  · exact .refl s
  · exact ((restsAs_setEvents s _).trans (restsAs_settleAttention _)).trans (restsAs_setEvents _ _)

theorem restsAs_runArmCapture (p : PortId) (k h n t a b c lh ll : Octet) :
    s.restsAs (runArmCapture p k h n t a b c lh ll s).1 := by
  refine restsAs_leased s p ?_
  split
  · split
    · exact .refl s
    · split
      · exact .refl s
      · exact (restsAs_setCapture s _).trans (restsAs_useDraw _)
  · exact .refl s

theorem restsAs_runReadCapture : s.restsAs (runReadCapture s).1 := by
  unfold runReadCapture
  split
  · exact restsAs_useDraw s
  · exact (restsAs_setCapture s _).trans (restsAs_useDraw _)

theorem restsAs_runCancelCapture (p : PortId) : s.restsAs (runCancelCapture p s).1 :=
  restsAs_leased s p (restsAs_setCapture s _)

/-- Of the commands, COMMIT and ABORT_COMMIT alone change what a start rests on, and that in the engine (R22, R27). -/
theorem restsAs_runCommand (p : PortId) {q : Queued} (hc : q.command ≠ .commit) (ha : q.command ≠ .abortCommit) :
    s.restsAs (runCommand p q s).1 := by
  unfold runCommand
  cases h : q.command with
  | identify | readBanks => exact .refl s
  | claim => exact restsAs_runClaim s p
  | release => exact restsAs_runRelease s p
  | setLease period => exact restsAs_runSetLease s p period
  | reset scope => exact restsAs_runReset s p scope
  | writeEntries k n c es => exact restsAs_runWriteEntries s p k n c es
  | readEntries r k n c => exact restsAs_runReadEntries s r k n c
  | clearStandby => exact restsAs_runClearStandby s p
  | resync => exact restsAs_runResync s p
  | commit => exact absurd h hc
  | abortCommit => exact absurd h ha
  | setInput k e x g => exact restsAs_runSetInput s p k e x g
  | setOutput k e o c => exact restsAs_runSetOutput s p k e o c
  | readHighway k => exact restsAs_runReadHighway s k
  | readCounters g n c => exact restsAs_runReadCounters s p g n c
  | watch k n c v => exact restsAs_runWatch s p k n c v
  | readSignaling k => exact restsAs_runReadSignaling s k
  | fetchEvents ack => exact restsAs_runFetchEvents s p ack
  | setAttention mh ml i t => exact restsAs_runSetAttention s p mh ml i t
  | armCapture k j n t a b c lh ll => exact restsAs_runArmCapture s p k j n t a b c lh ll
  | readCapture => exact restsAs_runReadCapture s
  | cancelCapture => exact restsAs_runCancelCapture s p

/-- A COMMIT changes of that at most the engine, and leaves a PENDING commit (R22). -/
theorem runCommit_restsAs (p : PortId) (tag : Octet) (cached : Bool) :
    ∃ e, (s.setEngine e).restsAs (runCommit p tag cached s).1 ∧
      (s.engine.isPending = true → e.isPending = true) := by
  unfold runCommit State.leased
  split
  · split
    · exact ⟨s.engine, .refl s, id⟩
    · exact ⟨s.engine, .refl s, id⟩
    · exact ⟨_, .refl _, fun _ => rfl⟩
  · exact ⟨s.engine, .refl s, id⟩

/-- An ABORT_COMMIT changes of that at most the engine, and makes no commit PENDING (R27). -/
theorem runAbortCommit_restsAs (p : PortId) :
    ∃ e, (s.setEngine e).restsAs (runAbortCommit p s).1 ∧ (e.isPending = true → s.engine.isPending = true) := by
  unfold runAbortCommit State.leased
  split
  · split
    · exact ⟨s.engine, .refl s, id⟩
    · exact ⟨s.engine, .refl s, id⟩
    · exact ⟨.idle, (restsAs_answerCommit _ _ _).trans (restsAs_raise _ _ _), fun h => by cases h⟩
  · exact ⟨s.engine, .refl s, id⟩

end

/-! ### Commands that start one after another (R139, R140) -/

/-- The command waits at port `p` and has not started. -/
def State.waitsAt (s : State) (p : PortId) (c : Command) : Prop :=
  ∃ q ∈ (s.port p).commands, q.command = c ∧ q.started = false

/-- State `t` comes of state `s` by commands that waited at port `p`: the other port, the lines and the bank roles are
as a start rests on them, and a commit is made PENDING by a COMMIT alone and cancelled by an ABORT_COMMIT alone. -/
structure State.runsTo (p : PortId) (s t : State) : Prop where
  lines      : ∀ k, (t.output k).line = (s.output k).line
  activeBank : t.activeBank = s.activeBank
  committed  : t.engine.isPending = true → s.engine.isPending = true ∨ s.waitsAt p .commit
  aborted    : s.engine.isPending = true → t.engine.isPending = true ∨ s.waitsAt p .abortCommit
  commands   : ∀ q ∈ (t.port p).commands, q.started = false → q ∈ (s.port p).commands
  other      : ∀ o, o ≠ p → (s.port o).restsAs (t.port o)

theorem State.waitsAt.of_commands {s t : State} {p : PortId} {c : Command}
    (h : ∀ q ∈ (t.port p).commands, q.started = false → q ∈ (s.port p).commands) (hw : t.waitsAt p c) :
    s.waitsAt p c := by
  obtain ⟨q, hq, hc, hs⟩ := hw
  exact ⟨q, h q hq hs, hc, hs⟩

theorem State.runsTo.trans {p : PortId} {s t u : State} (h : s.runsTo p t) (h' : t.runsTo p u) : s.runsTo p u where
  lines k := (h'.lines k).trans (h.lines k)
  activeBank := h'.activeBank.trans h.activeBank
  committed hu := (h'.committed hu).elim h.committed fun hw => .inr (hw.of_commands h.commands)
  aborted hs := (h.aborted hs).elim (fun ht => (h'.aborted ht).imp_right fun hw => hw.of_commands h.commands) .inr
  commands q hq hs := h.commands q (h'.commands q hq hs) hs
  other o ho := (h.other o ho).trans (h'.other o ho)

theorem State.restsAs.runsTo {s t : State} (h : s.restsAs t) (p : PortId) : s.runsTo p t where
  lines := h.lines
  activeBank := h.activeBank
  committed ht := .inl (h.pending ▸ ht)
  aborted hs := .inl (h.pending.trans hs)
  commands _ hq _ := (h.ports p).commands ▸ hq
  other o _ := h.ports o

/-- What the port does with its own queues is its own, as long as no new command waits in them. -/
theorem runsTo_setPort (s : State) (p : PortId) {x : Port}
    (h : ∀ q ∈ x.commands, q.started = false → q ∈ (s.port p).commands) : s.runsTo p (s.setPort p x) where
  lines := by simp
  activeBank := by simp
  committed ht := .inl (by simpa using ht)
  aborted hs := .inl (by simpa using hs)
  commands := by simpa using h
  other o ho := by simpa [ho.symm] using Port.restsAs.refl (s.port o)

theorem runsTo_answerCommand (s : State) (p : PortId) (q : Queued) (r : Reply) (resets : Option Scope) :
    s.runsTo p (s.answerCommand p q r resets) :=
  runsTo_setPort s p fun _ h _ => h

theorem runsTo_dropHead (s : State) (p : PortId) : s.runsTo p (s.dropHead p) :=
  runsTo_setPort s p fun _ h _ => List.mem_of_mem_drop h

theorem runsTo_holdHead (s : State) (p : PortId) : s.runsTo p (s.holdHead p) := by
  refine runsTo_setPort s p fun q h hs => ?_
  cases hc : (s.port p).commands with
  | nil => simp [hc] at h
  | cons x rest =>
    rcases List.mem_cons.mp (by simpa only [hc] using h) with rfl | h
    · simp at hs
    · exact List.mem_cons_of_mem _ h

theorem runsTo_keepPlace (s : State) (p : PortId) : s.runsTo p (s.keepPlace p) := runsTo_setPort s p fun _ h _ => h

theorem runsTo_complete (s : State) (p : PortId) (q : Queued) (x : Result) : s.runsTo p (s.complete p q x) := by
  cases x with
  | reply r => exact (runsTo_answerCommand s p q r none).trans (runsTo_dropHead _ p)
  | deferred => exact (runsTo_keepPlace s p).trans (runsTo_dropHead _ p)
  | resetAccepted scope r => exact (runsTo_answerCommand s p q r _).trans (runsTo_holdHead _ p)

theorem runsTo_setEngine {s : State} {p : PortId} {e : Engine}
    (hc : e.isPending = true → s.engine.isPending = true ∨ s.waitsAt p .commit)
    (ha : s.engine.isPending = true → e.isPending = true ∨ s.waitsAt p .abortCommit) : s.runsTo p (s.setEngine e) where
  lines _ := rfl
  activeBank := rfl
  committed := hc
  aborted := ha
  commands _ hq _ := by simpa using hq
  other o _ := by simpa using Port.restsAs.refl (s.port o)

theorem runsTo_runCommand {s : State} {p : PortId} {q : Queued} (hq : q ∈ (s.port p).commands)
    (hs : q.started = false) : s.runsTo p (runCommand p q s).1 := by
  by_cases hc : q.command = .commit
  · obtain ⟨e, he, hp⟩ := runCommit_restsAs s p q.tag q.cached
    have hrun : runCommand p q s = runCommit p q.tag q.cached s := by unfold runCommand; rw [hc]
    exact hrun ▸ (runsTo_setEngine (fun _ => .inr ⟨q, hq, hc, hs⟩) fun h => .inl (hp h)).trans (he.runsTo p)
  by_cases ha : q.command = .abortCommit
  · obtain ⟨e, he, hp⟩ := runAbortCommit_restsAs s p
    have hrun : runCommand p q s = runAbortCommit p s := by unfold runCommand; rw [ha]
    exact hrun ▸ (runsTo_setEngine (fun h => .inl (hp h)) fun _ => .inr ⟨q, hq, ha, hs⟩).trans (he.runsTo p)
  exact (restsAs_runCommand s p hc ha).runsTo p

theorem runsTo_executeCommand {s : State} {p : PortId} {q : Queued} (hq : q ∈ (s.port p).commands)
    (hs : q.started = false) : s.runsTo p (s.executeCommand p q) :=
  (((restsAs_renewLease s p).runsTo p).trans (runsTo_runCommand (by simpa using hq) hs)).trans (runsTo_complete _ p q _)

theorem runsTo_runQueue (n : Nat) (p : PortId) (s : State) : s.runsTo p (runQueue n p s) := by
  induction n generalizing s with
  | zero => exact (State.restsAs.refl s).runsTo p
  | succ n ih =>
    unfold runQueue
    split
    · exact (State.restsAs.refl s).runsTo p
    · rename_i q rest hc
      split
      · rename_i hgo
        have hs : q.started = false := by simpa using (Bool.and_eq_true_iff.mp hgo).2
        have hr : s.runsTo p (s.reservePlace p) := runsTo_setPort s p fun _ h _ => h
        exact (hr.trans (runsTo_executeCommand (by simp [State.reservePlace, hc]) hs)).trans (ih _)
      · exact (State.restsAs.refl s).runsTo p

theorem runsTo_runPort (s : State) (p : PortId) : s.runsTo p (s.runPort p) := runsTo_runQueue _ p s

end Sys2Proof.Machine
end

section
/-! SUPPORT. What holds of an output frame start on its way, whatever the order of its parts: the frames being sent are
built from the bank that is ACTIVE after the start, and what decides that bank. -/

namespace Sys2Proof.Machine

/-! ### The state that the frames are built from -/

/-- The bank that is ACTIVE after a start, by whether the start swaps (R25). -/
def State.bankAfter (s : State) (swaps : Bool) : BankId := if swaps then s.standbyBank else s.activeBank

theorem bankAfter_swapsNext (s : State) : s.bankAfter s.swapsNext = s.nextActive := rfl

theorem bankAfter_not (s : State) (swaps : Bool) : otherBank (s.bankAfter swaps) = s.bankAfter (!swaps) := by
  unfold State.bankAfter State.standbyBank
  cases swaps <;> cases s.activeBank <;> rfl

section
variable (s : State)

@[simp] theorem frameState_straps : s.frameState.straps = s.straps := by simp [frameState_eq]

@[simp] theorem frameState_output (k : Highway) : s.frameState.output k = s.output k := by simp [frameState_eq]

@[simp] theorem frameState_receiver (k : Highway) : s.frameState.receiver k = s.receiver k := by simp [frameState_eq]

@[simp] theorem frameState_slotState (k : Highway) (n : Slot) : s.frameState.slotState k n = s.slotState k n := by
  simp [frameState_eq]

@[simp] theorem frameState_inService (k : Highway) : s.frameState.inService k = s.inService k := by simp [frameState_eq]

@[simp] theorem frameState_bank (b : BankId) : s.frameState.bank b = s.bank b := by simp [frameState_eq]

@[simp] theorem frameState_timing : s.frameState.timing = s.timing.advance := by simp [frameState_eq]

@[simp] theorem frameState_queue (k : Highway) : s.frameState.queue k = s.selectedQueue k := by
  rw [frameState_eq, setActiveBank_queue]
  simp [State.queue, State.setQueues]

theorem frameState_setActiveBank : s.frameState.setActiveBank s.nextActive = s.frameState := by
  rw [frameState_eq]
  rfl

end

theorem portSends_setActiveBank_frameState (s : State) (b : BankId) (p : PortId) :
    (s.frameState.setActiveBank b).portSends p = s.portSends p := by
  simp [State.portSends, State.portEnabled, State.portPair]

/-- The reset that the octets of a port bring about at the start is the one that the transmit queue shows before it,
when the queue brings about the same (R146). -/
theorem octetsFrom_reset_of_same {s : State} {b : BankId} {p : PortId} {places : List Place}
    (h : ∀ n ≤ 4, bringsReset n places = bringsReset n (s.port p).transmit) :
    ((s.frameState.setActiveBank b).octetsFrom p places).2.2 = s.resetNext p := by
  rw [State.resetNext, State.portOctets, octetsFrom_reset, octetsFrom_reset, portSends_setActiveBank_frameState,
    setActiveBank_straps, frameState_straps, h _ (strapWidth_le _)]

/-- Highway `k` sends this line when the frames are built from state `f`: its frame, with some octets in the management
slots, or all ones when it is disabled (R78, R83). -/
def State.sends (f : State) (k : Highway) (l : Line) : Prop :=
  ((f.output k).enabled = true → ∃ mgmt, l = f.buildLine k mgmt) ∧ ((f.output k).enabled = false → l = onesLine)

theorem sends_nextOutput (f : State) (k : Highway) : f.sends k (f.nextOutput k).line := by
  constructor <;> intro h
  · exact ⟨[], by simp [State.nextOutput, h]⟩
  · simp [State.nextOutput, h]

theorem sends_rebuildFrames {s f : State} {k : Highway}
    (h : (f.output k).enabled = false → (s.output k).line = onesLine) :
    f.sends k ((s.rebuildFrames f).output k).line := by
  have hline : ((s.rebuildFrames f).output k).line =
      if (f.output k).enabled then f.buildLine k ((s.output k).line.toList.drop (67 - strapWidth f.straps))
      else (s.output k).line := by
    simp [State.rebuildFrames, State.output, State.setOutputs]
  constructor <;> intro hk
  · exact ⟨_, by rw [hline, if_pos hk]⟩
  · rw [hline, if_neg (by simp [hk]), h hk]

/-! ### The start on its way -/

/-- The frames being sent are built with the bank that is ACTIVE after the start, and where that is not the bank that
the start found due, a command that waited has decided so (R24, R28). -/
structure StartRun.sendsFrames (s : State) (r : StartRun) : Prop where
  frame   : r.frame = s.frameState.setActiveBank (s.bankAfter r.swaps)
  lines   : ∀ k, r.frame.sends k (r.state.output k).line
  decided : r.swaps ≠ s.swapsNext → s.boundaryNext = true ∧
    ((s.swapsNext = true ∧ s.waits .abortCommit ∧ (r.state.engine.isPending = true → s.waits .commit)) ∨
      s.swapsNext = false ∧ s.waits .commit)

/-- What holds of the start of state `s` until a cold reset takes effect. `done` says that the boundary has been taken
and a swap that was due has been made. -/
structure StartRun.serves (s : State) (done : Bool) (r : StartRun) : Prop extends sending : r.sendsFrames s where
  warm       : r.cold = false
  boundary   : r.boundary = s.boundaryNext
  swapDue    : r.swap.isSome = true → r.swaps = true
  undecided  : r.begun = false → r.swap.isSome = r.swaps
  finished   : done = true → r.begun = true ∧ r.swap.isSome = false
  activeBank : r.state.activeBank = s.bankAfter (r.swaps && !r.swap.isSome)
  committed  : r.state.engine.isPending = true → s.engine.isPending = true ∨ s.waits .commit
  aborted    : r.begun = false → s.engine.isPending = true → r.state.engine.isPending = true ∨ s.waits .abortCommit
  commands   : ∀ p, ∀ q ∈ (r.state.port p).commands, q.started = false → q ∈ (s.port p).commands
  reserved   : ∀ p ∈ r.reserved, p ∈ r.taken ∧ ∀ q rest, (r.state.port p).commands = q :: rest → q.started = false
  transmit   : ∀ p, p ∉ r.taken → ∀ n ≤ 4, bringsReset n (r.state.port p).transmit = bringsReset n (s.port p).transmit
  resetA     : r.resetA = some .cold → s.resetNext .a = some .cold
  resetB     : r.resetB = some .cold → s.resetNext .b = some .cold

/-- What holds of the start once a cold reset has taken effect. -/
structure StartRun.endsCold (s : State) (r : StartRun) : Prop extends sending : r.sendsFrames s where
  cold : r.cold = true
  due  : s.resetNext .a = some .cold ∨ s.resetNext .b = some .cold

theorem State.waitsAt.waits {s : State} {p : PortId} {c : Command} (h : s.waitsAt p c) : s.waits c := ⟨p, h⟩

theorem beginStart_serves (s : State) : s.beginStart.serves s false where
  frame := by
    rw [show s.beginStart.swaps = s.swapsNext from dueSwap_isSome s, bankAfter_swapsNext, frameState_setActiveBank]
    rfl
  lines k := by
    simpa [State.beginStart, State.buildFrames, State.output, State.setOutputs] using sends_nextOutput s.frameState k
  decided h := absurd (dueSwap_isSome s) h
  warm := rfl
  boundary := rfl
  swapDue h := h
  undecided _ := rfl
  finished h := by cases h
  activeBank := by
    rw [show (s.beginStart.swaps && !s.beginStart.swap.isSome) = false from Bool.and_not_self _]
    rfl
  committed h := .inl h
  aborted _ h := .inl h
  commands p q h _ := by cases p <;> exact h
  reserved p h := by cases h
  transmit p _ n _ := by cases p <;> rfl
  resetA h := by cases h
  resetB h := by cases h

section
variable {s : State} {done : Bool} {r : StartRun}

/-- A part that leaves what the start rests on keeps what holds of the start. -/
theorem serves_of_restsAs (h : r.serves s done) {t : State} (ht : r.state.restsAs t) (slips : List Highway)
    {begun : Bool} (hb : begun = false → r.begun = false) (delivered : Bool) (handed : List Highway) :
    StartRun.serves s done
      { r with state := t, slips := slips, begun := begun, delivered := delivered, handed := handed } where
  frame := h.frame
  lines k := by simpa [ht.lines] using h.lines k
  decided hs := by simpa [ht.pending] using h.decided hs
  warm := h.warm
  boundary := h.boundary
  swapDue := h.swapDue
  undecided hu := h.undecided (hb hu)
  finished hd := ⟨by simpa [(h.finished hd).1] using hb, (h.finished hd).2⟩
  activeBank := ht.activeBank.trans h.activeBank
  committed hp := h.committed (ht.pending ▸ hp)
  aborted hu hp := by simpa [ht.pending] using h.aborted (hb hu) hp
  commands p := by simpa [(ht.ports p).commands] using h.commands p
  reserved p := by simpa [(ht.ports p).commands] using h.reserved p
  transmit p hp n hn := ((ht.ports p).resets n hn).trans (h.transmit p hp n hn)
  resetA := h.resetA
  resetB := h.resetB

/-- Commands of a port that has given its octets keep what holds of the start: a commit that they make PENDING, or
cancel, waited at the port (R22, R27). -/
theorem serves_of_runsTo (h : r.serves s done) {p : PortId} {t : State} (ht : r.state.runsTo p t) (hp : p ∈ r.taken)
    {reserved : List PortId} (hr : ∀ o ∈ reserved, o ∈ r.reserved ∧ o ≠ p) (delivered : Bool) :
    StartRun.serves s done { r with state := t, reserved := reserved, delivered := delivered } := by
  have hw : ∀ {c}, r.state.waitsAt p c → s.waits c := fun hc => (hc.of_commands (h.commands p)).waits
  exact {
    frame := h.frame
    lines := fun k => by simpa [ht.lines] using h.lines k
    decided := fun hs => by
      obtain ⟨hb, ⟨hn, ha, hc⟩ | hc⟩ := h.decided hs
      · exact ⟨hb, .inl ⟨hn, ha, fun ht' => (ht.committed ht').elim hc hw⟩⟩
      · exact ⟨hb, .inr hc⟩
    warm := h.warm
    boundary := h.boundary
    swapDue := h.swapDue
    undecided := h.undecided
    finished := h.finished
    activeBank := ht.activeBank.trans h.activeBank
    committed := fun ht' => (ht.committed ht').elim h.committed fun hc => .inr (hw hc)
    aborted := fun hb hs => (h.aborted hb hs).elim (fun hr' => (ht.aborted hr').imp_right hw) .inr
    commands := fun o q hq hs => by
      by_cases ho : o = p
      · subst ho
        exact h.commands o q (ht.commands q hq hs) hs
      · exact h.commands o q ((ht.other o ho).commands ▸ hq) hs
    reserved := fun o ho => by
      obtain ⟨ho, hne⟩ := hr o ho
      simpa [(ht.other o hne).commands] using h.reserved o ho
    transmit := fun o ho n hn => by
      have hne : o ≠ p := fun e => ho (e ▸ hp)
      exact ((ht.other o hne).resets n hn).trans (h.transmit o ho n hn)
    resetA := h.resetA
    resetB := h.resetB }

theorem takeTiming_serves (h : r.serves s done) : r.takeTiming.serves s done :=
  serves_of_restsAs h (restsAs_setTiming _ _) _ (fun hb => by cases hb) _ _

theorem takeSlip_serves (h : r.serves s done) (k : Highway) : (r.takeSlip k).serves s done := by
  unfold StartRun.takeSlip
  split
  · exact serves_of_restsAs h (restsAs_repeatSlip _ k) _ id _ _
  · exact h

theorem takeCopy_serves (h : r.serves s done) : r.takeCopy.serves s done := by
  unfold StartRun.takeCopy
  split
  · exact h
  · exact serves_of_restsAs h (restsAs_syncStep _) _ (fun hb => by cases hb) _ _

/-- The roles exchanged and the engine SYNCING, before the deferred response and the event of the swap (R25). -/
theorem exchange_serves (h : r.serves s done) (hw : r.swap.isSome = true) :
    StartRun.serves s true
      { r with
        state := (r.state.setActiveBank r.state.standbyBank).setEngine (.syncing 0 noMarks)
        swap := none
        begun := true } where
  frame := h.frame
  lines := h.lines
  decided hs := by
    obtain ⟨hb, ⟨hn, ha, -⟩ | hc⟩ := h.decided hs
    · exact ⟨hb, .inl ⟨hn, ha, fun he => by cases he⟩⟩
    · exact ⟨hb, .inr hc⟩
  warm := h.warm
  boundary := h.boundary
  swapDue hs := by cases hs
  undecided hb := by cases hb
  finished _ := ⟨rfl, rfl⟩
  activeBank := by
    have ha := h.activeBank
    rw [hw, Bool.not_true, Bool.and_false] at ha
    simp [h.swapDue hw, State.standbyBank, ha, bankAfter_not]
  committed hp := by cases hp
  aborted hb := by cases hb
  commands p := by simpa using h.commands p
  reserved p := by simpa using h.reserved p
  transmit p := by simpa using h.transmit p
  resetA := h.resetA
  resetB := h.resetB

/-- After the boundary the swap is made, if one was due (R25). -/
theorem takeSwap_serves (h : r.serves s done) : r.takeSwap.serves s true := by
  unfold StartRun.takeSwap
  split
  · rename_i c hc
    have he := exchange_serves (takeTiming_serves h) (by simp [StartRun.takeTiming, hc])
    exact serves_of_restsAs he (restsAs_makeSwap _ c) _ id _ _
  · rename_i hc
    have hb := serves_of_restsAs h (.refl _) r.slips (begun := true) (fun hb => by cases hb) r.delivered r.handed
    exact { hb with finished := fun _ => ⟨rfl, by simp [hc]⟩ }

/-! ### The octets of a port -/

/-- A port that has not given its octets gives those that its transmit queue showed before the start (R141, R146). -/
theorem take_serves (h : r.serves s done) {p : PortId} (hp : p ∉ r.taken) {x : Option Scope}
    (hx : x = (r.frame.octetsFrom p (r.state.port p).transmit).2.2) :
    StartRun.serves s done
      { r with
        taken := p :: r.taken
        resetA := if p = .a then x else r.resetA
        resetB := if p = .b then x else r.resetB } := by
  have hreset : x = s.resetNext p := by
    rw [hx, h.frame]
    exact octetsFrom_reset_of_same (h.transmit p hp)
  exact {
    frame := h.frame
    lines := h.lines
    decided := h.decided
    warm := h.warm
    boundary := h.boundary
    swapDue := h.swapDue
    undecided := h.undecided
    finished := h.finished
    activeBank := h.activeBank
    committed := h.committed
    aborted := h.aborted
    commands := h.commands
    reserved := fun o ho => ⟨List.mem_cons_of_mem _ (h.reserved o ho).1, (h.reserved o ho).2⟩
    transmit := fun o ho => h.transmit o fun hm => ho (List.mem_cons_of_mem _ hm)
    resetA := by
      cases p with
      | a => simp [hreset]
      | b => simpa using h.resetA
    resetB := by
      cases p with
      | a => simpa using h.resetB
      | b => simp [hreset] }

@[simp] theorem placeOctets_port (s f : State) (k : Highway) (mgmt : List Octet) (p : PortId) :
    (s.placeOctets f k mgmt).port p = s.port p := setOutput_port ..

@[simp] theorem placeOctets_line (s f : State) (k j : Highway) (mgmt : List Octet) :
    ((s.placeOctets f k mgmt).output j).line = if k = j then f.buildLine k mgmt else (s.output j).line := by
  by_cases hj : k = j <;> simp [State.placeOctets, hj]

/-- The octets of a port leave its frame a frame of the start (R81). -/
theorem placeOctets_serves (h : r.serves s done) {k : Highway} (hk : (r.frame.output k).enabled = true)
    (mgmt : List Octet) : StartRun.serves s done { r with state := r.state.placeOctets r.frame k mgmt } :=
  { h with
    lines := fun j => by
      by_cases hj : k = j
      · subst hj
        exact ⟨fun _ => ⟨mgmt, by simp⟩, fun hd => by simp [hk] at hd⟩
      · simpa [hj] using h.lines j
    commands := fun p => by simpa using h.commands p
    reserved := fun p => by simpa using h.reserved p
    transmit := fun p => by simpa using h.transmit p }

theorem canStart_head {x : Port} {q : Queued} {rest : List Queued} (h : x.canStart = true)
    (hq : x.commands = q :: rest) : q.started = false := by
  simp only [Port.canStart, hq, Bool.and_eq_true, Bool.not_eq_true'] at h
  exact h.2

/-- The head of a command queue that can start is given its place (R143). -/
theorem reserve_serves (h : r.serves s done) {p : PortId} (hp : p ∈ r.taken) (hn : p ∉ r.reserved)
    (hc : (r.state.port p).canStart = true) :
    StartRun.serves s done { r with state := r.state.reservePlace p, reserved := p :: r.reserved } := by
  have ht : r.state.runsTo p (r.state.reservePlace p) := runsTo_setPort _ p fun _ hq _ => hq
  have hs := serves_of_runsTo h ht hp (reserved := r.reserved) (fun o ho => ⟨ho, fun e => hn (e ▸ ho)⟩) r.delivered
  refine { hs with reserved := fun o ho => ?_ }
  rcases List.mem_cons.mp ho with rfl | ho
  · refine ⟨hp, fun q rest hq => ?_⟩
    have hq' : (r.state.port o).commands = q :: rest := by simpa [State.reservePlace] using hq
    exact canStart_head hc hq'
  · exact hs.reserved o ho

theorem takeOctets_serves (h : r.serves s done) (p : PortId) : (r.takeOctets p).serves s done := by
  unfold StartRun.takeOctets
  split
  · exact h
  · rename_i hp
    have hn : p ∉ r.reserved := fun hm => hp (h.reserved p hm).1
    have ht := take_serves h hp rfl
    have hgive : r.state.runsTo p (r.state.setPort p
        { r.state.port p with transmit := (r.frame.octetsFrom p (r.state.port p).transmit).2.1 }) :=
      runsTo_setPort r.state p fun _ hq _ => hq
    have hd := serves_of_runsTo ht hgive List.mem_cons_self (reserved := r.reserved)
      (fun o ho => ⟨ho, fun e => hn (e ▸ ho)⟩) r.delivered
    simp only
    split
    · rename_i hc
      split
      · rename_i hsend
        exact reserve_serves (placeOctets_serves hd (Bool.and_eq_true_iff.mp hsend).2 _) List.mem_cons_self hn
          (by simpa using hc)
      · exact reserve_serves hd List.mem_cons_self hn (by simpa using hc)
    · split
      · rename_i hsend
        exact placeOctets_serves hd (Bool.and_eq_true_iff.mp hsend).2 _
      · exact hd

theorem handOctet_serves (h : r.serves s done) (k : Highway) : (r.handOctet k).serves s done := by
  have hskip : StartRun.serves s done { r with handed := k :: r.handed } :=
    serves_of_restsAs h (.refl _) _ id _ _
  unfold StartRun.handOctet
  split
  · exact h
  · split
    · split
      · simp only
        split
        · exact serves_of_restsAs (takeOctets_serves h _) (restsAs_captureOctet _ _) _ (fun hb => by cases hb) _ _
        · exact serves_of_restsAs h (restsAs_captureOctet _ _) _ (fun hb => by cases hb) _ _
      · exact hskip
    · exact hskip
    · exact hskip

theorem takeCapture_serves (h : r.serves s done) : r.takeCapture.serves s done :=
  foldl_keeps (StartRun.serves s done) _ _ _ h fun _ k _ hr => handOctet_serves hr k

/-! ### The commands that start -/

theorem StartRun.serves.weaken (h : r.serves s true) : r.serves s done :=
  { h with finished := fun _ => h.finished rfl }

theorem before_serves (h : r.serves s done) (c : Command) : (r.before c).serves s done := by
  cases c with
  | abortCommit =>
    unfold StartRun.before
    simp only
    split
    · exact (takeSwap_serves h).weaken
    · exact h
  | setOutput k =>
    unfold StartRun.before
    simp only
    split
    · exact handOctet_serves h _
    · exact h
  | readHighway k => exact takeTiming_serves h
  | _ => exact h

end

/-- What comes before a command leaves the command queues, and the ports that have given their octets have given them.
-/
structure StartRun.keepsQueues (r r' : StartRun) : Prop where
  commands : ∀ p, (r'.state.port p).commands = (r.state.port p).commands
  taken    : ∀ p ∈ r.taken, p ∈ r'.taken

theorem setPort_commands (s : State) (p o : PortId) {x : Port} (h : x.commands = (s.port p).commands) :
    ((s.setPort p x).port o).commands = (s.port o).commands := by
  by_cases ho : p = o
  · subst ho; simp [h]
  · simp [ho]

theorem reservePlace_commands (s : State) (p o : PortId) :
    ((s.reservePlace p).port o).commands = (s.port o).commands := setPort_commands s p o rfl

theorem takeOctets_keepsQueues (r : StartRun) (p : PortId) : r.keepsQueues (r.takeOctets p) := by
  unfold StartRun.takeOctets
  split
  · exact ⟨fun _ => rfl, fun _ => id⟩
  · refine ⟨fun o => ?_, fun _ => List.mem_cons_of_mem _⟩
    have hgive : ∀ tx, ((r.state.setPort p { r.state.port p with transmit := tx }).port o).commands =
        (r.state.port o).commands := fun _ => setPort_commands _ p o rfl
    have hplace : ∀ tx k mgmt,
        (((r.state.setPort p { r.state.port p with transmit := tx }).placeOctets r.frame k mgmt).port o).commands =
          (r.state.port o).commands := fun tx _ _ => (congrArg _ (placeOctets_port ..)).trans (hgive tx)
    simp only
    split
    · rw [reservePlace_commands]
      split
      · exact hplace _ _ _
      · exact hgive _
    · split
      · exact hplace _ _ _
      · exact hgive _

theorem handOctet_keepsQueues (r : StartRun) (k : Highway) : r.keepsQueues (r.handOctet k) := by
  have hcapture : ∀ (t : State) (o : Octet) p, ((t.captureOctet o).port p).commands = (t.port p).commands :=
    fun t o p => ((restsAs_captureOctet t o).ports p).commands
  unfold StartRun.handOctet
  split
  · exact ⟨fun _ => rfl, fun _ => id⟩
  · split
    · split
      · simp only
        split
        · rename_i p _
          have h := takeOctets_keepsQueues r p
          exact ⟨fun o => (hcapture _ _ o).trans (h.commands o), h.taken⟩
        · exact ⟨hcapture _ _, fun _ => id⟩
      · exact ⟨fun _ => rfl, fun _ => id⟩
    · exact ⟨fun _ => rfl, fun _ => id⟩
    · exact ⟨fun _ => rfl, fun _ => id⟩

theorem takeSwap_keepsQueues (r : StartRun) : r.keepsQueues r.takeSwap := by
  unfold StartRun.takeSwap
  split
  · exact ⟨fun p => by simp [((restsAs_makeSwap _ _).ports p).commands, StartRun.takeTiming], fun _ => id⟩
  · exact ⟨fun _ => rfl, fun _ => id⟩

theorem before_keepsQueues (r : StartRun) (c : Command) : r.keepsQueues (r.before c) := by
  cases c with
  | abortCommit =>
    unfold StartRun.before
    simp only
    split
    · exact takeSwap_keepsQueues r
    · exact ⟨fun _ => rfl, fun _ => id⟩
  | setOutput k =>
    unfold StartRun.before
    simp only
    split
    · exact handOctet_keepsQueues r _
    · exact ⟨fun _ => rfl, fun _ => id⟩
  | readHighway k => exact ⟨fun p => by simp [StartRun.before, StartRun.takeTiming], fun _ => id⟩
  | _ => exact ⟨fun _ => rfl, fun _ => id⟩

theorem record_isSome (e : Engine) : e.record.isSome = e.isPending := by cases e <;> rfl

section
variable {s : State} {done : Bool} {r : StartRun}

/-- The swap of a start that has not taken its boundary changes with the engine, and the frames change with it (R24,
R28). -/
theorem flipSwap_serves (h : r.serves s done) (hb : s.boundaryNext = true) (hu : r.begun = false)
    (hc : r.state.engine.record.isSome ≠ r.swap.isSome) :
    StartRun.serves s done
      { r with
        state := r.state.rebuildFrames (r.frame.setActiveBank (otherBank r.frame.activeBank))
        frame := r.frame.setActiveBank (otherBank r.frame.activeBank)
        swap := r.state.engine.record
        swaps := r.state.engine.record.isSome } where
  frame := by
    have hswaps : r.state.engine.record.isSome = !r.swaps := by
      rw [← h.undecided hu]
      exact Bool.eq_not.mpr hc
    rw [hswaps, ← bankAfter_not, h.frame]
    rfl
  lines k := sends_rebuildFrames (h.lines k).2
  decided hs := by
    refine ⟨hb, ?_⟩
    have hn : s.swapsNext = s.engine.isPending := by rw [State.swapsNext, hb, Bool.true_and]
    rw [record_isSome, hn] at hs
    cases hp : s.engine.isPending with
    | true =>
      have hr : r.state.engine.isPending = false := by simpa [hp] using hs
      exact .inl ⟨hn.trans hp, (h.aborted hu hp).resolve_left (by simp [hr]),
        fun he => absurd (hr.symm.trans he) Bool.false_ne_true⟩
    | false =>
      have hr : r.state.engine.isPending = true := by simpa [hp] using hs
      exact .inr ⟨hn.trans hp, (h.committed hr).resolve_left (by simp [hp])⟩
  warm := h.warm
  boundary := h.boundary
  swapDue := id
  undecided _ := rfl
  finished hd := by simp [(h.finished hd).1] at hu
  activeBank := by
    have ha := h.activeBank
    rw [h.undecided hu, Bool.and_not_self] at ha
    rw [Bool.and_not_self]
    exact ha
  committed := h.committed
  aborted := h.aborted
  commands p := by simpa [State.rebuildFrames] using h.commands p
  reserved p := by simpa [State.rebuildFrames] using h.reserved p
  transmit p := by simpa [State.rebuildFrames] using h.transmit p
  resetA := h.resetA
  resetB := h.resetB

theorem checkSwap_serves (h : r.serves s done) : r.checkSwap.serves s done := by
  unfold StartRun.checkSwap
  split
  · rename_i hgo
    obtain ⟨hb, hu⟩ : r.boundary = true ∧ r.begun = false := by simpa using hgo
    unfold StartRun.setSwap
    split
    · rename_i hc
      exact { h with
        swapDue := fun hs => h.swapDue (hc ▸ hs)
        undecided := fun hu => hc.trans (h.undecided hu)
        finished := fun hd => ⟨(h.finished hd).1, hc.trans (h.finished hd).2⟩
        activeBank := hc ▸ h.activeBank }
    · rename_i hc
      exact flipSwap_serves h (h.boundary ▸ hb) hu hc
  · exact h

theorem execute_serves (h : r.serves s done) (p : PortId) : (r.execute p).serves s done := by
  unfold StartRun.execute
  split
  · rename_i hp
    split
    · rename_i q rest hq
      obtain ⟨htaken, hhead⟩ := h.reserved p hp
      have hk := before_keepsQueues r q.command
      have hmem : q ∈ ((r.before q.command).state.port p).commands := by simp [hk.commands, hq]
      have hrun := (runsTo_executeCommand hmem (hhead q rest hq)).trans (runsTo_runPort _ p)
      exact checkSwap_serves (serves_of_runsTo (before_serves h q.command) hrun (hk.taken p htaken)
        (fun o ho => by simpa using ho) _)
    · exact h
  · exact h

theorem startCommand_serves (h : r.serves s done) (p : PortId) : (r.startCommand p).serves s done := by
  have hq := takeOctets_serves h p
  unfold StartRun.startCommand
  simp only
  split
  · exact execute_serves (execute_serves hq _) _
  · exact hq

/-! ### The parts and the whole -/

/-- A reset leaves the frames that are being sent (R146). -/
theorem takeReset_serves (h : r.serves s done) (resetBFirst : Bool) :
    (r.takeReset resetBFirst).serves s done ∨ (r.takeReset resetBFirst).endsCold s := by
  unfold StartRun.takeReset
  split
  · rename_i hready
    simp only [StartRun.resetReady, Bool.and_eq_true, Option.isNone_iff_eq_none, decide_eq_true_eq,
      List.isEmpty_iff] at hready
    obtain ⟨⟨⟨hswap, ha⟩, hb⟩, hres⟩ := hready
    split
    · exact .inl { h with
        commands := fun p q hq => by cases p <;> cases hq
        reserved := fun p hp => by simp [hres] at hp
        transmit := fun p hp => by cases p <;> contradiction
        resetA := fun hr => by cases hr
        resetB := fun hr => by cases hr }
    · rename_i hdue
      refine .inr ⟨⟨h.frame, fun k => ?_, fun hs => ?_⟩, rfl, ?_⟩
      · simpa [State.resetCold, State.output, State.setOutputs] using h.lines k
      · obtain ⟨hb, ⟨hn, hw, -⟩ | hc⟩ := h.decided hs
        · exact ⟨hb, .inl ⟨hn, hw, fun he => by cases he⟩⟩
        · exact ⟨hb, .inr hc⟩
      · unfold StartRun.resetDue at hdue
        split at hdue <;> rcases Option.or_eq_some_iff.mp hdue with hr | ⟨-, hr⟩
        · exact .inr (h.resetB hr)
        · exact .inl (h.resetA hr)
        · exact .inl (h.resetA hr)
        · exact .inr (h.resetB hr)
    · exact .inl h
  · exact .inl h

theorem task_serves (h : r.serves s done) (order : StartOrder) (x : StartTask) :
    (r.task order x).serves s (done || decide (x = .swap)) ∨ (r.task order x).endsCold s := by
  unfold StartRun.task
  rw [if_neg (by simp [h.warm])]
  cases x with
  | swap => exact .inl (by simpa using takeSwap_serves h)
  | timing => exact .inl (by simpa using takeTiming_serves h)
  | slip k => exact .inl (by simpa using takeSlip_serves h k)
  | copy => exact .inl (by simpa using takeCopy_serves h)
  | take p => exact .inl (by simpa using takeOctets_serves h p)
  | start p => exact .inl (by simpa using startCommand_serves h p)
  | capture => exact .inl (by simpa using takeCapture_serves h)
  | leaseTick =>
    refine .inl ?_
    simp only [reduceCtorEq, decide_false, Bool.or_false]
    split
    · exact serves_of_restsAs h (restsAs_leaseTick _) _ id _ _
    · exact h
  | listTick =>
    refine .inl ?_
    simp only [reduceCtorEq, decide_false, Bool.or_false]
    split
    · exact serves_of_restsAs h (restsAs_listTick _ _ _) _ id _ _
    · exact h
  | reset => simpa using takeReset_serves h order.resetBFirst

/-- At the end of a start every part has been taken, the swap among them, or a cold reset has taken effect. -/
theorem outputStart_serves (s : State) (order : StartOrder) :
    ∃ r : StartRun, (r.serves s true ∨ r.endsCold s) ∧ s.outputStart order = r.state := by
  have htask : ∀ (d : Bool) (r : StartRun) (x : StartTask), r.serves s d ∨ r.endsCold s →
      (r.task order x).serves s (d || decide (x = .swap)) ∨ (r.task order x).endsCold s := by
    intro d r x h
    rcases h with h | h
    · exact task_serves h order x
    · exact .inr ((task_of_cold h.cold order x).symm ▸ h)
  have hfold : ∀ (l : List StartTask) (d : Bool) (r : StartRun), r.serves s d ∨ r.endsCold s →
      (l.foldl (fun r x => r.task order x) r).serves s (d || decide (.swap ∈ l)) ∨
        (l.foldl (fun r x => r.task order x) r).endsCold s := by
    intro l
    induction l with
    | nil => intro d r h; simpa using h
    | cons x l ih =>
      intro d r h
      have := ih _ _ (htask d r x h)
      simpa [Bool.or_assoc, eq_comm] using this
  have hall := hfold (startParts order) false s.beginStart (.inl (beginStart_serves s))
  rw [decide_eq_true (mem_startParts order .swap)] at hall
  exact ⟨_, htask true _ .reset hall, rfl⟩

end

end Sys2Proof.Machine
end

section
/-! SUPPORT. The frames of an output frame start: what each octet of a built frame is, and the ACTIVE map that it
follows (R53, R79, R80, R82, R83). -/

namespace Sys2Proof.Machine

/-! ### What a built frame holds -/

section
variable (f : State) (k : Highway) (mgmt : List Octet)

theorem buildLine_marker : (f.buildLine k mgmt)[0] = markerOctet (f.receiver k).align.sendsRA f.timing.frame := by
  simp [State.buildLine]

theorem buildLine_signalling_low : (f.buildLine k mgmt)[1] =
    signallingOctet (f.slotCode k (signallingSlot f.timing.frame 0))
      (f.slotCode k (signallingSlot f.timing.frame 1)) := by
  simp [State.buildLine]

theorem buildLine_signalling_high : (f.buildLine k mgmt)[2] =
    signallingOctet (f.slotCode k (signallingSlot f.timing.frame 2))
      (f.slotCode k (signallingSlot f.timing.frame 3)) := by
  simp [State.buildLine]

theorem buildLine_slot (n : Slot) : (f.buildLine k mgmt)[3 + n.val]'(by omega) = f.slotOctet k mgmt n := by
  simp [State.buildLine]

end

/-- RA is sent for a receiver in SEARCH or CONFIRM (R53). -/
theorem sendsRA_eq_decide (a : Align) : a.sendsRA = decide (alignOctet a = 1 ∨ alignOctet a = 2) := by
  cases a <;> rfl

/-! ### The state that the frames are built from, read through the ACTIVE map -/

theorem advance_frame (t : Timing) : t.advance.frame = if t.startPending then t.frame else t.frame + 1 := by
  unfold Timing.advance
  split <;> rfl

section
variable (s : State) (b : BankId)

/-- The reading frame is the one that the start selects (R64 to R66, R69). -/
theorem readingFrame_frameState (h : Highway) :
    (s.frameState.setActiveBank b).readingFrame h = s.nextReading h := by
  unfold State.readingFrame State.nextReading
  simp only [setActiveBank_inService, frameState_inService, setActiveBank_queue, frameState_queue, State.selectedQueue]
  cases s.inService h with
  | false => rfl
  | true => cases hq : (s.queue h).frames <;> simp

theorem activeEntry_frameState (k : Highway) (n : Slot) :
    (s.frameState.setActiveBank b).activeEntry k n = (s.bank b)[k][n] := by
  simp [State.activeEntry]

theorem slotCode_frameState (k : Highway) (n : Slot) :
    (s.frameState.setActiveBank b).slotCode k n = s.nextCode k (s.bank b)[k][n] := by
  unfold State.slotCode State.nextCode
  simp only [activeEntry_frameState, readingFrame_frameState, setActiveBank_output, frameState_output,
    setActiveBank_slotState, frameState_slotState]
  generalize (s.bank b)[k][n] = e
  cases e.content with
  | idle fixed => rfl
  | constant value fixed => rfl
  | mgmt fixed => rfl
  | slot h m signalling =>
    cases signalling with
    | fixed code => rfl
    | follow =>
      simp only
      cases s.nextReading h with
      | none => rfl
      | some frame => cases (s.slotState h m).stable <;> rfl

theorem slotOctet_frameState {k : Highway} {n : Slot} {o : Octet} (h : s.nextOctet k (s.bank b)[k][n] = some o)
    (mgmt : List Octet) : (s.frameState.setActiveBank b).slotOctet k mgmt n = o := by
  unfold State.nextOctet at h
  unfold State.slotOctet
  simp only [activeEntry_frameState, readingFrame_frameState, setActiveBank_output, frameState_output] at h ⊢
  generalize (s.bank b)[k][n] = e at h ⊢
  cases hc : e.content with
  | idle fixed | constant value fixed => simpa only [hc, Option.some.injEq] using h
  | mgmt fixed => simp [hc] at h
  | slot j m signalling =>
    simp only [hc] at h ⊢
    cases hr : s.nextReading j <;> simpa only [hr, Option.some.injEq] using h

/-- The line of a highway after the start, with `b` the bank that is ACTIVE after it (R53, R79, R80, R82, R83). -/
theorem sends_frameState {k : Highway} {l : Line} (h : (s.frameState.setActiveBank b).sends k l) :
    ((s.output k).enabled = false → ∀ i : Fin 67, l[i] = 0xFF) ∧
    ∀ number : FrameNumber, (s.output k).enabled = true →
      number = (if s.timing.startPending then s.timing.frame else s.timing.frame + 1) →
      l[0] = markerOctet (decide (alignOctet (s.receiver k).align = 1 ∨ alignOctet (s.receiver k).align = 2)) number ∧
      l[1] = signallingOctet (s.nextCode k (s.bank b)[k][signallingSlot number 0])
        (s.nextCode k (s.bank b)[k][signallingSlot number 1]) ∧
      l[2] = signallingOctet (s.nextCode k (s.bank b)[k][signallingSlot number 2])
        (s.nextCode k (s.bank b)[k][signallingSlot number 3]) ∧
      ∀ (n : Slot) (o : Octet), s.nextOctet k (s.bank b)[k][n] = some o → l[3 + n.val]'(by omega) = o := by
  obtain ⟨hon, hoff⟩ := h
  simp only [setActiveBank_output, frameState_output] at hon hoff
  refine ⟨fun hd i => by simp [hoff hd, onesLine], fun number he hn => ?_⟩
  obtain ⟨mgmt, rfl⟩ := hon he
  obtain rfl : (s.frameState.setActiveBank b).timing.frame = number := by
    rw [hn, setActiveBank_timing, frameState_timing, advance_frame]
  refine ⟨?_, ?_, ?_, fun n o ho => ?_⟩
  · rw [buildLine_marker, sendsRA_eq_decide, setActiveBank_receiver, frameState_receiver]
  · rw [buildLine_signalling_low, slotCode_frameState, slotCode_frameState]
  · rw [buildLine_signalling_high, slotCode_frameState, slotCode_frameState]
  · rw [buildLine_slot, slotOctet_frameState s b ho]

end

/-- The command that has decided the bank waited at a port when the start came. -/
theorem StartRun.sendsFrames.bank_decided {s : State} {r : StartRun} (h : r.sendsFrames s)
    (hb : s.bankAfter r.swaps ≠ s.nextActive) :
    s.boundaryNext = true ∧
      ((s.swapsNext = true ∧ s.waits .abortCommit ∧ (r.state.engine.isPending = true → s.waits .commit)) ∨
        s.swapsNext = false ∧ s.waits .commit) :=
  h.decided fun e => hb (e ▸ bankAfter_swapsNext s)

/-- Settles O33: the frames sent are built from the bank after the start, by what holds of the start after each of its
parts. -/
theorem framesFollowTheMap : Obligations.FramesFollowTheMap := by
  unfold Obligations.FramesFollowTheMap
  intro order s
  obtain ⟨r, hr, hout⟩ := outputStart_serves s order
  have hframes : r.sendsFrames s := hr.elim (·.sending) (·.sending)
  refine ⟨s.outputStart order, s.bankAfter r.swaps, rfl, fun ha hb => ?_, ?_, fun k => ?_⟩ <;> rw [hout]
  · rcases hr with h | h
    · rw [h.activeBank, (h.finished rfl).2, Bool.not_false, Bool.and_true]
    · exact absurd h.due (not_or_intro ha hb)
  · exact hframes.bank_decided
  · exact sends_frameState s _ (hframes.frame ▸ hframes.lines k)

end Sys2Proof.Machine
end

section
/-! SUPPORT. WATCH: the watch flags of a run of slots, the checks in front of them, and the state that the command leaves
(R100). -/

namespace Sys2Proof.Machine

/-! ### The run of slots that is watched (R100) -/

section
variable (x : Supervisor) (first count : Nat) (setting : Bool)

theorem watch_slot (n : Slot) :
    (x.watch first count setting).slots[n] =
      if first ≤ n.val ∧ n.val < first + count then { x.slots[n] with watched := setting } else x.slots[n] := by
  simp [Supervisor.watch]

@[simp] theorem watch_received : (x.watch first count setting).received = x.received := by
  simp only [Supervisor.watch]

@[simp] theorem watch_spoiled : (x.watch first count setting).spoiled = x.spoiled := by
  simp only [Supervisor.watch]

@[simp] theorem watch_lastEvaluation : (x.watch first count setting).lastEvaluation = x.lastEvaluation := by
  simp only [Supervisor.watch]

end

/-! ### The command in its block (R100) -/

section
variable {s : State} {p : PortId} {highway first count setting : Octet}

theorem runWatch_of_no_lease (hl : s.holdsLease p = false) :
    runWatch p highway first count setting s = (s, .reply s.noLease) := by
  simp [runWatch, State.leased, hl]

theorem runWatch_of_bad_argument (hl : s.holdsLease p = true)
    (h : 7 < highway.toNat ∨ 63 < first.toNat ∨ count.toNat = 0 ∨ 64 < count.toNat ∨ 64 < first.toNat + count.toNat ∨
      1 < setting.toNat) :
    runWatch p highway first count setting s = (s, .reply (refusal .badArgument)) := by
  unfold runWatch State.leased
  rw [if_pos hl]
  cases hk : highwayOf highway with
  | none => rfl
  | some k =>
    cases hv : flagOf setting with
    | none => rfl
    | some v =>
      have hhighway : ¬ 7 < highway.toNat := fun hgt => by simp [highwayOf_of_gt hgt] at hk
      have hsetting : ¬ 1 < setting.toNat := fun hgt => by simp [flagOf_of_gt_one hgt] at hv
      exact if_pos (by omega)

/-- A WATCH that passes its checks writes the supervisor of its highway and nothing else. -/
theorem runWatch_of_good (hl : s.holdsLease p = true) {k : Highway} (hk : highway.toNat = k.val)
    (hc : 1 ≤ count.toNat) (hf : first.toNat + count.toNat ≤ 64) (hv : setting.toNat ≤ 1) :
    runWatch p highway first count setting s =
      (s.setSup k ((s.sup k).watch first.toNat count.toNat (setting == 1)),
        .reply (okReply [highway, first, count, setting,
          octet ((s.sup k).watch first.toNat count.toNat (setting == 1)).watchedCount])) := by
  have hargs : ¬ (63 < first.toNat ∨ count.toNat = 0 ∨ 64 < count.toNat ∨ 64 < first.toNat + count.toNat) := by omega
  have hflag : decide (setting ≠ 0) = (setting == 1) := by
    rw [beq_eq_decide]
    exact decide_eq_decide.mpr (by bv_omega)
  simp only [runWatch, State.leased, if_pos hl, highwayOf_of_toNat_eq hk, flagOf_of_le_one hv, hflag, if_neg hargs]

end

/-! ### The command as a whole (R139, R140, R153) -/

@[simp] theorem started_sup (s : State) (p : PortId) (tag : Octet) (c : Command) (k : Highway) :
    (s.started p tag c).sup k = s.sup k := by
  obtain ⟨l, x, h⟩ := started_eq_setLease_setPort s p tag c
  simp [h, State.sup]

/-- A command whose block writes one supervisor leaves that, the renewal and the response, and nothing else. -/
theorem takeCommand_of_setSup {s : State} {p : PortId} {tag : Octet} (h : s.ready p tag) (c : Command) {k : Highway}
    {x : Supervisor} {r : Reply}
    (hrun : runCommand p (queuedCommand tag c) (s.started p tag c) = ((s.started p tag c).setSup k x, .reply r)) :
    s.takeCommand p tag c = ((s.renewLease p).setSup k x).answered p tag c r := by
  rw [takeCommand_reply h c hrun (by simp), started_eq, setPort_setSup]
  simp [State.answered, State.cacheWith]

/-- A WATCH that its block refuses changes nothing but the renewal (R100). -/
theorem exec_watch_of_refused {s : State} {p : PortId} {tag highway first count setting : Octet} (h : s.ready p tag)
    {r : Reply}
    (hrun : runWatch p highway first count setting (s.started p tag (.watch highway first count setting)) =
      (s.started p tag (.watch highway first count setting), .reply r)) :
    exec (.watch p tag highway first count setting) s =
      .next ((s.renewLease p).answered p tag (.watch highway first count setting) r) :=
  congrArg _ (takeCommand_of_unchanged h (.watch highway first count setting) hrun)

/-- A WATCH that passes its checks changes the watch flags of its run, beside the renewal (R100). -/
theorem exec_watch_of_good {s : State} {p : PortId} {tag highway first count setting : Octet} (h : s.ready p tag)
    (hl : s.holdsLease p = true) {k : Highway} (hk : highway.toNat = k.val) (hc : 1 ≤ count.toNat)
    (hf : first.toNat + count.toNat ≤ 64) (hv : setting.toNat ≤ 1) :
    exec (.watch p tag highway first count setting) s = .next
      (((s.renewLease p).setSup k ((s.sup k).watch first.toNat count.toNat (setting == 1))).answered p tag
        (.watch highway first count setting)
        (okReply [highway, first, count, setting,
          octet ((s.sup k).watch first.toNat count.toNat (setting == 1)).watchedCount])) := by
  have hrun := runWatch_of_good (s := s.started p tag (.watch highway first count setting)) (p := p)
    (by simpa using hl) hk hc hf hv
  rw [started_sup] at hrun
  exact congrArg _ (takeCommand_of_setSup h (.watch highway first count setting) hrun)

/-- Settles O26: the two refusals of `runWatch` leave the flags, and a run that passes its checks leaves the supervisor
of `Supervisor.watch`, whose slots `watch_slot` gives. -/
theorem watchSetsTheRun : Obligations.WatchSetsTheRun := by
  unfold Obligations.WatchSetsTheRun
  intro p tag highway first count setting s hready
  refine ⟨fun hl => ?_, fun hl => ⟨fun hargs => ?_, fun k hk hc hf hv => ?_⟩⟩
  · have hrun := runWatch_of_no_lease (highway := highway) (first := first) (count := count) (setting := setting)
      ((started_holdsLease s p tag (.watch highway first count setting) p).trans hl)
    rw [exec_watch_of_refused hready hrun, renewLease_of_not_holder hl]
    simp [State.noLease, State.holderOctet]
  · exact exec_watch_of_refused hready (runWatch_of_bad_argument (by simpa using hl) hargs)
  · exact ⟨_, exec_watch_of_good hready hl hk hc hf hv, watch_slot _ _ _ _, watch_received _ _ _ _,
      watch_spoiled _ _ _ _, watch_lastEvaluation _ _ _ _⟩

end Sys2Proof.Machine
end

section
/-! SUPPORT. IDENTIFY: the port B status that the straps give, and the answer of the command (R129, R144). -/

namespace Sys2Proof.Machine

/-- Port B is OFF while MBE is not asserted, in CONFLICT while both ports name one highway, and ENABLED otherwise
(R129). -/
theorem portBStatusOctet_eq (t : Straps) :
    portBStatusOctet t = if t.mbe = false then 1 else if t.mb = t.ma then 2 else 0 := by
  unfold portBStatusOctet portBEnabled
  cases t.mbe with
  | false => rfl
  | true => by_cases hconflict : t.mb = t.ma <;> simp [hconflict]

/-- IDENTIFY reads the straps and changes nothing in its block (R144). -/
theorem runIdentify_eq (p : PortId) (s : State) :
    runIdentify p s = (s, .reply (okReply
      [0x6B, 0x08, 0x32, 0x01, portOctet p, highwayOctet s.straps.ma, flagOctet s.straps.mbe, highwayOctet s.straps.mb,
       (if s.straps.mbe = false then 1 else if s.straps.mb = s.straps.ma then 2 else 0), flagOctet s.straps.four])) := by
  rw [← portBStatusOctet_eq]
  rfl

/-- Settles O11: the answer of `runIdentify_eq` at the start of the command reads the straps alone, which a start leaves
as they were. -/
theorem identifyGivesTheStraps : Obligations.IdentifyGivesTheStraps := by
  unfold Obligations.IdentifyGivesTheStraps
  intro p tag s hready
  have hrun := runIdentify_eq p (s.started p tag .identify)
  rw [started_straps] at hrun
  exact congrArg _ (takeCommand_of_unchanged hready .identify hrun)

end Sys2Proof.Machine
end

section
/-! SUPPORT. CLAIM, RELEASE and SET_LEASE: what each does to the lease unit, and the state that the command leaves
(R151, R156, R157). -/

namespace Sys2Proof.Machine

/-! ### The lease at the start of a command (R153) -/

/-- A command that writes the lease leaves no trace of the renewal at its start (R156, R157). -/
@[simp] theorem renewLease_setLease (s : State) (p : PortId) (l : Lease) :
    (s.renewLease p).setLease l = s.setLease l := by
  obtain ⟨m, hm⟩ := renewLease_eq_setLease s p
  rw [hm, setLease_setLease]

/-- A renewal sets the remaining time and leaves the period (R153). -/
@[simp] theorem renewLease_lease_period (s : State) (p : PortId) : (s.renewLease p).lease.period = s.lease.period := by
  unfold State.renewLease
  split <;> rfl

section
variable (s : State) (p : PortId) (tag : Octet) (c : Command)

@[simp] theorem started_receiver (k : Highway) : (s.started p tag c).receiver k = s.receiver k := by
  obtain ⟨l, x, h⟩ := started_eq_setLease_setPort s p tag c
  simp [h]

@[simp] theorem started_portPair (q : PortId) : (s.started p tag c).portPair q = s.portPair q := by
  simp [State.portPair]

@[simp] theorem started_lease : (s.started p tag c).lease = (s.renewLease p).lease := by
  simp [started_eq]

@[simp] theorem started_noLease : (s.started p tag c).noLease = s.noLease := by
  simp [State.noLease, State.holderOctet]

end

/-- A receiver that hands its frames over does not hunt (R51). -/
theorem not_hunting_of_handsOver {a : Align} (h : a.handsOver = true) : a.hunting = false := by
  cases a with
  | search _ | confirm _ _ _ => cases h
  | disabled | guard _ _ | aligned _ | flywheel _ _ => rfl

/-- A command that starts as it arrives finds its receiver past the hunt: the first case of R151 needs a queue. -/
theorem State.ready.not_hunting {s : State} {p : PortId} {tag : Octet} (h : s.ready p tag) :
    (s.receiver (s.portPair p)).align.hunting = false := by
  obtain ⟨hreceives, -⟩ := h
  exact not_hunting_of_handsOver (Bool.and_eq_true_iff.mp hreceives).2

/-! ### Commands of the lease as a whole (R139, R140, R153) -/

section
variable {s : State} {p : PortId} {tag : Octet}

/-- A command whose block writes the lease leaves that and the response, and nothing else. -/
theorem takeCommand_of_setLease (h : s.ready p tag) (c : Command) {l : Lease} {r : Reply}
    (hrun : runCommand p (queuedCommand tag c) (s.started p tag c) = ((s.started p tag c).setLease l, .reply r)) :
    s.takeCommand p tag c = (s.setLease l).answered p tag c r := by
  rw [takeCommand_reply h c hrun (by simp), started_eq, setPort_setLease]
  simp [State.answered, State.cacheWith]

/-- A command that is answered without a change at a port that does not hold the lease leaves the response alone: its
start renews nothing (R153). -/
theorem takeCommand_of_unchanged_of_not_holder (h : s.ready p tag) (hl : s.holdsLease p = false) (c : Command)
    {r : Reply} (hrun : runCommand p (queuedCommand tag c) (s.started p tag c) = (s.started p tag c, .reply r)) :
    s.takeCommand p tag c = s.answered p tag c r := by
  rw [takeCommand_of_unchanged h c hrun, renewLease_of_not_holder hl]

end

/-! ### CLAIM (R151) -/

section
variable {s : State} {p : PortId}

theorem runClaim_of_hunting (h : (s.receiver (s.portPair p)).align.hunting = true) :
    runClaim p s = (s, .reply s.noLease) :=
  if_pos h

/-- A CLAIM takes a lease that is free, and takes its own again; its last octet says which (R151). -/
theorem runClaim_of_not_held_elsewhere (h : (s.receiver (s.portPair p)).align.hunting = false)
    (hl : ∀ q, s.leaseHolder = some q → q = p) :
    runClaim p s = (s.setLease (s.lease.granted p),
      .reply (okReply [portOctet p, s.lease.period, s.lease.period, flagOctet (s.holdsLease p)])) := by
  unfold runClaim State.holdsLease
  rw [if_neg (by simp [h])]
  unfold State.leaseHolder at hl ⊢
  cases hx : s.lease.holder with
  | none => rfl
  | some x =>
    obtain rfl : x.port = p := hl _ (by rw [hx]; rfl)
    simp

theorem runClaim_of_held_elsewhere (h : (s.receiver (s.portPair p)).align.hunting = false) {x : Holder}
    (hx : s.lease.holder = some x) (hp : x.port ≠ p) :
    runClaim p s = (s, .reply { status := .leaseHeld, data := [portOctet x.port, x.remaining] }) := by
  unfold runClaim
  rw [if_neg (by simp [h]), hx]
  exact if_neg hp

variable {tag : Octet}

theorem exec_claim_of_not_held_elsewhere (h : s.ready p tag) (hl : ∀ q, s.leaseHolder = some q → q = p) :
    exec (.claim p tag) s = .next
      ((s.setLease (s.lease.granted p)).answered p tag .claim
        (okReply [portOctet p, s.lease.period, s.lease.period, flagOctet (s.holdsLease p)])) := by
  have hrun := runClaim_of_not_held_elsewhere (s := s.started p tag .claim) (p := p)
    (by simpa using h.not_hunting) (by simpa using hl)
  simp only [Lease.granted, started_lease, renewLease_lease_period, started_holdsLease] at hrun
  exact congrArg _ (takeCommand_of_setLease h .claim hrun)

theorem exec_claim_of_held_elsewhere (h : s.ready p tag) {x : Holder} (hx : s.lease.holder = some x)
    (hp : x.port ≠ p) :
    exec (.claim p tag) s = .next
      (s.answered p tag .claim { status := .leaseHeld, data := [portOctet x.port, x.remaining] }) := by
  have hl : s.holdsLease p = false := by simp [State.holdsLease, State.leaseHolder, hx, hp]
  have hrun := runClaim_of_held_elsewhere (s := s.started p tag .claim) (p := p)
    (by simpa using h.not_hunting) (by simpa [renewLease_of_not_holder hl] using hx) hp
  exact congrArg _ (takeCommand_of_unchanged_of_not_holder h hl .claim hrun)

end

/-- Settles O12: at its start a CLAIM finds the receiver hunting, or the lease with no other port, or with another. -/
theorem claimTakesTheFreeLease : Obligations.ClaimTakesTheFreeLease := by
  unfold Obligations.ClaimTakesTheFreeLease
  refine fun p tag s => ⟨fun q hq hh => ?_, fun hr hx => ?_, fun h hr hx hp => ?_, fun h hr hx hp => ?_⟩
  · unfold runCommand
    rw [hq]
    exact runClaim_of_hunting hh
  · have hfree : s.leaseHolder = none := by simp [State.leaseHolder, hx]
    rw [exec_claim_of_not_held_elsewhere hr (by simp [hfree])]
    simp [State.holdsLease, hfree, Lease.granted, flagOctet]
  · have hown : s.leaseHolder = some p := by simp [State.leaseHolder, hx, hp]
    rw [exec_claim_of_not_held_elsewhere hr (by simp [hown])]
    simp [State.holdsLease, hown, Lease.granted, flagOctet]
  · exact exec_claim_of_held_elsewhere hr hx hp

/-! ### RELEASE and SET_LEASE (R156, R157) -/

section
variable {s : State} {p : PortId}

theorem runRelease_of_holder (hl : s.holdsLease p = true) :
    runRelease p s = (s.setLease s.lease.freed, .reply (okReply [s.lease.period])) :=
  if_pos hl

theorem runRelease_of_no_lease (hl : s.holdsLease p = false) : runRelease p s = (s, .reply s.noLease) :=
  if_neg (by simp [hl])

theorem runSetLease_of_no_lease (period : Octet) (hl : s.holdsLease p = false) :
    runSetLease p period s = (s, .reply s.noLease) :=
  if_neg (by simp [hl])

theorem runSetLease_zero (hl : s.holdsLease p = true) : runSetLease p 0 s = (s, .reply (refusal .badArgument)) :=
  if_pos hl

/-- The lease that a SET_LEASE leaves holds nothing of the one before (R157). -/
theorem runSetLease_of_good {period : Octet} (hl : s.holdsLease p = true) (hz : period ≠ 0) :
    runSetLease p period s =
      (s.setLease { holder := some { port := p, remaining := period }, period := period },
        .reply (okReply [period, period])) :=
  (if_pos hl).trans (if_neg hz)

end

/-- Settles O13: the two outcomes of `runRelease` and the three of `runSetLease`, each at the start of its command. -/
theorem releaseAndSetLease : Obligations.ReleaseAndSetLease := by
  unfold Obligations.ReleaseAndSetLease
  intro p tag period s hr
  have hstart := fun c => started_holdsLease s p tag c p
  refine ⟨fun hl => ?_, fun hl => ?_, fun hl => ?_, fun hl hz => ?_, fun hl hz => ?_⟩
  · have hrun := runRelease_of_holder ((hstart .release).trans hl)
    simp only [Lease.freed, started_lease, renewLease_lease_period] at hrun
    exact congrArg _ (takeCommand_of_setLease hr .release hrun)
  · have hrun := runRelease_of_no_lease ((hstart .release).trans hl)
    rw [started_noLease] at hrun
    exact congrArg _ (takeCommand_of_unchanged_of_not_holder hr hl .release hrun)
  · have hrun := runSetLease_of_no_lease period ((hstart (.setLease period)).trans hl)
    rw [started_noLease] at hrun
    exact congrArg _ (takeCommand_of_unchanged_of_not_holder hr hl (.setLease period) hrun)
  · have hrun := runSetLease_of_good ((hstart (.setLease period)).trans hl) hz
    exact congrArg _ (takeCommand_of_setLease hr (.setLease period) hrun)
  · subst hz
    have hrun := runSetLease_zero ((hstart (.setLease 0)).trans hl)
    exact congrArg _ (takeCommand_of_unchanged hr (.setLease 0) hrun)

end Sys2Proof.Machine
end

section
/-! SUPPORT. READ_CAPTURE and CANCEL_CAPTURE: what each does to the capture unit, and the state that the command leaves
(R169, R170). -/

namespace Sys2Proof.Machine

/-! ### Commands of a block that leaves the port alone (R139, R140, R153) -/

@[simp] theorem renewLease_capture (s : State) (p : PortId) : (s.renewLease p).capture = s.capture := by
  obtain ⟨l, hl⟩ := renewLease_eq_setLease s p
  simp [hl]

@[simp] theorem started_capture (s : State) (p : PortId) (tag : Octet) (c : Command) :
    (s.started p tag c).capture = s.capture := by
  simp [started_eq]

/-- A command whose block does `f`, which neither reads nor writes the port, leaves `f`, the renewal and the response,
and nothing else. -/
theorem takeCommand_of_commutes_setPort {s : State} {p : PortId} {tag : Octet} (h : s.ready p tag) (c : Command)
    {r : Reply} (f : State → State) (hf : ∀ t x, f (t.setPort p x) = (f t).setPort p x)
    (hrun : runCommand p (queuedCommand tag c) (s.started p tag c) = (f (s.started p tag c), .reply r)) :
    s.takeCommand p tag c = (f (s.renewLease p)).answered p tag c r := by
  have hport (t : State) : (f t).port p = t.port p := by
    have hself := hf t (t.port p)
    rw [setPort_same] at hself
    rw [hself]
    simp
  rw [takeCommand_reply h c hrun (hport _), started_eq, hf]
  simp [State.answered, State.cacheWith, hport]

/-! ### READ_CAPTURE (R169) -/

/-- The data of a pool of a capture that has taken octets: only an OVERRUN has lost one (R161, R169). -/
theorem poolData_of_taken {u : Capture} {job : Job} {captured : Nat} {stamp : Stamp} {how : Option Ending}
    (h : u.phase = .running job captured stamp ∧ how = none ∨
      ∃ x, u.phase = .ended x job captured stamp ∧ how = some x) (pool : Pool) (draw : Nat) :
    u.poolData pool draw =
      [captureOctet u.phase, pool.sequence, octet pool.octets.length, flagOctet pool.final, octet u.ready.length] ++
        pairOctets (BitVec.ofNat 16 captured) ++ [if how = some Ending.overrun then 0x01 else 0x00] ++
        pairOctets stamp ++ pool.octets := by
  unfold Capture.poolData Phase.capturedOctets Phase.lostOctet
  obtain ⟨hphase, rfl⟩ | ⟨x, hphase, rfl⟩ := h
  · rw [hphase]
    rfl
  · rw [hphase]
    cases x <;> rfl

/-- The captured count is two octets, those of its value where there is one (R161). -/
theorem capturedOctets_eq_pair (x : Phase) (draw : Nat) : ∃ high low : Octet,
    x.capturedOctets draw = [high, low] ∧
      ∀ n, x.captured = some n → [high, low] = pairOctets (BitVec.ofNat 16 n) := by
  unfold Phase.capturedOctets
  cases x.captured with
  | none => exact ⟨_, _, rfl, nofun⟩
  | some m => exact ⟨_, _, rfl, fun n hn => by cases hn; rfl⟩

theorem lostOctet_of_lost {x : Phase} {n : Nat} (h : x.lost = some n) : x.lostOctet = octet n := by
  simp [Phase.lostOctet, h, orAbsent]

theorem runReadCapture_of_empty {s : State} (h : s.capture.ready = []) :
    runReadCapture s = (s.useDraw, .reply
      { status := .notReady
        data := [captureOctet s.capture.phase] ++ s.capture.phase.capturedOctets s.draws ++
          [s.capture.phase.lostOctet, 0x00] }) := by
  simp only [runReadCapture, h]

theorem runReadCapture_of_pool {s : State} {pool : Pool} {rest : List Pool} (h : s.capture.ready = pool :: rest) :
    runReadCapture s = ((s.setCapture { s.capture with ready := rest }).useDraw,
      .reply (okReply (({ s.capture with ready := rest } : Capture).poolData pool s.draws))) := by
  simp only [runReadCapture, h]

section
variable {s : State} {p : PortId} {tag : Octet}

theorem exec_readCapture_of_empty (hr : s.ready p tag) (h : s.capture.ready = []) :
    exec (.readCapture p tag) s = .next
      (((s.renewLease p).useDraw).answered p tag .readCapture
        { status := .notReady
          data := [captureOctet s.capture.phase] ++
            s.capture.phase.capturedOctets (s.started p tag .readCapture).draws ++
            [s.capture.phase.lostOctet, 0x00] }) := by
  have hrun := runReadCapture_of_empty (s := s.started p tag .readCapture) (by simpa using h)
  rw [started_capture] at hrun
  exact congrArg _ (takeCommand_of_commutes_setPort hr .readCapture State.useDraw (setPort_useDraw · p) hrun)

theorem exec_readCapture_of_pool (hr : s.ready p tag) {pool : Pool} {rest : List Pool}
    (h : s.capture.ready = pool :: rest) :
    exec (.readCapture p tag) s = .next
      ((((s.renewLease p).setCapture { s.capture with ready := rest }).useDraw).answered p tag .readCapture
        (okReply (({ s.capture with ready := rest } : Capture).poolData pool
          (s.started p tag .readCapture).draws))) := by
  have hrun := runReadCapture_of_pool (s := s.started p tag .readCapture) (by simpa using h)
  rw [started_capture] at hrun
  exact congrArg _ (takeCommand_of_commutes_setPort hr .readCapture
    (fun t => (t.setCapture { s.capture with ready := rest }).useDraw)
    (fun t x => by rw [setPort_setCapture, setPort_useDraw]) hrun)

end

/-! ### CANCEL_CAPTURE (R170) -/

section
variable {s : State} {p : PortId} {tag : Octet}

theorem runCancelCapture_of_no_lease (hl : s.holdsLease p = false) :
    runCancelCapture p s = (s, .reply s.noLease) :=
  if_neg (by simp [hl])

theorem runCancelCapture_of_holder (hl : s.holdsLease p = true) :
    runCancelCapture p s =
      (s.setCapture { phase := .idle, filling := [], ready := [], nextSequence := s.capture.nextSequence },
        .reply (okReply [captureOctet s.capture.phase, octet s.capture.ready.length])) :=
  if_pos hl

theorem exec_cancelCapture_of_no_lease (hr : s.ready p tag) (hl : s.holdsLease p = false) :
    exec (.cancelCapture p tag) s = .next (s.answered p tag .cancelCapture s.noLease) := by
  have hrun := runCancelCapture_of_no_lease ((started_holdsLease s p tag .cancelCapture p).trans hl)
  rw [started_noLease] at hrun
  exact congrArg _ (takeCommand_of_unchanged_of_not_holder hr hl .cancelCapture hrun)

theorem exec_cancelCapture_of_holder (hr : s.ready p tag) (hl : s.holdsLease p = true) :
    exec (.cancelCapture p tag) s = .next
      (((s.renewLease p).setCapture
        { phase := .idle, filling := [], ready := [], nextSequence := s.capture.nextSequence }).answered p tag
          .cancelCapture (okReply [captureOctet s.capture.phase, octet s.capture.ready.length])) := by
  have hrun := runCancelCapture_of_holder ((started_holdsLease s p tag .cancelCapture p).trans hl)
  rw [started_capture] at hrun
  exact congrArg _ (takeCommand_of_commutes_setPort hr .cancelCapture (State.setCapture · _)
    (fun t x => setPort_setCapture t p x _) hrun)

end

/-- Settles O32: the two outcomes of `runReadCapture`, by whether a pool is READY, and the two of `runCancelCapture`, by
the lease, each at the start of its command. -/
theorem readAndCancelCapture : Obligations.ReadAndCancelCapture := by
  unfold Obligations.ReadAndCancelCapture
  intro p tag s hr
  refine ⟨fun pool rest job captured stamp how hready hphase => ?_, fun hempty => ?_,
    exec_cancelCapture_of_no_lease hr, exec_cancelCapture_of_holder hr⟩
  · have hdata := poolData_of_taken (u := { s.capture with ready := rest }) hphase pool
      (s.started p tag .readCapture).draws
    rw [exec_readCapture_of_pool hr hready, hdata]
  · obtain ⟨high, low, hpair, hcount⟩ :=
      capturedOctets_eq_pair s.capture.phase (s.started p tag .readCapture).draws
    refine ⟨high, low, s.capture.phase.lostOctet, ?_, hcount, fun n => lostOctet_of_lost⟩
    rw [exec_readCapture_of_empty hr hempty, hpair]
    rfl

end Sys2Proof.Machine
end

section
/-! SUPPORT. Bodies on receipt: how a code and its argument octets are read, by the row of the code in the table of
11.2, and what an answer on receipt leaves (R136, R175). -/

namespace Sys2Proof.Machine

/-! ### The reading of a body (R136, R175) -/

theorem readArguments_of_absent {code : Octet} (arguments : List Octet) (h : code ∉ minimumBodies.map Prod.fst) :
    readArguments code arguments = .refused .unknownCommand := by
  simp only [minimumBodies, List.map_cons, List.map_nil, List.mem_cons, List.not_mem_nil, or_false, not_or] at h
  simp only [readArguments, h, if_false]

/-- Only a row with arguments has a shorter body. Its first alternative takes as many octets as the minimum has, so a
shorter body falls to the last one. -/
theorem readArguments_of_short {code : Octet} {m : Nat} {arguments : List Octet} (hrow : (code, m) ∈ minimumBodies)
    (hshort : arguments.length + 2 < m) : readArguments code arguments = .refused .badLength := by
  have hm : m ≠ 2 := by omega
  simp only [minimumBodies, List.mem_cons, Prod.mk.injEq, List.not_mem_nil, hm, and_false, or_false, false_or] at hrow
  rcases hrow with ⟨rfl, rfl⟩ | ⟨rfl, rfl⟩ | ⟨rfl, rfl⟩ | ⟨rfl, rfl⟩ | ⟨rfl, rfl⟩ | ⟨rfl, rfl⟩ | ⟨rfl, rfl⟩ |
    ⟨rfl, rfl⟩ | ⟨rfl, rfl⟩ | ⟨rfl, rfl⟩ | ⟨rfl, rfl⟩ | ⟨rfl, rfl⟩
  all_goals
    simp only [readArguments, BitVec.reduceEq, if_false, if_true]
    split
    · simp only [List.length_cons] at hshort
      omega
    · rfl

/-- A command in its own layout is read back, whatever follows it; WRITE_ENTRIES and FETCH_EVENTS alone look past their
minimum (R175). -/
theorem readArguments_append (c : Command) (excess : List Octet) (hw : c.code ≠ 0x08) (hf : c.code ≠ 0x18) :
    readArguments c.code (c.arguments ++ excess) = .command c := by
  cases c with
  | writeEntries _ _ _ _ => exact absurd rfl hw
  | fetchEvents _ => exact absurd rfl hf
  | _ => rfl

/-- The octets of a row's minimum are the layout of one of its commands (11.2). -/
theorem exists_command_of_minimum : ∀ row ∈ minimumBodies, row.1 ≠ 0x08 → row.1 ≠ 0x18 →
    ∀ arguments : List Octet, arguments.length + 2 = row.2 →
      ∃ c : Command, c.code = row.1 ∧ c.arguments = arguments := by
  simp only [minimumBodies, List.forall_mem_cons]
  exact ⟨
    fun | _, _, [], _ => ⟨.identify, rfl, rfl⟩,
    fun | _, _, [], _ => ⟨.claim, rfl, rfl⟩,
    fun | _, _, [], _ => ⟨.release, rfl, rfl⟩,
    fun | _, _, [period], _ => ⟨.setLease period, rfl, rfl⟩,
    fun | _, _, [scope], _ => ⟨.reset scope, rfl, rfl⟩,
    fun hw => absurd rfl hw,
    fun | _, _, [r, k, n, c], _ => ⟨.readEntries r k n c, rfl, rfl⟩,
    fun | _, _, [], _ => ⟨.clearStandby, rfl, rfl⟩,
    fun | _, _, [], _ => ⟨.resync, rfl, rfl⟩,
    fun | _, _, [], _ => ⟨.commit, rfl, rfl⟩,
    fun | _, _, [], _ => ⟨.abortCommit, rfl, rfl⟩,
    fun | _, _, [], _ => ⟨.readBanks, rfl, rfl⟩,
    fun | _, _, [k, e, p, g], _ => ⟨.setInput k e p g, rfl, rfl⟩,
    fun | _, _, [k, e, o, c], _ => ⟨.setOutput k e o c, rfl, rfl⟩,
    fun | _, _, [k], _ => ⟨.readHighway k, rfl, rfl⟩,
    fun | _, _, [g, n, c], _ => ⟨.readCounters g n c, rfl, rfl⟩,
    fun | _, _, [k, n, c, v], _ => ⟨.watch k n c v, rfl, rfl⟩,
    fun | _, _, [k], _ => ⟨.readSignaling k, rfl, rfl⟩,
    fun _ hf => absurd rfl hf,
    fun | _, _, [h, l, i, t], _ => ⟨.setAttention h l i t, rfl, rfl⟩,
    fun | _, _, [k, h, n, t, a, b, c, lh, ll], _ => ⟨.armCapture k h n t a b c lh ll, rfl, rfl⟩,
    fun | _, _, [], _ => ⟨.readCapture, rfl, rfl⟩,
    fun | _, _, [], _ => ⟨.cancelCapture, rfl, rfl⟩,
    nofun⟩

/-! ### The length octet (R133) -/

theorem framer_take_length_of_out_of_range {o : Octet} (h : o.toNat < 2 ∨ 124 < o.toNat) :
    Framer.take .length o = (.hunt, .lengthError) :=
  if_neg (by omega)

/-! ### An answer on receipt (R136) -/

theorem messageOf_of_refused (tag : Octet) {code : Octet} {arguments : List Octet} {status : Status}
    (hread : readArguments code arguments = .refused status) :
    messageOf (tag :: code :: arguments) =
      some
        { tag := tag, code := code, check := messageCheck (tag :: code :: arguments), reading := .refused status } := by
  simp only [messageOf, hread]

theorem Port.cached_of_absent {x : Port} {tag : Octet} (h : ∀ e ∈ x.cache, e.tag ≠ tag) : x.cached tag = none := by
  simpa [Port.cached] using h

section
variable {s : State} {p : PortId}

/-- A message whose tag the cache does not hold is a new one (R135). -/
theorem receive_of_absent {m : Message} (h : ∀ e ∈ (s.port p).cache, e.tag ≠ m.tag) :
    s.receive p m = s.receiveNew p m := by
  unfold State.receive
  rw [Port.cached_of_absent h, ite_self]

theorem offerAnswer_of_place {a : List Octet} (h : (s.port p).transmit.length < 6) :
    s.offerAnswer p a = s.setPort p { s.port p with transmit := (s.port p).transmit ++ [.message a none] } :=
  if_pos (decide_eq_true h)

theorem cacheMessage_of_tag {m : Message} (x : CacheState) (h : m.tag ≠ 0) :
    s.cacheMessage p m x = s.setPort p
      { s.port p with
        cache := insertEntry { tag := m.tag, check := m.check, state := x } (s.port p).cache } :=
  if_neg h

/-- An answer on receipt to a tag other than 0 leaves its cache entry and its message (R136). -/
theorem answerReceipt_of_place {m : Message} (status : Status) (htag : m.tag ≠ 0)
    (hplace : (s.port p).transmit.length < 6) :
    s.answerReceipt p m status = s.setPort p
      { s.port p with
        transmit :=
          (s.port p).transmit ++ [.message (responseMessage m.tag m.code { status := status, data := [] }) none]
        cache := insertEntry
          { tag := m.tag, check := m.check,
            state := .done (responseMessage m.tag m.code { status := status, data := [] }) } (s.port p).cache } := by
  unfold State.answerReceipt
  simp only [cacheMessage_of_tag _ htag]
  rw [offerAnswer_of_place (by simpa using hplace)]
  simp [refusal]

/-- A new message that its code refuses is answered on receipt (R136). -/
theorem receive_of_refused {m : Message} {status : Status} (hread : m.reading = .refused status)
    (h : ∀ e ∈ (s.port p).cache, e.tag ≠ m.tag) : s.receive p m = s.answerReceipt p m status := by
  rw [receive_of_absent h]
  simp only [State.receiveNew, hread]

/-- A body within the framer's limit reaches the duplicate check of a port that can take octets (R131, R135). -/
theorem exec_goodMessage_of_receives {body : List Octet} {m : Message} (hm : messageOf body = some m)
    (hlen : body.length ≤ 124) (h : s.portReceives p = true) :
    exec (.goodMessage p body) s = .next (s.receive p m) :=
  calc exec (.goodMessage p body) s
      = execGoodMessage p body s := rfl
    _ = .next (s.receive p m) := by simp [execGoodMessage, h, hlen, hm]

end

/-- Settles O9: the readings of a row of the table and of a code outside it, the count of WRITE_ENTRIES from its own
refusal, and a refused message followed from its framer to its answer. -/
theorem bodiesAreJudgedOnReceipt : Obligations.BodiesAreJudgedOnReceipt := by
  unfold Obligations.BodiesAreJudgedOnReceipt
  refine ⟨fun _ arguments => readArguments_of_absent arguments, fun _ _ _ => readArguments_of_short,
    fun code m arguments excess hrow hw hf hlen => ?_, ⟨rfl, fun _ _ => rfl⟩, fun _ _ _ _ => rfl,
    fun p q s k n c octets hq hcount hl he => ?_, fun _ => framer_take_length_of_out_of_range,
    fun p tag code arguments status s hread hlen hreceives htag habsent hplace => ?_⟩
  · obtain ⟨c, rfl, rfl⟩ := exists_command_of_minimum _ hrow hw hf arguments hlen
    exact ⟨c, rfl, rfl, readArguments_append c excess hw hf⟩
  · unfold runCommand
    rw [hq]
    exact runWriteEntries_of_bad_argument hl he (by simp [hcount])
  · have hbody : (tag :: code :: arguments).length ≤ 124 := by
      simp only [List.length_cons]
      omega
    rw [exec_goodMessage_of_receives (messageOf_of_refused tag hread) hbody hreceives, receive_of_refused rfl habsent,
      answerReceipt_of_place status ?_ hplace]
    exact htag

end Sys2Proof.Machine
end

section
/-! SUPPORT. Which blocks of the part an operation can touch: every other block is left as it was. -/

namespace Sys2Proof.Machine

/-! ### The blocks by name -/

/-- The blocks of the state, and the model's own two fields, by name. -/
inductive Block where
  | pins | straps | bank0 | bank1 | activeBank | engine | receivers | queues | timing | outputs | sups | events
  | portA | portB | lease | capture | draws | pending

/-- State `t` holds this block as state `s` does. -/
@[simp] def Block.same (s t : State) : Block → Prop
  | .pins => t.pins = s.pins
  | .straps => t.straps = s.straps
  | .bank0 => t.bank0 = s.bank0
  | .bank1 => t.bank1 = s.bank1
  | .activeBank => t.activeBank = s.activeBank
  | .engine => t.engine = s.engine
  | .receivers => t.receivers = s.receivers
  | .queues => t.queues = s.queues
  | .timing => t.timing = s.timing
  | .outputs => t.outputs = s.outputs
  | .sups => t.sups = s.sups
  | .events => t.events = s.events
  | .portA => t.portA = s.portA
  | .portB => t.portB = s.portB
  | .lease => t.lease = s.lease
  | .capture => t.capture = s.capture
  | .draws => t.draws = s.draws
  | .pending => t.pending = s.pending

/-- From `s` to `t` at most the blocks named have changed. -/
def State.touches (bs : List Block) (s t : State) : Prop := ∀ b, b ∉ bs → b.same s t

theorem Block.same_refl (s : State) (b : Block) : b.same s s := by cases b <;> rfl

theorem Block.same_trans {s t u : State} {b : Block} (h : b.same s t) (h' : b.same t u) : b.same s u := by
  cases b <;> exact Eq.trans h' h

theorem touches_refl (bs : List Block) (s : State) : s.touches bs s := fun b _ => b.same_refl s

theorem State.touches.mono {bs cs : List Block} {s t : State} (h : s.touches bs t) (hs : bs ⊆ cs) :
    s.touches cs t := fun b hb => h b fun hm => hb (hs hm)

theorem State.touches.trans {bs cs : List Block} {s t u : State} (h : s.touches bs t) (h' : t.touches cs u) :
    s.touches (bs ++ cs) u := fun b hb =>
  Block.same_trans (h b fun hm => hb (List.mem_append_left _ hm)) (h' b fun hm => hb (List.mem_append_right _ hm))

section
variable {bs : List Block} {s t : State} (h : s.touches bs t)
include h

theorem State.touches.pins (hb : .pins ∉ bs) : t.pins = s.pins := h _ hb
theorem State.touches.straps (hb : .straps ∉ bs) : t.straps = s.straps := h _ hb
theorem State.touches.bank0 (hb : .bank0 ∉ bs) : t.bank0 = s.bank0 := h _ hb
theorem State.touches.bank1 (hb : .bank1 ∉ bs) : t.bank1 = s.bank1 := h _ hb
theorem State.touches.activeBank (hb : .activeBank ∉ bs) : t.activeBank = s.activeBank := h _ hb
theorem State.touches.engine (hb : .engine ∉ bs) : t.engine = s.engine := h _ hb
theorem State.touches.receivers (hb : .receivers ∉ bs) : t.receivers = s.receivers := h _ hb
theorem State.touches.queues (hb : .queues ∉ bs) : t.queues = s.queues := h _ hb
theorem State.touches.timing (hb : .timing ∉ bs) : t.timing = s.timing := h _ hb
theorem State.touches.outputs (hb : .outputs ∉ bs) : t.outputs = s.outputs := h _ hb
theorem State.touches.sups (hb : .sups ∉ bs) : t.sups = s.sups := h _ hb
theorem State.touches.events (hb : .events ∉ bs) : t.events = s.events := h _ hb
theorem State.touches.portA (hb : .portA ∉ bs) : t.portA = s.portA := h _ hb
theorem State.touches.portB (hb : .portB ∉ bs) : t.portB = s.portB := h _ hb
theorem State.touches.lease (hb : .lease ∉ bs) : t.lease = s.lease := h _ hb
theorem State.touches.capture (hb : .capture ∉ bs) : t.capture = s.capture := h _ hb
theorem State.touches.draws (hb : .draws ∉ bs) : t.draws = s.draws := h _ hb
theorem State.touches.pending (hb : .pending ∉ bs) : t.pending = s.pending := h _ hb

theorem State.touches.receiver (k : Highway) (hb : .receivers ∉ bs) : t.receiver k = s.receiver k := by
  rw [State.receiver, State.receiver, h.receivers hb]

theorem State.touches.inService (k : Highway) (hb : .receivers ∉ bs) : t.inService k = s.inService k := by
  rw [State.inService, State.inService, h.receiver k hb]

theorem State.touches.queue (k : Highway) (hb : .queues ∉ bs) : t.queue k = s.queue k := by
  rw [State.queue, State.queue, h.queues hb]

theorem State.touches.output (k : Highway) (hb : .outputs ∉ bs) : t.output k = s.output k := by
  rw [State.output, State.output, h.outputs hb]

theorem State.touches.sup (k : Highway) (hb : .sups ∉ bs) : t.sup k = s.sup k := by
  rw [State.sup, State.sup, h.sups hb]

theorem State.touches.slotState (k : Highway) (n : Slot) (hb : .sups ∉ bs) :
    t.slotState k n = s.slotState k n := by
  rw [State.slotState, State.slotState, h.sup k hb]

theorem State.touches.bank (b : BankId) (h0 : .bank0 ∉ bs) (h1 : .bank1 ∉ bs) :
    t.bank b = s.bank b := by
  cases b
  · exact h.bank0 h0
  · exact h.bank1 h1

theorem State.touches.port (p : PortId) (ha : .portA ∉ bs) (hb : .portB ∉ bs) :
    t.port p = s.port p := by
  cases p
  · exact h.portA ha
  · exact h.portB hb

theorem State.touches.portEnabled (p : PortId) (hb : .straps ∉ bs) : t.portEnabled p = s.portEnabled p := by
  rw [State.portEnabled, State.portEnabled, h.straps hb]

theorem State.touches.portPair (p : PortId) (hb : .straps ∉ bs) : t.portPair p = s.portPair p := by
  rw [State.portPair, State.portPair, h.straps hb]

theorem State.touches.isProtected (k : Highway) (n : Slot) (hb : .straps ∉ bs) :
    t.isProtected k n = s.isProtected k n := by
  rw [State.isProtected, State.isProtected, h.straps hb]

theorem State.touches.isMgmtHighway (k : Highway) (hb : .straps ∉ bs) :
    t.isMgmtHighway k = s.isMgmtHighway k := by
  rw [State.isMgmtHighway, State.isMgmtHighway, h.straps hb]

theorem State.touches.leaseHolder (hb : .lease ∉ bs) : t.leaseHolder = s.leaseHolder := by
  rw [State.leaseHolder, State.leaseHolder, h.lease hb]

theorem State.touches.holdsLease (p : PortId) (hb : .lease ∉ bs) : t.holdsLease p = s.holdsLease p := by
  rw [State.holdsLease, State.holdsLease, h.leaseHolder hb]

end

/-! ### What each operation touches -/

/-- News is the event list, the two ports and the count of free values (R109, R123, R125). -/
theorem State.sameButNews.touches {s t : State} (h : s.sameButNews t) :
    s.touches [.events, .portA, .portB, .draws] t := by
  intro b hb
  rw [h]
  cases b <;> first | rfl | simp at hb

section
variable (s : State)

theorem touches_setBank (b : BankId) (x : Bank) : s.touches [.bank0, .bank1] (s.setBank b x) := by
  intro c hc
  cases c <;> simp_all

theorem touches_setActiveBank (b : BankId) : s.touches [.activeBank] (s.setActiveBank b) := by
  intro c hc
  cases c <;> simp_all

theorem touches_setEngine (e : Engine) : s.touches [.engine] (s.setEngine e) := by
  intro c hc
  cases c <;> simp_all

theorem touches_setReceiver (k : Highway) (r : Receiver) : s.touches [.receivers] (s.setReceiver k r) := by
  intro c hc
  cases c <;> simp_all

theorem touches_countHighway (k : Highway) (f : HighwayCounters → HighwayCounters) :
    s.touches [.receivers] (s.countHighway k f) := touches_setReceiver s k _

theorem touches_setAlign (k : Highway) (a : Align) (f : Bool) : s.touches [.receivers] (s.setAlign k a f) :=
  touches_setReceiver s k _

theorem touches_setQueue (k : Highway) (q : FrameQueue) : s.touches [.queues] (s.setQueue k q) := by
  intro c hc
  cases c <;> simp_all

theorem touches_setTiming (t : Timing) : s.touches [.timing] (s.setTiming t) := by
  intro c hc
  cases c <;> simp_all

theorem touches_setOutput (k : Highway) (o : Output) : s.touches [.outputs] (s.setOutput k o) := by
  intro c hc
  cases c <;> simp_all

theorem touches_setOutputs (o : Vector Output 8) : s.touches [.outputs] (s.setOutputs o) := by
  intro c hc
  cases c <;> simp_all

theorem touches_setSup (k : Highway) (x : Supervisor) : s.touches [.sups] (s.setSup k x) := by
  intro c hc
  cases c <;> simp_all

theorem touches_setEvents (l : EventList) : s.touches [.events] (s.setEvents l) := by
  intro c hc
  cases c <;> simp_all

theorem touches_setPort (p : PortId) (x : Port) : s.touches [.portA, .portB] (s.setPort p x) := by
  intro c hc
  cases c <;> simp_all

theorem touches_setLease (l : Lease) : s.touches [.lease] (s.setLease l) := by
  intro c hc
  cases c <;> simp_all

theorem touches_setCapture (u : Capture) : s.touches [.capture] (s.setCapture u) := by
  intro c hc
  cases c <;> simp_all

theorem touches_setPins (t : Straps) : s.touches [.pins] (s.setPins t) := by
  intro c hc
  cases c <;> simp_all

theorem touches_useDraw : s.touches [.draws] s.useDraw := by
  intro c hc
  cases c <;> simp_all

theorem touches_countPort (p : PortId) (f : PortCounters → PortCounters) :
    s.touches [.portA, .portB] (s.countPort p f) := touches_setPort s p _

theorem touches_raise (key : EventKey) (v : EventValue) :
    s.touches [.events, .portA, .portB, .draws] (s.raise key v) := (sameButNews_raise s key v).touches

theorem touches_settleAttention : s.touches [.events, .portA, .portB, .draws] s.settleAttention :=
  (sameButNews_settleAttention s).touches

theorem touches_fetch (p : PortId) (ack : Option Octet) :
    s.touches [.events, .portA, .portB, .draws] (s.fetch p ack).1 :=
  ((touches_setEvents s _).trans (touches_settleAttention _)).mono (by simp)

theorem touches_restartTimer : s.touches [.events] s.restartTimer := touches_setEvents s _

theorem touches_answerCommit (r : PendingCommit) (reply : Reply) :
    s.touches [.portA, .portB] (s.answerCommit r reply) := by
  unfold State.answerCommit
  simp only
  split
  · exact touches_setPort _ _ _
  · exact touches_refl _ s

theorem touches_renewLease (p : PortId) : s.touches [.lease] (s.renewLease p) := by
  unfold State.renewLease
  split
  · exact touches_setLease _ _
  · exact touches_refl _ s

theorem touches_breakCapture (down : Source → Bool) :
    s.touches [.capture, .events, .portA, .portB, .draws] (s.breakCapture down) := by
  unfold State.breakCapture
  split
  · split
    · exact (touches_setCapture s _).trans (touches_raise _ _ _)
    · exact touches_refl _ s
  all_goals exact touches_refl _ s

theorem touches_captureOctet (o : Octet) :
    s.touches [.capture, .events, .portA, .portB, .draws] (s.captureOctet o) := by
  unfold State.captureOctet
  split
  · exact (touches_setCapture s _).mono (by simp)
  · exact (touches_setCapture s _).trans (touches_raise _ _ _)

theorem touches_loseLink (k : Highway) : s.touches [.lease, .events, .portA, .portB, .draws] (s.loseLink k) := by
  unfold State.loseLink
  split
  · exact touches_refl _ s
  · split
    · exact (touches_setLease s _).trans (touches_raise _ _ _)
    · exact touches_refl _ s

theorem touches_resetFramer (k : Highway) : s.touches [.portA, .portB] (s.resetFramer k) := by
  unfold State.resetFramer
  split
  · exact touches_setPort _ _ _
  · exact touches_refl _ s

theorem touches_leaveTraffic (k : Highway) : s.touches [.queues, .sups] (s.leaveTraffic k) :=
  (touches_setQueue s _ _).trans (touches_setSup _ _ _)

theorem touches_enterSearch (k : Highway) (history : List Bool) :
    s.touches [.receivers, .queues, .sups, .lease, .capture, .events, .portA, .portB, .draws]
      (s.enterSearch k history) :=
  (((((touches_setAlign s _ _ _).trans (touches_leaveTraffic _ _)).trans (touches_resetFramer _ _)).trans
    (touches_loseLink _ _)).trans (touches_breakCapture _ _)).mono (by simp)

theorem touches_enterDisabled (k : Highway) :
    s.touches [.receivers, .queues, .sups, .capture, .events, .portA, .portB, .draws] (s.enterDisabled k) := by
  have h := (touches_setAlign s k .disabled false).trans (touches_leaveTraffic _ k)
  unfold State.enterDisabled
  simp only
  split
  · exact ((h.trans (touches_raise _ _ _)).trans (touches_breakCapture _ _)).mono (by simp)
  · exact (h.trans (touches_breakCapture _ _)).mono (by simp)

theorem touches_writeStandby (k : Highway) (first : Nat) (es : List Entry) :
    s.touches [.bank0, .bank1, .engine] (s.writeStandby k first es) := by
  unfold State.writeStandby
  simp only
  split
  · exact (touches_setBank s _ _).trans (touches_setEngine _ _)
  all_goals exact (touches_setBank s _ _).mono (by simp)

theorem touches_clearStandbyBank : s.touches [.bank0, .bank1] s.clearStandbyBank := touches_setBank s _ _

theorem touches_copyHighway (k : Highway) (marks : Marks) : s.touches [.bank0, .bank1] (s.copyHighway k marks) :=
  touches_setBank s _ _

theorem touches_forgetEntry (p : PortId) (tag : Octet) :
    s.touches [.portA, .portB, .engine] (s.forgetEntry p tag) := by
  unfold State.forgetEntry
  simp only
  split
  · split
    · exact (touches_setPort s _ _).trans (touches_setEngine _ _)
    · exact (touches_setPort s _ _).mono (by simp)
  all_goals exact (touches_setPort s _ _).mono (by simp)

theorem touches_listTick (timerFirst delivered : Bool) :
    s.touches [.events, .portA, .portB, .draws] (s.listTick timerFirst delivered) :=
  (sameButNews_listTick s timerFirst delivered).touches

end

/-! ### What raising an event leaves -/

section
variable (s : State) (key : EventKey) (v : EventValue)

@[simp] theorem raise_pins : (s.raise key v).pins = s.pins :=
  (touches_raise s key v).pins (by simp)

@[simp] theorem raise_straps : (s.raise key v).straps = s.straps :=
  (touches_raise s key v).straps (by simp)

@[simp] theorem raise_bank0 : (s.raise key v).bank0 = s.bank0 :=
  (touches_raise s key v).bank0 (by simp)

@[simp] theorem raise_bank1 : (s.raise key v).bank1 = s.bank1 :=
  (touches_raise s key v).bank1 (by simp)

@[simp] theorem raise_activeBank : (s.raise key v).activeBank = s.activeBank :=
  (touches_raise s key v).activeBank (by simp)

@[simp] theorem raise_engine : (s.raise key v).engine = s.engine :=
  (touches_raise s key v).engine (by simp)

@[simp] theorem raise_receivers : (s.raise key v).receivers = s.receivers :=
  (touches_raise s key v).receivers (by simp)

@[simp] theorem raise_queues : (s.raise key v).queues = s.queues :=
  (touches_raise s key v).queues (by simp)

@[simp] theorem raise_timing : (s.raise key v).timing = s.timing :=
  (touches_raise s key v).timing (by simp)

@[simp] theorem raise_outputs : (s.raise key v).outputs = s.outputs :=
  (touches_raise s key v).outputs (by simp)

@[simp] theorem raise_sups : (s.raise key v).sups = s.sups :=
  (touches_raise s key v).sups (by simp)

@[simp] theorem raise_lease : (s.raise key v).lease = s.lease :=
  (touches_raise s key v).lease (by simp)

@[simp] theorem raise_capture : (s.raise key v).capture = s.capture :=
  (touches_raise s key v).capture (by simp)

@[simp] theorem raise_pending : (s.raise key v).pending = s.pending :=
  (touches_raise s key v).pending (by simp)

@[simp] theorem raise_receiver (j : Highway) : (s.raise key v).receiver j = s.receiver j :=
  (touches_raise s key v).receiver j (by simp)

@[simp] theorem raise_queue (j : Highway) : (s.raise key v).queue j = s.queue j :=
  (touches_raise s key v).queue j (by simp)

@[simp] theorem raise_output (j : Highway) : (s.raise key v).output j = s.output j :=
  (touches_raise s key v).output j (by simp)

@[simp] theorem raise_sup (j : Highway) : (s.raise key v).sup j = s.sup j :=
  (touches_raise s key v).sup j (by simp)

@[simp] theorem raise_slotState (j : Highway) (n : Slot) : (s.raise key v).slotState j n = s.slotState j n :=
  (touches_raise s key v).slotState j n (by simp)

@[simp] theorem raise_inService (j : Highway) : (s.raise key v).inService j = s.inService j :=
  (touches_raise s key v).inService j (by simp)

@[simp] theorem raise_portEnabled (q : PortId) : (s.raise key v).portEnabled q = s.portEnabled q :=
  (touches_raise s key v).portEnabled q (by simp)

@[simp] theorem raise_portPair (q : PortId) : (s.raise key v).portPair q = s.portPair q :=
  (touches_raise s key v).portPair q (by simp)

@[simp] theorem raise_isProtected (j : Highway) (n : Slot) : (s.raise key v).isProtected j n = s.isProtected j n :=
  (touches_raise s key v).isProtected j n (by simp)

@[simp] theorem raise_isMgmtHighway (j : Highway) : (s.raise key v).isMgmtHighway j = s.isMgmtHighway j :=
  (touches_raise s key v).isMgmtHighway j (by simp)

@[simp] theorem raise_leaseHolder : (s.raise key v).leaseHolder = s.leaseHolder :=
  (touches_raise s key v).leaseHolder (by simp)

@[simp] theorem raise_holdsLease (q : PortId) : (s.raise key v).holdsLease q = s.holdsLease q :=
  (touches_raise s key v).holdsLease q (by simp)

@[simp] theorem raise_bank (b : BankId) : (s.raise key v).bank b = s.bank b :=
  (touches_raise s key v).bank b (by simp) (by simp)

end

end Sys2Proof.Machine
end

section
/-! SUPPORT. The moves of the part: each command, and each happening of the lines, is a run of moves that touch one block
each, or enter one of the states of a receiver. Every invariant is shown of the moves alone. -/

namespace Sys2Proof.Machine

/-! ### The moves -/

/-- What can happen to the capture unit (R162 to R170), but for a break. -/
inductive Capture.Moves (u : Capture) : Capture → Prop
  | armed (source : Source) (trigger : Trigger) (length : Nat) (h1 : 1 ≤ length) (h2 : length ≤ 1024) :
    u.Moves { u with
      phase := .armed { source := source, trigger := trigger, length := length }, filling := [], ready := [] }
  | read (pool : Pool) (rest : List Pool) (h : u.ready = pool :: rest) : u.Moves { u with ready := rest }
  | cancelled : u.Moves { u with phase := .idle, filling := [], ready := [] }
  | took (now : Stamp) (o : Octet) : u.Moves (u.take now o).1
  | met (now : Stamp) (k : Highway) (n : Slot) (c : Code) : u.Moves (u.acceptance now k n c)

/-- The port is enabled, or holds something, as no disabled port does (R129). -/
def State.acts (s : State) (p : PortId) : Prop := s.port p ≠ initialPort ∨ s.portEnabled p = true

/-- One move of a command, an event, or the capture unit, with the blocks that it can touch. -/
inductive State.Work (s : State) : List Block → State → Prop
  | news (key : EventKey) (v : EventValue) : s.Work [.events, .portA, .portB, .draws] (s.raise key v)
  | fetch (p : PortId) (ack : Option Octet) : s.Work [.events, .portA, .portB, .draws] (s.fetch p ack).1
  | restartTimer : s.Work [.events] s.restartTimer
  | attention (mask : BitVec 9) (interval hold : Octet) (h : hold ≠ 0) :
    s.Work [.events, .portA, .portB, .draws]
      (s.setEvents { s.events with mask := mask, interval := interval, holdTime := hold }).settleAttention
  | draw : s.Work [.draws] s.useDraw
  | port (p : PortId) (x : Port) (h : s.acts p) : s.Work [.portA, .portB] (s.setPort p x)
  | clearPort (p : PortId) : s.Work [.portA, .portB] (s.countPort p fun _ => zeroPortCounters)
  | outputs (o : Vector Output 8) (h : ∀ k : Highway, o[k].raSent = (s.output k).raSent) :
    s.Work [.outputs] (s.setOutputs o)
  | renew (p : PortId) (h : s.holdsLease p = true) : s.Work [.lease] (s.setLease (s.lease.granted p))
  | claim (p : PortId) (h : s.acts p) (hh : (s.receiver (s.portPair p)).align.hunting = false) :
    s.Work [.lease] (s.setLease (s.lease.granted p))
  | period (p : PortId) (period : Octet) (h : s.holdsLease p = true) (h0 : period ≠ 0) :
    s.Work [.lease] (s.setLease (Lease.granted { s.lease with period := period } p))
  | freed : s.Work [.lease] (s.setLease s.lease.freed)
  | write (k : Highway) (first : Nat) (es : List RawEntry) (h : s.checkEntries k first 0 es = none) :
    s.Work [.bank0, .bank1, .engine] (s.writeStandby k first (es.map RawEntry.entry))
  | clear : s.Work [.bank0, .bank1] s.clearStandbyBank
  | engine (e : Engine) (h : e.position = none) : s.Work [.engine] (s.setEngine e)
  | sync : s.Work [.engine] (s.setEngine (.syncing 0 noMarks))
  | settings (k : Highway) (x g : Nat) (h1 : 1 ≤ x) (h2 : x ≤ 7) (h3 : g ≤ 15) :
    s.Work [.receivers] (s.setReceiver k { s.receiver k with persistence := x, guardLength := g })
  | counters (k : Highway) (f : HighwayCounters → HighwayCounters) : s.Work [.receivers] (s.countHighway k f)
  | enabled (k : Highway) (h : (s.receiver k).align.enabled = false) :
    s.Work [.receivers, .queues, .sups, .lease, .capture, .events, .portA, .portB, .draws] (s.enterSearch k [])
  | disabled (k : Highway) (h : s.isMgmtHighway k = false) :
    s.Work [.receivers, .queues, .sups, .capture, .events, .portA, .portB, .draws] (s.enterDisabled k)
  | watch (k : Highway) (first count : Nat) (v : Bool) :
    s.Work [.sups] (s.setSup k ((s.sup k).watch first count v))
  | capture (u : Capture) (h : s.capture.Moves u) : s.Work [.capture] (s.setCapture u)
  | broken (down : Source → Bool) : s.Work [.capture, .events, .portA, .portB, .draws] (s.breakCapture down)

/-- One move of a command on the block that it addresses: it leaves the queues of the ports to themselves, and no commit
is PENDING by it or cancelled by it. -/
inductive State.Act (s : State) : List Block → State → Prop
  | news (key : EventKey) (v : EventValue) : s.Act [.events, .portA, .portB, .draws] (s.raise key v)
  | fetch (p : PortId) (ack : Option Octet) : s.Act [.events, .portA, .portB, .draws] (s.fetch p ack).1
  | restartTimer : s.Act [.events] s.restartTimer
  | attention (mask : BitVec 9) (interval hold : Octet) (h : hold ≠ 0) :
    s.Act [.events, .portA, .portB, .draws]
      (s.setEvents { s.events with mask := mask, interval := interval, holdTime := hold }).settleAttention
  | draw : s.Act [.draws] s.useDraw
  | clearPort (p : PortId) : s.Act [.portA, .portB] (s.countPort p fun _ => zeroPortCounters)
  | outputs (o : Vector Output 8) (h : ∀ k : Highway, o[k].raSent = (s.output k).raSent) :
    s.Act [.outputs] (s.setOutputs o)
  | renew (p : PortId) (h : s.holdsLease p = true) : s.Act [.lease] (s.setLease (s.lease.granted p))
  | claim (p : PortId) (h : s.acts p) (hh : (s.receiver (s.portPair p)).align.hunting = false) :
    s.Act [.lease] (s.setLease (s.lease.granted p))
  | period (p : PortId) (period : Octet) (h : s.holdsLease p = true) (h0 : period ≠ 0) :
    s.Act [.lease] (s.setLease (Lease.granted { s.lease with period := period } p))
  | freed : s.Act [.lease] (s.setLease s.lease.freed)
  | write (k : Highway) (first : Nat) (es : List RawEntry) (h : s.checkEntries k first 0 es = none) :
    s.Act [.bank0, .bank1, .engine] (s.writeStandby k first (es.map RawEntry.entry))
  | clear : s.Act [.bank0, .bank1] s.clearStandbyBank
  | idle (he : s.engine.isPending = false) : s.Act [.engine] (s.setEngine .idle)
  | sync (he : s.engine.isPending = false) : s.Act [.engine] (s.setEngine (.syncing 0 noMarks))
  | settings (k : Highway) (x g : Nat) (h1 : 1 ≤ x) (h2 : x ≤ 7) (h3 : g ≤ 15) :
    s.Act [.receivers] (s.setReceiver k { s.receiver k with persistence := x, guardLength := g })
  | counters (k : Highway) (f : HighwayCounters → HighwayCounters) : s.Act [.receivers] (s.countHighway k f)
  | enabled (k : Highway) (h : (s.receiver k).align.enabled = false) :
    s.Act [.receivers, .queues, .sups, .lease, .capture, .events, .portA, .portB, .draws] (s.enterSearch k [])
  | disabled (k : Highway) (h : s.isMgmtHighway k = false) :
    s.Act [.receivers, .queues, .sups, .capture, .events, .portA, .portB, .draws] (s.enterDisabled k)
  | watch (k : Highway) (first count : Nat) (v : Bool) :
    s.Act [.sups] (s.setSup k ((s.sup k).watch first count v))
  | capture (u : Capture) (h : s.capture.Moves u) : s.Act [.capture] (s.setCapture u)
  | broken (down : Source → Bool) : s.Act [.capture, .events, .portA, .portB, .draws] (s.breakCapture down)

theorem State.Act.work {s t : State} {bs : List Block} (h : s.Act bs t) : s.Work bs t := by
  cases h with
  | news key v => exact .news key v
  | fetch p ack => exact .fetch p ack
  | restartTimer => exact .restartTimer
  | attention mask interval hold h => exact .attention mask interval hold h
  | draw => exact .draw
  | clearPort p => exact .clearPort p
  | outputs o h => exact .outputs o h
  | renew p h => exact .renew p h
  | claim p h hh => exact .claim p h hh
  | period p period h h0 => exact .period p period h h0
  | freed => exact .freed
  | write k first es h => exact .write k first es h
  | clear => exact .clear
  | idle he => exact .engine .idle rfl
  | sync he => exact .sync
  | settings k x g h1 h2 h3 => exact .settings k x g h1 h2 h3
  | counters k f => exact .counters k f
  | enabled k h => exact .enabled k h
  | disabled k h => exact .disabled k h
  | watch k first count v => exact .watch k first count v
  | capture u h => exact .capture u h
  | broken down => exact .broken down

theorem State.Work.touches {s t : State} {bs : List Block} (h : s.Work bs t) : s.touches bs t := by
  cases h with
  | news key v => exact touches_raise s key v
  | fetch p ack => exact touches_fetch s p ack
  | restartTimer => exact touches_restartTimer s
  | attention mask interval hold h =>
    exact ((touches_setEvents s _).trans (touches_settleAttention _)).mono (by simp)
  | draw => exact touches_useDraw s
  | port p x h => exact touches_setPort s p x
  | clearPort p => exact touches_countPort s p _
  | outputs o h => exact touches_setOutputs s o
  | renew p h | claim p h hh | period p x h h0 | freed => exact touches_setLease s _
  | write k first es h => exact touches_writeStandby s k first _
  | clear => exact touches_clearStandbyBank s
  | engine e h => exact touches_setEngine s e
  | sync => exact touches_setEngine s _
  | settings k x g h1 h2 h3 => exact touches_setReceiver s k _
  | counters k f => exact touches_countHighway s k f
  | enabled k h => exact touches_enterSearch s k []
  | disabled k h => exact touches_enterDisabled s k
  | watch k first count v => exact touches_setSup s k _
  | capture u h => exact touches_setCapture s u
  | broken down => exact touches_breakCapture s down

/-- A run of such moves. -/
abbrev State.Works : State → State → Prop := Relation.ReflTransGen fun s t => ∃ bs, s.Work bs t

theorem State.Work.works {s t : State} {bs : List Block} (h : s.Work bs t) : s.Works t := .single ⟨bs, h⟩

/-- A run of moves on the blocks that commands address. -/
abbrev State.Acts : State → State → Prop := Relation.ReflTransGen fun s t => ∃ bs, s.Act bs t

theorem State.Act.acts {s t : State} {bs : List Block} (h : s.Act bs t) : s.Acts t := .single ⟨bs, h⟩

theorem works_of_acts {s t : State} (h : s.Acts t) : s.Works t := h.lift id fun _ _ ⟨_, hw⟩ => ⟨_, hw.work⟩

/-- A lease-required command does what it does, or is refused without a change (R158). -/
theorem leased_keeps {P : State → Prop} {s : State} {p : PortId} {run : State × Result} (h0 : P s)
    (h : s.holdsLease p = true → P run.1) : P (s.leased p run).1 := by
  unfold State.leased
  split
  · exact h ‹_›
  · exact h0

theorem acts_leased {s : State} {p : PortId} {run : State × Result} (h : s.holdsLease p = true → s.Acts run.1) :
    s.Acts (s.leased p run).1 := leased_keeps .refl h

theorem works_leased {s : State} {p : PortId} {run : State × Result} (h : s.holdsLease p = true → s.Works run.1) :
    s.Works (s.leased p run).1 := leased_keeps .refl h

theorem acts_of_commands {s : State} {p : PortId} (h : (s.port p).commands ≠ []) : s.acts p :=
  .inl fun he => h (by rw [he]; rfl)

theorem acts_of_transmit {s : State} {p : PortId} (h : (s.port p).transmit ≠ []) : s.acts p :=
  .inl fun he => h (by rw [he]; rfl)

/-! ### Each command (R139) -/

section
variable (s : State) (p : PortId)

theorem acts_renewLease : s.Acts (s.renewLease p) := by
  unfold State.renewLease
  split
  · exact (State.Act.renew p ‹_›).acts
  · exact .refl

theorem works_answerCommit (r : PendingCommit) (reply : Reply) : s.Works (s.answerCommit r reply) := by
  unfold State.answerCommit
  simp only
  split
  · rename_i h
    exact (State.Work.port _ _ (acts_of_transmit fun he => by simp [he] at h)).works
  · exact .refl

theorem acts_runClaim (h : s.acts p) : s.Acts (runClaim p s).1 := by
  unfold runClaim
  split
  · exact .refl
  · rename_i hh
    have hc : s.Acts (s.setLease (s.lease.granted p)) := (State.Act.claim p h (by simpa using hh)).acts
    split
    · exact hc
    · split
      · exact hc
      · exact .refl

theorem acts_runRelease : s.Acts (runRelease p s).1 := by
  unfold runRelease
  split
  · exact State.Act.freed.acts
  · exact .refl

theorem acts_runSetLease (period : Octet) : s.Acts (runSetLease p period s).1 := by
  refine acts_leased fun hl => ?_
  split
  · exact .refl
  · exact (State.Act.period p period hl ‹_›).acts

theorem acts_runReset (scope : Octet) : s.Acts (runReset p scope s).1 := by
  refine acts_leased fun _ => ?_
  split
  · exact .refl
  · split <;> exact .refl

theorem acts_runWriteEntries (k n c : Octet) (es : List Octet) : s.Acts (runWriteEntries p k n c es s).1 := by
  refine acts_leased fun _ => ?_
  split
  · exact .refl
  all_goals
    split
    · exact .refl
    · split
      · exact .refl
      · split
        · exact .refl
        · exact (State.Act.write _ _ _ ‹_›).acts

theorem acts_runReadEntries (r k n c : Octet) : s.Acts (runReadEntries r k n c s).1 := by
  unfold runReadEntries
  split
  · split <;> exact .refl
  · exact .refl

theorem acts_runClearStandby : s.Acts (runClearStandby p s).1 := by
  refine acts_leased fun _ => ?_
  split
  · exact .refl
  · exact State.Act.clear.acts
  · rename_i he
    refine (State.Act.clear.acts.tail ⟨_, .idle ?_⟩).tail ⟨_, .news _ _⟩
    rw [(touches_clearStandbyBank s).engine (by simp), he]
    rfl

theorem acts_runResync : s.Acts (runResync p s).1 := by
  refine acts_leased fun _ => ?_
  split
  · exact .refl
  · exact .refl
  · rename_i he
    exact (State.Act.sync (by rw [he]; rfl)).acts

theorem works_runCommit (tag : Octet) (cached : Bool) : s.Works (runCommit p tag cached s).1 := by
  refine works_leased fun _ => ?_
  split
  · exact .refl
  · exact .refl
  · exact (State.Work.engine _ rfl).works

theorem works_runAbortCommit : s.Works (runAbortCommit p s).1 := by
  refine works_leased fun _ => ?_
  split
  · exact .refl
  · exact .refl
  · exact ((State.Work.engine _ rfl).works.trans (works_answerCommit _ _ _)).tail ⟨_, .news _ _⟩

theorem acts_setInputEnable {k : Highway} {enable : Bool} (h : enable = false → s.isMgmtHighway k = false) :
    s.Acts (s.setInputEnable k enable) := by
  unfold State.setInputEnable
  split
  · exact .refl
  · rename_i hd
    split
    · rename_i he
      exact (State.Act.enabled k (by simpa [he] using hd)).acts
    · exact (State.Act.disabled k (h (by simpa using ‹¬enable = true›))).acts

theorem acts_runSetInput (k e x g : Octet) : s.Acts (runSetInput p k e x g s).1 := by
  refine acts_leased fun _ => ?_
  split
  · split
    · exact .refl
    · rename_i hr
      split
      · exact .refl
      · rename_i hm
        refine (State.Act.settings _ _ _ (by omega) (by omega) (by omega)).acts.trans (acts_setInputEnable _ ?_)
        simpa using hm
  · exact .refl

/-- An output highway takes other settings or another line, and its RA flag stays (R53). -/
theorem acts_setOutput (k : Highway) (o : Output) (h : o.raSent = (s.output k).raSent) :
    s.Acts (s.setOutput k o) := by
  have hw : s.Acts (s.setOutputs (s.outputs.set k o)) := by
    refine (State.Act.outputs _ fun j => ?_).acts
    have hj : (s.setOutput k o).output j = if k = j then o else s.output j := by simp
    simp only [State.output, State.setOutput] at hj
    rw [hj]
    split
    · rename_i hk
      rw [← hk]
      exact h
    · rfl
  exact hw

theorem acts_runSetOutput (k e o c : Octet) : s.Acts (runSetOutput p k e o c s).1 := by
  refine acts_leased fun _ => ?_
  split
  · rename_i h b _ _
    have hset := acts_setOutput s h
      { s.output h with enabled := b, idleOctet := o, idleCode := lowCode c } rfl
    split
    · exact .refl
    · split
      · exact .refl
      · simp only
        split
        · exact hset.tail ⟨_, .broken _⟩
        · exact hset
  · exact .refl

theorem acts_runReadHighway (k : Octet) : s.Acts (runReadHighway k s).1 := by
  unfold runReadHighway
  split <;> exact .refl

theorem acts_runReadCountersHighway (n : Octet) (clear : Bool) : s.Acts (runReadCountersHighway n clear s).1 := by
  unfold runReadCountersHighway
  split
  · simp only
    split
    · exact (State.Act.counters _ _).acts
    · exact .refl
  · exact .refl

theorem acts_runReadCountersPort (n : Octet) (clear : Bool) : s.Acts (runReadCountersPort n clear s).1 := by
  unfold runReadCountersPort
  split
  · simp only
    split
    · exact (State.Act.clearPort _).acts
    · exact .refl
  · exact .refl

theorem acts_runReadCounters (g n c : Octet) : s.Acts (runReadCounters p g n c s).1 := by
  unfold runReadCounters
  split
  · exact .refl
  · split
    · exact acts_runReadCountersHighway s _ _
    · exact acts_runReadCountersPort s _ _
    · exact .refl

theorem acts_runWatch (k n c v : Octet) : s.Acts (runWatch p k n c v s).1 := by
  refine acts_leased fun _ => ?_
  split
  · split
    · exact .refl
    · exact (State.Act.watch _ _ _ _).acts
  · exact .refl

theorem acts_runReadSignaling (k : Octet) : s.Acts (runReadSignaling k s).1 := by
  unfold runReadSignaling
  split
  · exact State.Act.draw.acts
  · exact .refl

theorem acts_runFetchEvents (ack : Option Octet) : s.Acts (runFetchEvents p ack s).1 := by
  unfold runFetchEvents
  simp only
  split
  · exact ((State.Act.fetch p ack).acts.tail ⟨_, .restartTimer⟩).tail ⟨_, .draw⟩
  · exact (State.Act.fetch p ack).acts.tail ⟨_, .draw⟩

theorem acts_runSetAttention (h l i t : Octet) : s.Acts (runSetAttention p h l i t s).1 := by
  refine acts_leased fun _ => ?_
  split
  · exact .refl
  · exact (State.Act.attention _ _ _ ‹_›).acts.tail ⟨_, .restartTimer⟩

theorem length_range {high low : Octet} {n : Nat} (h : lengthOf high low = some n) : 1 ≤ n ∧ n ≤ 1024 := by
  unfold lengthOf at h
  simp only at h
  split at h
  · cases h
  · injection h with h
    omega

theorem acts_runArmCapture (k h n t a b c lh ll : Octet) :
    s.Acts (runArmCapture p k h n t a b c lh ll s).1 := by
  refine acts_leased fun _ => ?_
  split
  · rename_i hn
    obtain ⟨h1, h2⟩ := length_range hn
    split
    · exact .refl
    · split
      · exact .refl
      · exact (State.Act.capture _ (.armed _ _ _ h1 h2)).acts.tail ⟨_, .draw⟩
  · exact .refl

theorem acts_runReadCapture : s.Acts (runReadCapture s).1 := by
  unfold runReadCapture
  split
  · exact State.Act.draw.acts
  · exact (State.Act.capture _ (.read _ _ ‹_›)).acts.tail ⟨_, .draw⟩

theorem acts_runCancelCapture : s.Acts (runCancelCapture p s).1 :=
  acts_leased fun _ => (State.Act.capture _ .cancelled).acts

/-- Of the commands, COMMIT and ABORT_COMMIT alone do more than to act on the block that they address. -/
theorem acts_runCommand {q : Queued} (h : s.acts p) (hc : q.command ≠ .commit) (ha : q.command ≠ .abortCommit) :
    s.Acts (runCommand p q s).1 := by
  unfold runCommand
  cases hq : q.command with
  | identify | readBanks => exact .refl
  | claim => exact acts_runClaim s p h
  | release => exact acts_runRelease s p
  | setLease period => exact acts_runSetLease s p period
  | reset scope => exact acts_runReset s p scope
  | writeEntries k n c es => exact acts_runWriteEntries s p k n c es
  | readEntries r k n c => exact acts_runReadEntries s r k n c
  | clearStandby => exact acts_runClearStandby s p
  | resync => exact acts_runResync s p
  | commit => exact absurd hq hc
  | abortCommit => exact absurd hq ha
  | setInput k e x g => exact acts_runSetInput s p k e x g
  | setOutput k e o c => exact acts_runSetOutput s p k e o c
  | readHighway k => exact acts_runReadHighway s k
  | readCounters g n c => exact acts_runReadCounters s p g n c
  | watch k n c v => exact acts_runWatch s p k n c v
  | readSignaling k => exact acts_runReadSignaling s k
  | fetchEvents ack => exact acts_runFetchEvents s p ack
  | setAttention mh ml i t => exact acts_runSetAttention s p mh ml i t
  | armCapture k j n t a b c lh ll => exact acts_runArmCapture s p k j n t a b c lh ll
  | readCapture => exact acts_runReadCapture s
  | cancelCapture => exact acts_runCancelCapture s p

/-- Every command is a run of moves. -/
theorem works_runCommand (q : Queued) (h : s.acts p) : s.Works (runCommand p q s).1 := by
  by_cases hc : q.command = .commit
  · unfold runCommand
    rw [hc]
    exact works_runCommit s p _ _
  · by_cases ha : q.command = .abortCommit
    · unfold runCommand
      rw [ha]
      exact works_runAbortCommit s p
    · exact works_of_acts (acts_runCommand s p h hc ha)

end

/-! ### The path of a command through its port (R135 to R140) -/

/-- A command leaves the commands that wait at every port (R139). -/
theorem runCommand_commands (p : PortId) (q : Queued) (s : State) (o : PortId) :
    ((runCommand p q s).1.port o).commands = (s.port o).commands := by
  by_cases hc : q.command = .commit
  · obtain ⟨e, h, -⟩ := runCommit_restsAs s p q.tag q.cached
    simpa [runCommand, hc] using (h.ports o).commands
  · by_cases ha : q.command = .abortCommit
    · obtain ⟨e, h, -⟩ := runAbortCommit_restsAs s p
      simpa [runCommand, ha] using (h.ports o).commands
    · exact ((restsAs_runCommand s p hc ha).ports o).commands

/-- A completion is one change of the port (R140). -/
theorem complete_eq_setPort (s : State) (p : PortId) (q : Queued) (x : Result) :
    ∃ y, s.complete p q x = s.setPort p y := by
  cases x with
  | reply r => exact ⟨_, by simp only [State.complete, State.answerCommand, State.dropHead, setPort_setPort]; rfl⟩
  | deferred => exact ⟨_, by simp only [State.complete, State.keepPlace, State.dropHead, setPort_setPort]; rfl⟩
  | resetAccepted scope r =>
    exact ⟨_, by simp only [State.complete, State.answerCommand, State.holdHead, setPort_setPort]; rfl⟩

theorem works_executeCommand {s : State} {p : PortId} (q : Queued) (h : (s.port p).commands ≠ []) :
    s.Works (s.executeCommand p q) := by
  obtain ⟨y, hy⟩ := complete_eq_setPort (runCommand p q (s.renewLease p)).1 p q (runCommand p q (s.renewLease p)).2
  refine (works_of_acts (acts_renewLease s p)).trans ((works_runCommand _ p q (acts_of_commands (by simpa using h))).trans ?_)
  rw [State.executeCommand, hy]
  exact (State.Work.port p y (acts_of_commands (by rw [runCommand_commands]; simpa using h))).works

theorem works_reservePlace {s : State} {p : PortId} (h : (s.port p).commands ≠ []) : s.Works (s.reservePlace p) :=
  (State.Work.port p _ (acts_of_commands h)).works

theorem works_startCommand {s : State} {p : PortId} (q : Queued) (h : (s.port p).commands ≠ []) :
    s.Works (s.startCommand p q) :=
  (works_reservePlace h).trans (works_executeCommand q (by simpa [State.reservePlace] using h))

theorem works_runQueue (n : Nat) (p : PortId) (s : State) : s.Works (runQueue n p s) := by
  induction n generalizing s with
  | zero => exact .refl
  | succ n ih =>
    unfold runQueue
    split
    · exact .refl
    · rename_i q rest hq
      split
      · exact (works_startCommand q (by simp [hq])).trans (ih _)
      · exact .refl

theorem works_runPort (s : State) (p : PortId) : s.Works (s.runPort p) := works_runQueue _ p s

section
variable {s : State} {p : PortId} (h : s.portEnabled p = true)
include h

theorem works_setPort (x : Port) : s.Works (s.setPort p x) := (State.Work.port p x (.inr h)).works

theorem works_countPort (f : PortCounters → PortCounters) : s.Works (s.countPort p f) := works_setPort h _

theorem works_offerAnswer (m : List Octet) : s.Works (s.offerAnswer p m) := by
  unfold State.offerAnswer
  split
  · exact works_setPort h _
  · exact (works_countPort h _).tail ⟨_, .news _ _⟩

theorem works_cacheMessage (m : Message) (x : CacheState) : s.Works (s.cacheMessage p m x) := by
  unfold State.cacheMessage
  split
  · exact .refl
  · exact works_setPort h _

theorem cacheMessage_portEnabled (m : Message) (x : CacheState) :
    (s.cacheMessage p m x).portEnabled p = true := by
  unfold State.cacheMessage
  split
  · exact h
  · simpa using h

theorem works_enqueue (m : Message) (c : Command) : s.Works (s.enqueue p m c) := by
  unfold State.enqueue
  exact ((works_cacheMessage h m _).trans (works_setPort (cacheMessage_portEnabled h m _) _)).trans (works_runPort _ p)

theorem works_receiveNew (m : Message) : s.Works (s.receiveNew p m) := by
  unfold State.receiveNew
  split
  · exact (works_cacheMessage h m _).trans (works_offerAnswer (cacheMessage_portEnabled h m _) _)
  · split
    · exact works_enqueue h m _
    · exact (works_countPort h _).trans (works_offerAnswer (by simpa [State.countPort] using h) _)

theorem works_forgetEntry (tag : Octet) : s.Works (s.forgetEntry p tag) := by
  unfold State.forgetEntry
  simp only
  split
  · split
    · exact (works_setPort h _).tail ⟨_, .engine _ rfl⟩
    · exact works_setPort h _
  all_goals exact works_setPort h _

/-- What a good message brings about is a run of moves (R135). -/
theorem works_receive (m : Message) : s.Works (s.receive p m) := by
  unfold State.receive
  split
  · exact works_receiveNew h m
  · split
    · exact works_receiveNew h m
    · split
      · split
        · exact (works_countPort h _).trans (works_offerAnswer (by simpa [State.countDuplicate, State.countPort] using h) _)
        · exact works_countPort h _
      · refine (works_forgetEntry h _).trans (works_receiveNew ?_ m)
        rw [(touches_forgetEntry s p m.tag).portEnabled p (by simp)]
        exact h

theorem works_framerOctet (o : Octet) : s.Works (s.framerOctet p o) := by
  have ht : s.Works (s.setFramer p ((s.port p).framer.take o).1) := works_setPort h _
  have he : (s.setFramer p ((s.port p).framer.take o).1).portEnabled p = true := by simpa [State.setFramer] using h
  unfold State.framerOctet
  simp only
  split
  · exact ht
  · exact (ht.trans (works_countPort he _)).tail ⟨_, .news _ _⟩
  · exact (ht.trans (works_countPort he _)).tail ⟨_, .news _ _⟩
  · split
    · exact ht.trans (works_receive he _)
    · exact ht

end

/-! ### What no such move touches -/

/-- No move of a command touches the pins, the straps, the bank roles, the timing or the queue of waiting commands. -/
theorem touches_of_works {s t : State} (h : s.Works t) :
    s.touches [.bank0, .bank1, .engine, .receivers, .queues, .outputs, .sups, .events, .portA, .portB, .lease, .capture,
      .draws] t := by
  induction h with
  | refl => exact touches_refl _ s
  | tail _ hw ih =>
    obtain ⟨bs, hw⟩ := hw
    refine (ih.trans (hw.touches.mono (cs := [.bank0, .bank1, .engine, .receivers, .queues, .outputs, .sups, .events,
      .portA, .portB, .lease, .capture, .draws]) ?_)).mono (by simp)
    cases hw <;> simp

/-- The port on a highway is enabled, and an enabled port is on its own highway (R5, R129). -/
theorem portOn_eq_some_iff (t : Straps) (k : Highway) (p : PortId) :
    portOn t k = some p ↔ strapEnabled t p = true ∧ strapPair t p = k := by
  unfold portOn
  cases p with
  | a => by_cases h : t.ma = k <;> simp [strapEnabled, strapPair, h]
  | b =>
    by_cases h : t.ma = k
    · simp only [h, if_true, strapEnabled, strapPair, portBEnabled, Bool.and_eq_true, bne_iff_ne]
      simp
    · by_cases hb : portBEnabled t = true <;> simp [strapEnabled, strapPair, h, hb]

theorem works_framerFrame (s : State) (k : Highway) (f : Payload) : s.Works (s.framerFrame k f) := by
  unfold State.framerFrame
  split
  · rename_i p hp
    have he : s.portEnabled p = true := ((portOn_eq_some_iff _ _ _).mp hp).1
    refine (foldl_keeps (fun t => s.Works t ∧ t.portEnabled p = true) _ _ s ⟨.refl, he⟩ fun t o _ ht => ?_).1
    have hw := ht.1.trans (works_framerOctet ht.2 o)
    exact ⟨hw, by rw [(touches_of_works hw).portEnabled p (by simp)]; exact he⟩
  · exact .refl

end Sys2Proof.Machine
end

section
/-! SUPPORT. An output frame start, a marker position, a hunt and a frame completion as runs of moves, and with them what
every command can do. -/

namespace Sys2Proof.Machine

/-! ### The moves of an output frame start -/

/-- One move of an output frame start, with the blocks that it can touch: one of a command or an event, or what the start
alone does. -/
inductive State.StartMove (s : State) : List Block → State → Prop
  | work {bs : List Block} {t : State} (h : s.Work bs t) : s.StartMove bs t
  | select : s.StartMove [.queues] s.selectAll
  | frames (f : State) : s.StartMove [.outputs] (s.buildFrames f)
  | timing (t : Timing) : s.StartMove [.timing] (s.setTiming t)
  | roles (b : BankId) : s.StartMove [.activeBank] (s.setActiveBank b)
  | copy (k : Highway) (marks : Marks) : s.StartMove [.bank0, .bank1] (s.copyHighway k marks)
  | advance (pos pos' : Highway) (marks : Marks) (h : s.engine = .syncing pos marks) :
    s.StartMove [.engine] (s.setEngine (.syncing pos' marks))
  | lower (h : Holder) (hh : s.lease.holder = some h) (h1 : 1 < h.remaining.toNat) :
    s.StartMove [.lease] (s.setLease { s.lease with holder := some { h with remaining := h.remaining - 1 } })
  | listTick (timerFirst delivered : Bool) :
    s.StartMove [.events, .portA, .portB, .draws] (s.listTick timerFirst delivered)
  | warm : s.StartMove [.receivers, .events, .portA, .portB, .lease, .capture] s.resetWarm

theorem touches_selectAll (s : State) : s.touches [.queues] s.selectAll := by
  intro c hc
  cases c <;> simp_all [State.selectAll]

theorem touches_resetWarm (s : State) :
    s.touches [.receivers, .events, .portA, .portB, .lease, .capture] s.resetWarm := by
  intro c hc
  cases c <;> simp_all [State.resetWarm]

theorem State.StartMove.touches {s t : State} {bs : List Block} (h : s.StartMove bs t) : s.touches bs t := by
  cases h with
  | work h => exact h.touches
  | select => exact touches_selectAll s
  | frames f => exact touches_setOutputs s _
  | timing t => exact touches_setTiming s t
  | roles b => exact touches_setActiveBank s b
  | copy k marks => exact touches_copyHighway s k marks
  | advance pos pos' marks h => exact touches_setEngine s _
  | lower h hh h1 => exact touches_setLease s _
  | listTick a b => exact touches_listTick s a b
  | warm => exact touches_resetWarm s

/-- A run of moves of an output frame start. -/
abbrev State.Starts : State → State → Prop := Relation.ReflTransGen fun s t => ∃ bs, s.StartMove bs t

theorem starts_of_works {s t : State} (h : s.Works t) : s.Starts t := h.lift id fun _ _ ⟨_, hw⟩ => ⟨_, .work hw⟩

theorem State.StartMove.starts {s t : State} {bs : List Block} (h : s.StartMove bs t) : s.Starts t := .single ⟨bs, h⟩

/-- No move of a start touches the pins, the straps, or the queue of waiting commands. -/
theorem touches_of_starts {s t : State} (h : s.Starts t) :
    s.touches [.bank0, .bank1, .activeBank, .engine, .receivers, .queues, .timing, .outputs, .sups, .events, .portA,
      .portB, .lease, .capture, .draws] t := by
  induction h with
  | refl => exact touches_refl _ s
  | tail _ hw ih =>
    obtain ⟨bs, hw⟩ := hw
    refine (ih.trans (hw.touches.mono (cs := [.bank0, .bank1, .activeBank, .engine, .receivers, .queues, .timing,
      .outputs, .sups, .events, .portA, .portB, .lease, .capture, .draws]) ?_)).mono (by simp)
    cases hw with
    | work h => cases h <;> simp
    | _ => simp

theorem starts_captureOctet (s : State) (o : Octet) : s.Works (s.captureOctet o) := by
  unfold State.captureOctet
  split
  · rename_i u hu
    have := State.Work.capture (s := s) _ (.took s.timing.stamp o)
    rw [hu] at this
    exact this.works
  · rename_i u v hu
    have := State.Work.capture (s := s) _ (.took s.timing.stamp o)
    rw [hu] at this
    exact this.works.tail ⟨_, .news _ _⟩

theorem starts_repeatSlip (s : State) (k : Highway) : s.Works (s.repeatSlip k) :=
  (State.Work.counters k _).works.tail ⟨_, .news _ _⟩

theorem starts_makeSwap (s : State) (r : PendingCommit) : s.Starts (s.makeSwap r) :=
  ((State.StartMove.roles _).starts.tail ⟨_, .work .sync⟩).trans
    (starts_of_works ((works_answerCommit _ _ _).tail ⟨_, .news _ _⟩))

theorem starts_syncStep (s : State) : s.Starts s.syncStep := by
  unfold State.syncStep
  split
  · rename_i pos marks he
    simp only
    split
    · exact ((State.StartMove.copy _ _).starts.tail ⟨_, .work (.engine _ rfl)⟩).tail ⟨_, .work (.news _ _)⟩
    · refine (State.StartMove.copy _ _).starts.tail ⟨_, .advance pos _ marks ?_⟩
      rw [(touches_copyHighway s pos marks).engine (by simp), he]
  all_goals exact .refl

theorem starts_leaseTick (s : State) : s.Starts s.leaseTick := by
  unfold State.leaseTick
  split
  · exact .refl
  · split
    · exact starts_of_works (State.Work.freed.works.tail ⟨_, .news _ _⟩)
    · exact (State.StartMove.lower _ ‹_› (by omega)).starts

/-! ### The parts of an output frame start -/

theorem takeOctets_nil (n : Nat) : (takeOctets n []).2.1 = [] := by
  induction n with
  | zero => rfl
  | succ n ih => simpa [takeOctets, takeOctet] using ih

theorem octetsFrom_nil (s : State) (p : PortId) : (s.octetsFrom p []).2.1 = [] := by
  unfold State.octetsFrom
  split
  · exact takeOctets_nil _
  · rfl

section
variable (r : StartRun)

theorem starts_takeTiming : r.state.Starts r.takeTiming.state := (State.StartMove.timing _).starts

theorem starts_takeSlip (k : Highway) : r.state.Starts (r.takeSlip k).state := by
  unfold StartRun.takeSlip
  split
  · exact starts_of_works (starts_repeatSlip _ _)
  · exact .refl

theorem starts_takeSwap : r.state.Starts r.takeSwap.state := by
  unfold StartRun.takeSwap
  split
  · exact (starts_takeTiming r).trans (starts_makeSwap _ _)
  · exact .refl

theorem starts_takeCopy : r.state.Starts r.takeCopy.state := by
  unfold StartRun.takeCopy
  split
  · exact .refl
  · exact starts_syncStep _

/-- The octets are taken from a port that acts: a port that holds nothing gives fill, and keeps nothing (R141). -/
theorem works_drain (s f : State) (p : PortId) :
    s.Works (s.setPort p { s.port p with transmit := (f.octetsFrom p (s.port p).transmit).2.1 }) := by
  by_cases hp : s.acts p
  · exact (State.Work.port p _ hp).works
  · have h0 : s.port p = initialPort := Classical.not_not.mp fun h => hp (.inl h)
    have hx : ({ s.port p with transmit := (f.octetsFrom p (s.port p).transmit).2.1 } : Port) = s.port p := by
      rw [h0, show initialPort.transmit = [] from rfl, octetsFrom_nil]
      rfl
    rw [hx, setPort_same]

theorem works_placeOctets (s f : State) (k : Highway) (mgmt : List Octet) : s.Works (s.placeOctets f k mgmt) :=
  works_of_acts (acts_setOutput s k _ rfl)

theorem starts_takeOctets (p : PortId) : r.state.Starts (r.takeOctets p).state := by
  unfold StartRun.takeOctets
  split
  · exact .refl
  · refine starts_of_works ?_
    have hd := works_drain r.state r.frame p
    simp only
    split
    · rename_i hc
      have hq : (r.state.port p).commands ≠ [] := by
        intro he
        simp [Port.canStart, he] at hc
      split
      · exact (hd.trans (works_placeOctets _ _ _ _)).trans (works_reservePlace (by simpa using hq))
      · exact hd.trans (works_reservePlace (by simpa using hq))
    · split
      · exact hd.trans (works_placeOctets _ _ _ _)
      · exact hd

theorem starts_handOctet (h : Highway) : r.state.Starts (r.handOctet h).state := by
  unfold StartRun.handOctet
  split
  · exact .refl
  · split
    · split
      · simp only
        split
        · exact (starts_takeOctets r _).trans (starts_of_works (starts_captureOctet _ _))
        · exact starts_of_works (starts_captureOctet _ _)
      · exact .refl
    all_goals exact .refl

theorem starts_takeCapture : r.state.Starts r.takeCapture.state :=
  foldl_keeps (fun q : StartRun => r.state.Starts q.state) _ _ r .refl fun q h _ hq => hq.trans (starts_handOctet q h)

theorem starts_before (c : Command) : r.state.Starts (r.before c).state := by
  unfold StartRun.before
  split
  · split
    · exact starts_takeSwap r
    · exact .refl
  · split
    · exact starts_handOctet r _
    · exact .refl
  · exact starts_takeTiming r
  all_goals exact .refl

theorem starts_setSwap (c : Option PendingCommit) : r.state.Starts (r.setSwap c).state := by
  unfold StartRun.setSwap
  split
  · exact .refl
  · exact starts_of_works (State.Work.outputs _ fun k => by simp [State.output]).works

theorem starts_checkSwap : r.state.Starts r.checkSwap.state := by
  unfold StartRun.checkSwap
  split
  · exact starts_setSwap r _
  · exact .refl

theorem starts_execute (p : PortId) : r.state.Starts (r.execute p).state := by
  unfold StartRun.execute
  split
  · split
    · rename_i q rest hq
      have hb : ((r.before q.command).state.port p).commands ≠ [] := by
        rw [((before_keepsQueues r q.command).commands p)]
        simp [hq]
      have hrun := (starts_before r q.command).trans
        (starts_of_works ((works_executeCommand q hb).trans (works_runPort _ p)))
      simp only
      exact hrun.trans (starts_checkSwap { r.before q.command with
        state := ((r.before q.command).state.executeCommand p q).runPort p
        reserved := _, delivered := _ })
    · exact .refl
  · exact .refl

theorem starts_startCommand (p : PortId) : r.state.Starts (r.startCommand p).state := by
  unfold StartRun.startCommand
  simp only
  split
  · exact ((starts_takeOctets r p).trans (starts_execute _ _)).trans (starts_execute _ p)
  · exact starts_takeOctets r p

/-- A reset is a warm one, or a cold one after which nothing of the start is left (R37, R146). -/
theorem starts_takeReset (resetBFirst : Bool) :
    r.state.Starts (r.takeReset resetBFirst).state ∨
      (r.takeReset resetBFirst).cold = true ∧ (r.takeReset resetBFirst).state = r.state.resetCold := by
  unfold StartRun.takeReset
  split
  · split
    · exact .inl State.StartMove.warm.starts
    · exact .inr ⟨rfl, rfl⟩
    · exact .inl .refl
  · exact .inl .refl

/-- Every part of a start is a run of moves, or ends in a cold reset. -/
theorem starts_task (order : StartOrder) (x : StartTask) :
    r.state.Starts (r.task order x).state ∨
      (r.task order x).cold = true ∧ (r.task order x).state = r.state.resetCold := by
  by_cases hc : r.cold = true
  · rw [task_of_cold hc]
    exact .inl .refl
  · unfold StartRun.task
    rw [if_neg hc]
    cases x with
    | timing => exact .inl (starts_takeTiming r)
    | slip k => exact .inl (starts_takeSlip r k)
    | swap => exact .inl (starts_takeSwap r)
    | copy => exact .inl (starts_takeCopy r)
    | take p => exact .inl (starts_takeOctets r p)
    | start p => exact .inl (starts_startCommand r p)
    | capture => exact .inl (starts_takeCapture r)
    | leaseTick =>
      refine .inl ?_
      simp only
      split
      · exact starts_leaseTick _
      · exact .refl
    | listTick =>
      refine .inl ?_
      simp only
      split
      · exact (State.StartMove.listTick _ _).starts
      · exact .refl
    | reset => exact starts_takeReset r _

end

/-- An output frame start is a run of moves, with a cold reset at its end or without one. -/
theorem starts_outputStart (s : State) (order : StartOrder) :
    s.Starts (s.outputStart order) ∨ ∃ u, s.Starts u ∧ s.outputStart order = u.resetCold := by
  have hb : s.Starts s.beginStart.state :=
    State.StartMove.select.starts.tail ⟨_, .frames _⟩
  obtain ⟨r, hr, he⟩ := outputStart_induct
    (fun r => s.Starts r.state ∨ r.cold = true ∧ ∃ u, s.Starts u ∧ r.state = u.resetCold) s order (.inl hb)
    (fun r x hr => by
      rcases hr with hr | ⟨hc, hu⟩
      · rcases starts_task r order x with ht | ⟨hc, ht⟩
        · exact .inl (hr.trans ht)
        · exact .inr ⟨hc, _, hr, ht⟩
      · rw [task_of_cold hc]
        exact .inr ⟨hc, hu⟩)
  rw [he]
  exact hr.imp_right And.right

/-! ### The moves of an input highway -/

/-- The alignment state that a receiver may take at a marker position, at a completion or in a hunt, while it serves the
blocks behind it as before or more (R42 to R48). -/
structure Receiver.Aligns (r : Receiver) (a : Align) : Prop where
  ok       : r.guardLength ≤ 15 → r.align.ok → a.ok
  disabled : a = .disabled → r.align = .disabled
  hunting  : a.hunting = true → r.align.hunting = true
  serves   : r.align.inService = true → a.inService = true

/-- One move of highway `k`, with the blocks that it can touch: one of a command or an event, or what the highway alone
does. -/
inductive State.InputMove (k : Highway) (s : State) : List Block → State → Prop
  | work {bs : List Block} {t : State} (h : s.Work bs t) : s.InputMove k bs t
  | align (a : Align) (f : Bool) (h : (s.receiver k).Aligns a) : s.InputMove k [.receivers] (s.setAlign k a f)
  | search : s.InputMove k [.receivers, .queues, .sups, .lease, .capture, .events, .portA, .portB, .draws]
      (s.enterSearch k [])
  | ra (b : Bool) : s.InputMove k [.receivers] (s.setReceiver k { s.receiver k with receivedRA := b })
  | append (f : Payload) (h : s.inService k = true) :
    s.InputMove k [.queues] (s.setQueue k ((s.queue k).append f))
  | collect (n : FrameNumber) (f : InFrame) (flywheel : Bool) (h : (s.receiver k).align.handsOver = true) :
    s.InputMove k [.sups] (s.setSup k ((s.sup k).collect n f flywheel))
  | evaluate (h : (s.receiver k).align.handsOver = true) :
    s.InputMove k [.sups] (s.setSup k ((s.sup k).evaluated (s.receiver k).persistence s.timing.stamp).emptied)
  | empty : s.InputMove k [.sups] (s.setSup k (s.sup k).emptied)

theorem State.InputMove.touches {k : Highway} {s t : State} {bs : List Block} (h : s.InputMove k bs t) :
    s.touches bs t := by
  cases h with
  | work h => exact h.touches
  | align a f h => exact touches_setAlign s k a f
  | search => exact touches_enterSearch s k []
  | ra b => exact touches_setReceiver s k _
  | append f h => exact touches_setQueue s k _
  | collect n f fw h => exact touches_setSup s k _
  | evaluate h => exact touches_setSup s k _
  | empty => exact touches_setSup s k _

/-- A run of moves of highway `k`. -/
abbrev State.Inputs (k : Highway) : State → State → Prop := Relation.ReflTransGen fun s t => ∃ bs, s.InputMove k bs t

theorem inputs_of_works {k : Highway} {s t : State} (h : s.Works t) : s.Inputs k t :=
  h.lift id fun _ _ ⟨_, hw⟩ => ⟨_, .work hw⟩

theorem State.InputMove.inputs {k : Highway} {s t : State} {bs : List Block} (h : s.InputMove k bs t) :
    s.Inputs k t := .single ⟨bs, h⟩

/-- No move of an input highway touches the pins, the straps, the bank roles, the timing, or the queue of waiting
commands. -/
theorem touches_of_inputs {k : Highway} {s t : State} (h : s.Inputs k t) :
    s.touches [.bank0, .bank1, .engine, .receivers, .queues, .outputs, .sups, .events, .portA, .portB, .lease, .capture,
      .draws] t := by
  induction h with
  | refl => exact touches_refl _ s
  | tail _ hw ih =>
    obtain ⟨bs, hw⟩ := hw
    refine (ih.trans (hw.touches.mono (cs := [.bank0, .bank1, .engine, .receivers, .queues, .outputs, .sups, .events,
      .portA, .portB, .lease, .capture, .draws]) ?_)).mono (by simp)
    cases hw with
    | work h => cases h <;> simp
    | _ => simp

/-- The same alignment state, at another place in the frame. -/
theorem Receiver.Aligns.same (r : Receiver) : r.Aligns r.align := ⟨fun _ h => h, id, id, id⟩

/-! ### Hunt and marker positions -/

theorem inputs_huntBits (s : State) (k : Highway) (bits : List Bool) : s.Inputs k (s.huntBits k bits) := by
  unfold State.huntBits
  split
  · rename_i history ha
    split
    · refine (State.InputMove.align _ _ ⟨fun _ _ => ?_, (fun h => by cases h), fun _ => ?_, fun h => ?_⟩).inputs
      · exact Nat.zero_le 2
      · rw [ha]; rfl
      · rw [ha] at h; cases h
    · refine (State.InputMove.align _ _ ⟨fun _ _ => ?_, (fun h => by cases h), fun _ => ?_, fun h => ?_⟩).inputs
      · simp only [Align.ok, lastBits, List.length_drop]
        omega
      · rw [ha]; rfl
      · rw [ha] at h; cases h
  all_goals exact .refl

theorem confirmInHistory_le {bits : List Bool} {n : Nat} (h : confirmInHistory bits = some n) : n ≤ 2 := by
  unfold confirmInHistory at h
  simp only at h
  split at h
  · cases h; omega
  · split at h
    · split at h
      · cases h; omega
      · split at h <;> cases h
        omega
    · cases h

/-- A hunt resumed in the history ends in a SEARCH of at most seven bits or in a CONFIRM (R45). -/
theorem huntHistory_hunting (bits : List Bool) : (huntHistory bits).1.hunting = true ∧ (huntHistory bits).1.ok := by
  induction bits with
  | nil => exact ⟨rfl, Nat.zero_le 7⟩
  | cons b rest ih =>
    unfold huntHistory
    split
    · exact ⟨rfl, by simp only [Align.ok, List.length_cons]; omega⟩
    · split
      · split
        · exact ⟨rfl, confirmInHistory_le ‹_›⟩
        · exact ih
      · exact ih

theorem enterSearch_align (s : State) (k : Highway) (history : List Bool) :
    ((s.enterSearch k history).receiver k).align = .search history := by
  unfold State.enterSearch
  rw [(touches_breakCapture _ _).receiver k (by simp), (touches_loseLink _ _).receiver k (by simp),
    (touches_resetFramer _ _).receiver k (by simp), (touches_leaveTraffic _ _).receiver k (by simp)]
  simp [State.setAlign]

theorem inputs_failConfirmation (s : State) (k : Highway) (history : List Bool) :
    s.Inputs k (s.failConfirmation k history) := by
  unfold State.failConfirmation
  obtain ⟨hh, hok⟩ := huntHistory_hunting (history.drop 1)
  have ha := enterSearch_align s k []
  refine State.InputMove.search.inputs.tail
    ⟨_, .align _ _ ⟨fun _ _ => hok, fun hd => ?_, fun _ => ?_, fun hs => ?_⟩⟩
  · rw [hd] at hh; cases hh
  · rw [ha]; rfl
  · rw [ha] at hs; cases hs

theorem inputs_takeRA (s : State) (k : Highway) (ra : Bool) : s.Inputs k (s.takeRA k ra) := by
  unfold State.takeRA
  split
  · exact .refl
  · exact (State.InputMove.ra _).inputs.tail ⟨_, .work (.news _ _)⟩

/-- A receiver that was not DISABLED may enter service (R44, R46, R48). -/
theorem Receiver.Aligns.aligned {r : Receiver} (e : FrameNumber) : r.Aligns (.aligned e) :=
  ⟨fun _ _ => trivial, (fun h => by cases h), (fun h => by cases h), fun _ => rfl⟩

theorem inputs_enterService (s : State) (k : Highway) (e : FrameNumber) (f : Bool) :
    s.Inputs k (s.enterService k e f) :=
  (State.InputMove.align _ _ (.aligned e)).inputs.tail ⟨_, .work (.news _ _)⟩

theorem inputs_markerInConfirm {s : State} {k : Highway} {e : FrameNumber} {count : Nat} {held : List Bool}
    (ha : (s.receiver k).align = .confirm e count held) (history : List Bool) (o : Octet) :
    s.Inputs k (s.markerInConfirm k e count history o) := by
  unfold State.markerInConfirm
  split
  · split
    · refine (State.InputMove.align _ _ ⟨fun _ _ => ?_, (fun h => by cases h), fun _ => ?_, fun h => ?_⟩).inputs
      · simp only [Align.ok]; omega
      · rw [ha]; rfl
      · rw [ha] at h; cases h
    · split
      · exact (inputs_enterService _ _ _ _).trans (inputs_takeRA _ _ _)
      · refine (State.InputMove.align _ _
          ⟨fun hg _ => by simp only [Align.ok]; omega, (fun h => by cases h), (fun h => by cases h), fun h => ?_⟩).inputs
        rw [ha] at h; cases h
  · exact inputs_failConfirmation s k _

theorem inputs_markerPosition (s : State) (k : Highway) (o : Octet) : s.Inputs k (s.markerPosition k o) := by
  have good : ∀ e, s.Inputs k ((s.setAlign k (.aligned e) true).takeRA k (markerRA o)) := fun e =>
    (State.InputMove.align _ _ (.aligned e)).inputs.trans (inputs_takeRA _ _ _)
  have bad : ∀ e n, 1 ≤ n → n ≤ 3 → s.Inputs k ((s.setAlign k (.flywheel e n) true).countMarkerError k) :=
    fun e n h1 h3 =>
      (State.InputMove.align (.flywheel e n) _
        ⟨fun _ _ => And.intro h1 h3, (fun h => by cases h), (fun h => by cases h), fun _ => rfl⟩).inputs.tail
        ⟨_, .work (.counters _ _)⟩
  unfold State.markerPosition
  split
  · exact .refl
  · split
    · exact .refl
    · exact .refl
    · exact inputs_markerInConfirm ‹_› _ _
    · rename_i e n ha
      split
      · refine (State.InputMove.align _ _
          ⟨fun _ h => ?_, (fun h => by cases h), (fun h => by cases h), fun h => ?_⟩).inputs
        · rw [ha] at h; exact h
        · rw [ha] at h; cases h
      · exact State.InputMove.search.inputs
    · split
      · exact good _
      · exact bad _ _ (by omega) (by omega)
    · split
      · exact good _
      · split
        · exact bad _ _ (by omega) (by omega)
        · exact (inputs_of_works (((State.Work.counters _ _).works.tail ⟨_, .counters _ _⟩).tail ⟨_, .news _ _⟩)).tail ⟨_, .search⟩

/-! ### Frame completion -/

theorem inputs_appendFrame {s : State} {k : Highway} (h : s.inService k = true) (f : Payload) :
    s.Inputs k (s.appendFrame k f) := by
  unfold State.appendFrame
  simp only
  split
  · exact (State.InputMove.append f h).inputs
  · exact ((State.InputMove.append f h).inputs.tail ⟨_, .work (.counters _ _)⟩).tail ⟨_, .work (.news _ _)⟩

theorem works_handAcceptance (s : State) (k : Highway) (x : Slot × Code × Bool) : s.Works (s.handAcceptance k x) := by
  have h := (State.Work.capture (s := s) _ (.met s.timing.stamp k x.1 x.2.1)).works
  unfold State.handAcceptance
  simp only
  split
  · exact h.tail ⟨_, .news _ _⟩
  · exact h

theorem inputs_endMultiframe {s : State} {k : Highway} (h : (s.receiver k).align.handsOver = true) :
    s.Inputs k (s.endMultiframe k) := by
  unfold State.endMultiframe
  simp only
  split
  · exact (State.InputMove.evaluate h).inputs.trans (inputs_of_works
      (foldl_keeps (fun t => State.Works _ t) _ _ _ .refl fun _ x _ ht => ht.trans (works_handAcceptance _ k x)))
  · exact State.InputMove.empty.inputs

theorem inputs_superviseFrame {s : State} {k : Highway} (h : (s.receiver k).align.handsOver = true) (n : FrameNumber)
    (f : InFrame) (flywheel : Bool) : s.Inputs k (s.superviseFrame k n f flywheel) := by
  have hc := (State.InputMove.collect n f flywheel h).inputs
  unfold State.superviseFrame
  simp only
  split
  · exact hc.trans (inputs_endMultiframe (by simpa using h))
  · exact hc

theorem inputs_guardTick (s : State) (k : Highway) (n : FrameNumber) : s.Inputs k (s.guardTick k n) := by
  unfold State.guardTick
  split
  · rename_i e count ha
    split
    · split
      · exact inputs_enterService _ _ _ _
      · refine (State.InputMove.align _ _
          ⟨fun _ h => ?_, (fun h => by cases h), (fun h => by cases h), fun h => ?_⟩).inputs
        · rw [ha] at h
          simp only [Align.ok] at h ⊢
          omega
        · rw [ha] at h; cases h
    · exact .refl
  all_goals exact .refl

/-- The receiver still serves the blocks that a frame of alignment state `a` goes to (R51). -/
structure State.servesAs (s : State) (k : Highway) (a : Align) : Prop where
  handsOver : (s.receiver k).align.handsOver = true
  inService : a.inService = true → s.inService k = true

/-- While highway `k` is enabled and carries a port, no move of a command touches its alignment state (R55). -/
theorem State.Work.align {s t : State} {bs : List Block} (h : s.Work bs t) {k : Highway} (hm : s.isMgmtHighway k = true)
    (he : (s.receiver k).align.enabled = true) : (t.receiver k).align = (s.receiver k).align := by
  have ht := h.touches
  cases h with
  | settings j x g h1 h2 h3 => by_cases hj : j = k <;> simp [hj]
  | counters j f => by_cases hj : j = k <;> simp [State.countHighway, hj]
  | enabled j hd =>
    have hj : j ≠ k := fun e => by rw [e, he] at hd; cases hd
    have h1 := (touches_breakCapture (((((s.setAlign j (.search []) false).leaveTraffic j).resetFramer j).loseLink j))
      (Source.onInput j)).receiver k (by simp)
    unfold State.enterSearch
    rw [h1, (touches_loseLink _ _).receiver k (by simp), (touches_resetFramer _ _).receiver k (by simp),
      (touches_leaveTraffic _ _).receiver k (by simp)]
    simp [State.setAlign, hj]
  | disabled j hd =>
    have hj : j ≠ k := fun e => by rw [e, hm] at hd; cases hd
    unfold State.enterDisabled
    rw [(touches_breakCapture _ _).receiver k (by simp)]
    split
    · simp [(touches_leaveTraffic _ _).receiver k (by simp), State.setAlign, hj]
    · simp [(touches_leaveTraffic _ _).receiver k (by simp), State.setAlign, hj]
  | _ => rw [ht.receiver k (by simp)]

/-- No run of moves of commands touches the alignment state of an enabled highway that carries a port (R55). -/
theorem works_align {s t : State} (h : s.Works t) {k : Highway} (hm : s.isMgmtHighway k = true)
    (he : (s.receiver k).align.enabled = true) : (t.receiver k).align = (s.receiver k).align := by
  induction h with
  | refl => rfl
  | tail hw h ih =>
    obtain ⟨bs, h⟩ := h
    rw [← ih] at he ⊢
    exact h.align (by rw [(touches_of_works hw).isMgmtHighway k (by simp)]; exact hm) he

theorem enabled_of_handsOver {a : Align} (h : a.handsOver = true) : a.enabled = true := by
  cases a <;> first | rfl | cases h

/-- What the framer of a highway brings about leaves the highway's alignment state (R55, R132). -/
theorem framerFrame_align {s : State} {k : Highway} (he : (s.receiver k).align.enabled = true) (f : Payload) :
    ((s.framerFrame k f).receiver k).align = (s.receiver k).align := by
  cases hp : portOn s.straps k with
  | none => simp [State.framerFrame, hp]
  | some p => exact works_align (works_framerFrame s k f) (by simp [State.isMgmtHighway, hp]) he

theorem servesAs_of_align {s t : State} {k : Highway} {a : Align} (h : s.servesAs k a)
    (ht : (t.receiver k).align = (s.receiver k).align) : t.servesAs k a :=
  ⟨by rw [ht]; exact h.handsOver, fun hs => by rw [State.inService, ht]; exact h.inService hs⟩

theorem appendFrame_align (s : State) (k : Highway) (f : Payload) :
    ((s.appendFrame k f).receiver k).align = (s.receiver k).align := by
  unfold State.appendFrame
  simp only
  split <;> simp [State.countHighway]

theorem touches_handAcceptance (s : State) (k : Highway) (x : Slot × Code × Bool) :
    s.touches [.capture, .events, .portA, .portB, .draws] (s.handAcceptance k x) := by
  unfold State.handAcceptance
  simp only
  split
  · exact (touches_setCapture s _).trans (touches_raise _ _ _)
  · exact (touches_setCapture s _).mono (by simp)

theorem touches_endMultiframe (s : State) (k : Highway) :
    s.touches [.sups, .capture, .events, .portA, .portB, .draws] (s.endMultiframe k) := by
  unfold State.endMultiframe
  simp only
  split
  · refine ((touches_setSup s k _).trans (foldl_keeps
      (fun t => State.touches [.capture, .events, .portA, .portB, .draws] _ t) _ _ _ (touches_refl _ _)
      fun t x _ ht => ?_)).mono (by simp)
    exact (ht.trans (touches_handAcceptance t k x)).mono (by simp)
  · exact (touches_setSup s k _).mono (by simp)

theorem touches_superviseFrame (s : State) (k : Highway) (n : FrameNumber) (f : InFrame) (flywheel : Bool) :
    s.touches [.sups, .capture, .events, .portA, .portB, .draws] (s.superviseFrame k n f flywheel) := by
  unfold State.superviseFrame
  simp only
  split
  · exact ((touches_setSup s k _).trans (touches_endMultiframe _ k)).mono (by simp)
  · exact (touches_setSup s k _).mono (by simp)

theorem guardTick_servesAs {s : State} {k : Highway} {a : Align} (h : s.servesAs k a) (n : FrameNumber) :
    (s.guardTick k n).servesAs k a := by
  unfold State.guardTick
  split
  · rename_i e count ha
    have hs : a.inService = true → False := fun hs => by
      have := h.inService hs
      rw [State.inService, ha] at this
      cases this
    split
    · split
      · exact ⟨by simp [State.enterService, State.setAlign, Align.handsOver], fun x => (hs x).elim⟩
      · exact ⟨by simp [State.setAlign, Align.handsOver], fun x => (hs x).elim⟩
    · exact h
  all_goals exact h

/-- Each block's share of a completed frame is a run of moves, and the receiver goes on serving (R51). -/
theorem inputs_completionTask {s : State} {k : Highway} {a : Align} (h : s.servesAs k a) (f : InFrame)
    (x : CompletionTask) : s.Inputs k (s.completionTask k a f x) ∧ (s.completionTask k a f x).servesAs k a := by
  unfold State.completionTask
  cases x with
  | queue =>
    simp only
    split
    · exact ⟨inputs_appendFrame (h.inService ‹_›) _, servesAs_of_align h (appendFrame_align s k _)⟩
    · exact ⟨.refl, h⟩
  | supervisor =>
    simp only
    split
    · exact ⟨inputs_superviseFrame h.handsOver _ _ _,
        servesAs_of_align h (by rw [(touches_superviseFrame s k _ f _).receiver k (by simp)])⟩
    · exact ⟨.refl, h⟩
  | framer =>
    simp only
    split
    · exact ⟨inputs_of_works (works_framerFrame s k _),
        servesAs_of_align h (framerFrame_align (enabled_of_handsOver h.handsOver) _)⟩
    · exact ⟨.refl, h⟩
  | capture =>
    have hc : ∀ o, s.Inputs k (s.captureOctet o) ∧ (s.captureOctet o).servesAs k a := fun o =>
      ⟨inputs_of_works (starts_captureOctet s o),
        servesAs_of_align h (by rw [(touches_captureOctet s o).receiver k (by simp)])⟩
    simp only
    split
    · split
      · split
        · exact hc _
        · exact ⟨.refl, h⟩
      all_goals exact ⟨.refl, h⟩
    · exact ⟨.refl, h⟩
  | guard => exact ⟨inputs_guardTick s k _, guardTick_servesAs h _⟩

theorem inputs_handOver {s : State} {k : Highway} {a : Align} (h : s.servesAs k a) (f : InFrame)
    (order : CompletionOrder) : s.Inputs k (s.handOver k a f order) :=
  (foldl_keeps (fun t => s.Inputs k t ∧ t.servesAs k a) _ _ s ⟨.refl, h⟩ fun _ x _ ht =>
    have hx := inputs_completionTask ht.2 f x
    ⟨ht.1.trans hx.1, hx.2⟩).1

theorem servesAs_setAlign_same {s : State} {k : Highway} (h : (s.receiver k).align.handsOver = true) (f : Bool) :
    (s.setAlign k (s.receiver k).align f).servesAs k (s.receiver k).align :=
  ⟨by simpa [State.setAlign] using h, fun hs => by simpa [State.inService, State.setAlign] using hs⟩

/-- In GUARD and in service the frame is handed over (R51). -/
theorem completeFrame_of_handsOver {s : State} {k : Highway} (hf : (s.receiver k).inFrame = true)
    (h : (s.receiver k).align.handsOver = true) (f : InFrame) (order : CompletionOrder) :
    s.completeFrame k f order =
      (s.setAlign k (s.receiver k).align false).handOver k (s.receiver k).align f order := by
  unfold State.completeFrame
  rw [if_pos hf]
  cases ha : (s.receiver k).align <;> first | rfl | (rw [ha] at h; cases h)

theorem inputs_completeFrame (s : State) (k : Highway) (f : InFrame) (order : CompletionOrder) :
    s.Inputs k (s.completeFrame k f order) := by
  by_cases hf : (s.receiver k).inFrame = true
  · by_cases h : (s.receiver k).align.handsOver = true
    · rw [completeFrame_of_handsOver hf h]
      exact (State.InputMove.align _ _ (.same _)).inputs.trans (inputs_handOver (servesAs_setAlign_same h _) f order)
    · unfold State.completeFrame
      rw [if_pos hf]
      split
      · exact .refl
      · exact .refl
      · rename_i e count history ha
        refine (State.InputMove.align _ _ ⟨fun _ h => ?_, (fun h => by cases h), fun _ => ?_, fun h => ?_⟩).inputs
        · rw [ha] at h; exact h
        · rw [ha]; rfl
        · rw [ha] at h; cases h
      · rename_i h1 h2 h3
        cases ha : (s.receiver k).align with
        | disabled => exact absurd ha h1
        | search x => exact absurd ha (h2 x)
        | confirm e n x => exact absurd ha (h3 e n x)
        | _ => rw [ha] at h; exact absurd rfl h
  · rw [State.completeFrame, if_neg hf]

/-! ### What every command can do -/

theorem works_takeCommand (s : State) (p : PortId) (tag : Octet) (c : Command) : s.Works (s.takeCommand p tag c) := by
  unfold State.takeCommand
  split
  · rename_i h
    simp only [State.portReceives, Bool.and_eq_true] at h
    exact works_receive h.1 _
  · exact .refl

/-- What a command leads to: the power-on state, a run of a port's moves, of an output frame start's (with the pins at
other levels, or a cold reset at its end), or of an input highway's. -/
inductive State.Leads (s : State) : State → Prop
  | power (pins : Straps) : s.Leads (s.resetPowerOn pins)
  | works {t : State} (h : s.Works t) : s.Leads t
  | starts {t : State} (h : s.Starts t) : s.Leads t
  | cold {t : State} (h : s.Starts t) : s.Leads t.resetCold
  | pinned {t : State} (pins : Straps) (h : (s.setPins pins).Starts t) : s.Leads t
  | coldPinned {t : State} (pins : Straps) (h : (s.setPins pins).Starts t) : s.Leads t.resetCold
  | inputs {t : State} (k : Highway) (h : s.Inputs k t) : s.Leads t

theorem leads_outputStart (s : State) (order : StartOrder) : s.Leads (s.outputStart order) := by
  rcases starts_outputStart s order with h | ⟨u, h, he⟩
  · exact .starts h
  · rw [he]; exact .cold h

theorem leads_outputStart_pinned (s : State) (pins : Straps) (order : StartOrder) :
    s.Leads ((s.setPins pins).outputStart order) := by
  rcases starts_outputStart (s.setPins pins) order with h | ⟨u, h, he⟩
  · exact .pinned pins h
  · rw [he]; exact .coldPinned pins h

theorem State.Leads.refl (s : State) : s.Leads s := .works .refl

/-- What a command does, whichever names it: a power-on, an output frame start, a happening of an input line, or a message
for a port. -/
inductive State.Does (s : State) : State → Prop
  | power (pins : Straps) : s.Does (s.resetPowerOn pins)
  | start (order : StartOrder) : s.Does (s.outputStart order)
  | pinned (pins : Straps) (order : StartOrder) : s.Does ((s.setPins pins).outputStart order)
  | hunt (k : Highway) (bits : List Bool) : s.Does (s.huntBits k bits)
  | marker (k : Highway) (o : Octet) : s.Does (s.markerPosition k o)
  | complete (k : Highway) (f : InFrame) (order : CompletionOrder) : s.Does (s.completeFrame k f order)
  | receive (p : PortId) (m : Message) (h : s.portEnabled p = true) : s.Does (s.receive p m)
  | stay : s.Does s

theorem does_takeCommand (s : State) (p : PortId) (tag : Octet) (c : Command) : s.Does (s.takeCommand p tag c) := by
  unfold State.takeCommand
  split
  · rename_i h
    simp only [State.portReceives, Bool.and_eq_true] at h
    exact .receive p _ h.1
  · exact .stay

/-- Every command has a next state (log 22). -/
theorem exec_does (c : Instr) (s : State) : ∃ t, exec c s = .next t ∧ s.Does t := by
  have cond : ∀ (b : Bool) (t : State), s.Does t → ∃ u,
      (if b then .next t else .next s : Host.Outcome State Fault Refusal) = .next u ∧ s.Does u := by
    intro b t ht
    cases b
    · exact ⟨_, rfl, .stay⟩
    · exact ⟨_, rfl, ht⟩
  cases c with
  | powerOnReset pins => exact ⟨_, rfl, .power pins⟩
  | coldResetEffect pins order =>
    simp only [exec, execColdResetEffect]
    split
    · exact ⟨_, rfl, .pinned _ _⟩
    · split
      · exact ⟨_, rfl, .pinned _ _⟩
      · exact ⟨_, rfl, .stay⟩
  | warmResetEffect order =>
    simp only [exec, execWarmResetEffect]
    split
    · exact ⟨_, rfl, .start _⟩
    · split
      · exact ⟨_, rfl, .start _⟩
      · exact ⟨_, rfl, .stay⟩
  | outputFrameStart order => exact ⟨_, rfl, .start order⟩
  | swap order | syncCopy order | leaseExpired order | batchLapse order | noticeTimerExpiry order =>
    exact cond _ _ (.start _)
  | syncDone order =>
    simp only [exec, execSyncDone]
    split
    · exact ⟨_, rfl, .start _⟩
    · exact ⟨_, rfl, .stay⟩
  | huntCandidate k bits => exact ⟨_, rfl, .hunt k bits⟩
  | markerPosition k o => exact ⟨_, rfl, .marker k o⟩
  | confirmationComplete k o | alignmentLoss k o => exact cond _ _ (.marker k o)
  | guardEnd k f order => exact cond _ _ (.complete k f order)
  | inputFrameCompletion k f order => exact ⟨_, rfl, .complete k f order⟩
  | goodMessage p body =>
    simp only [exec, execGoodMessage]
    split
    · rename_i h
      simp only [State.portReceives, Bool.and_eq_true] at h
      split
      · exact ⟨_, rfl, .receive p _ h.1.1⟩
      · exact ⟨_, rfl, .stay⟩
    · exact ⟨_, rfl, .stay⟩
  | writeEntries p tag k n c es =>
    simp only [exec, execWriteEntries]
    split
    · exact ⟨_, rfl, does_takeCommand s _ _ _⟩
    · exact ⟨_, rfl, .stay⟩
  | captureDone f completion start =>
    simp only [exec, execCaptureDone]
    split
    · exact cond _ _ (.complete _ f _)
    · exact cond _ _ (.start _)
    · exact ⟨_, rfl, .stay⟩
  | _ => exact ⟨_, rfl, does_takeCommand s _ _ _⟩

/-- Every command leads to its next state by its moves. -/
theorem exec_leads (c : Instr) (s : State) : ∃ t, exec c s = .next t ∧ s.Leads t := by
  obtain ⟨t, he, hd⟩ := exec_does c s
  refine ⟨t, he, ?_⟩
  cases hd with
  | power pins => exact .power pins
  | start order => exact leads_outputStart s order
  | pinned pins order => exact leads_outputStart_pinned s pins order
  | hunt k bits => exact .inputs k (inputs_huntBits s k bits)
  | marker k o => exact .inputs k (inputs_markerPosition s k o)
  | complete k f order => exact .inputs k (inputs_completeFrame s k f order)
  | receive p m h => exact .works (works_receive h m)
  | stay => exact .refl s

/-- What every move keeps, every command keeps. -/
theorem exec_keeps {P : State → Prop} (hpins : ∀ s pins, P s → P (s.setPins pins))
    (hwork : ∀ s t bs, s.Work bs t → P s → P t) (hstart : ∀ s t bs, s.StartMove bs t → P s → P t)
    (hinput : ∀ k s t bs, s.InputMove k bs t → P s → P t) (hpower : ∀ s pins, P s → P (s.resetPowerOn pins))
    (hcold : ∀ s, P s → P s.resetCold) {c : Instr} {s t : State} (h : exec c s = .next t) (hs : P s) : P t := by
  have path : ∀ {R : State → List Block → State → Prop}, (∀ s t bs, R s bs t → P s → P t) → ∀ {s t},
      Relation.ReflTransGen (fun s t => ∃ bs, R s bs t) s t → P s → P t := by
    intro R hR s t hst hs
    induction hst with
    | refl => exact hs
    | tail _ h ih => exact hR _ _ _ h.choose_spec ih
  obtain ⟨u, hu, hl⟩ := exec_leads c s
  obtain rfl : u = t := by
    rw [hu] at h
    injection h
  cases hl with
  | power pins => exact hpower s pins hs
  | works h => exact path hwork h hs
  | starts h => exact path hstart h hs
  | cold hp => exact hcold _ (path hstart hp hs)
  | pinned pins h => exact path hstart h (hpins _ _ hs)
  | coldPinned pins hp => exact hcold _ (path hstart hp (hpins _ _ hs))
  | inputs k h => exact path (hinput k) h hs

/-- What every move keeps, and the taking of a command from the queue keeps, every step keeps. -/
theorem step_keeps {P : State → Prop} (hpins : ∀ s pins, P s → P (s.setPins pins))
    (hqueue : ∀ (s : State) (l : List Instr), P s → P { s with pending := l })
    (hwork : ∀ s t bs, s.Work bs t → P s → P t) (hstart : ∀ s t bs, s.StartMove bs t → P s → P t)
    (hinput : ∀ k s t bs, s.InputMove k bs t → P s → P t) (hpower : ∀ s pins, P s → P (s.resetPowerOn pins))
    (hcold : ∀ s, P s → P s.resetCold) {s t : State} (hs : P s) (h : step s = .next t) : P t := by
  unfold step at h
  split at h
  · injection h with h
    exact h ▸ hs
  · exact exec_keeps hpins hwork hstart hinput hpower hcold h (hqueue _ _ hs)

end Sys2Proof.Machine
end

section
/-! SUPPORT. The invariants of the map store: every move keeps the entries of both banks, and the dirty marks, as R6
confines them. -/

namespace Sys2Proof.Machine

/-! ### Entries (R6, R12) -/

theorem entryOk_of_straps {s t : State} (h : t.straps = s.straps) (k : Highway) (n : Slot) (e : Entry) :
    t.entryOk k n e ↔ s.entryOk k n e := by
  have hp : t.isProtected = s.isProtected := by
    funext j m
    simp only [State.isProtected, h]
  simp only [State.entryOk, hp]

theorem entryOk_protected {s : State} {k : Highway} {n : Slot} {e : Entry} (h : s.isProtected k n = true)
    (he : s.entryOk k n e) : e = protectedEntry := by
  simpa [State.entryOk, h] using he

theorem entryOk_initialEntry {s : State} {k : Highway} {n : Slot} (h : s.isProtected k n = false) :
    s.entryOk k n initialEntry := by
  simp [State.entryOk, h, initialEntry, Entry.isMgmt, Entry.source]

/-- An entry that passes its checks may stand in its slot (R6, R12). -/
theorem entryOk_of_checkEntry {s : State} {k : Highway} {n : Slot} {e : RawEntry}
    (h : s.checkEntry k n.val e = none) : s.isProtected k n = false ∧ s.entryOk k n e.entry := by
  rw [checkEntry_slot] at h
  by_cases hp : s.isProtected k n = true
  · simp [hp] at h
  · by_cases h3 : e.kind = 3
    · simp [hp, h3] at h
    · refine ⟨by simpa using hp, ?_⟩
      simp only [State.entryOk, hp, Bool.false_eq_true, if_false]
      have hk : e.kind = 0 ∨ e.kind = 1 ∨ e.kind = 2 := by bv_omega
      rcases hk with hk | hk | hk
      · simp [RawEntry.entry, hk, Entry.isMgmt, Entry.source]
      · by_cases hs : s.isProtected e.sourceHighway (Fin.ofNat 64 e.o1.toNat) = true
        · by_cases ho : 63 < e.o1.toNat
          · simp [hp, hk, ho] at h
          · have hs' : s.isProtected e.sourceHighway (Fin.ofNat 64 e.o1.toNat) = false := by simpa [hp, hk, ho] using h
            rw [hs] at hs'
            cases hs'
        · refine ⟨by simp [RawEntry.entry, hk, Entry.isMgmt], fun j m hj => ?_⟩
          simp only [RawEntry.entry, hk, Entry.source] at hj
          simp only [show (1 : BitVec 2) ≠ 0 from by decide, if_false, if_true, Option.some.injEq,
            Prod.mk.injEq] at hj
          obtain ⟨rfl, rfl⟩ := hj
          simpa using hs
      · simp [RawEntry.entry, hk, Entry.isMgmt, Entry.source]

/-! ### Moves that leave the map -/

theorem mapOk_of_touches {s t : State} {bs : List Block} (h : s.touches bs t)
    (hb : .straps ∉ bs ∧ .bank0 ∉ bs ∧ .bank1 ∉ bs ∧ .engine ∉ bs) (hs : s.mapOk) : t.mapOk := by
  obtain ⟨h1, h2, h3, h4⟩ := hb
  refine ⟨fun b k n => ?_, fun pos marks he k n hp => ?_⟩
  · rw [entryOk_of_straps (h.straps h1), h.bank b h2 h3]
    exact hs.1 b k n
  · rw [h.engine h4] at he
    rw [h.isProtected k n h1] at hp
    exact hs.2 pos marks he k n hp

/-! ### Moves of the map (R10, R13, R17, R29) -/

/-- A bank is replaced by one whose entries R6 allows. -/
theorem mapOk_setBank {s : State} (hs : s.mapOk) {b : BankId} {x : Bank} (h : ∀ k n, s.entryOk k n x[k][n]) :
    (s.setBank b x).mapOk := by
  refine ⟨fun c k n => ?_, fun pos marks he k n hp => ?_⟩
  · rw [entryOk_of_straps (setBank_straps s b x), bank_setBank]
    split
    · exact h k n
    · exact hs.1 c k n
  · exact hs.2 pos marks (by simpa using he) k n (by simpa using hp)

theorem mapOk_setEngine {s : State} (hs : s.mapOk) {e : Engine}
    (h : ∀ pos marks, e = .syncing pos marks → ∀ (k : Highway) (n : Slot), s.isProtected k n = true →
      marks[k][n] = false) : (s.setEngine e).mapOk := by
  refine ⟨fun b k n => ?_, fun pos marks he k n hp => h pos marks (by simpa using he) k n (by simpa using hp)⟩
  rw [entryOk_of_straps (setEngine_straps s e), setEngine_bank]
  exact hs.1 b k n

theorem mapOk_clearStandbyBank {s : State} (hs : s.mapOk) : s.clearStandbyBank.mapOk := by
  refine mapOk_setBank hs fun k n => ?_
  rw [clearedBank_get]
  split
  · exact hs.1 _ k n
  · exact entryOk_initialEntry (by simpa [State.isProtected] using ‹¬protectedSlot s.straps k n = true›)

theorem mapOk_copyHighway {s : State} (hs : s.mapOk) (k : Highway) (marks : Marks) : (s.copyHighway k marks).mapOk := by
  refine mapOk_setBank hs fun j n => ?_
  rw [bank_set_get]
  split
  · rename_i hj
    subst hj
    rw [copyRow_get]
    split <;> exact hs.1 _ _ n
  · exact hs.1 _ j n

theorem mapOk_writeStandby {s : State} (hs : s.mapOk) {k : Highway} {first : Nat} {es : List RawEntry}
    (h : s.checkEntries k first 0 es = none) : (s.writeStandby k first (es.map RawEntry.entry)).mapOk := by
  rw [checkEntries_eq_none_iff] at h
  have hslot : ∀ (n : Slot) (e : RawEntry), first ≤ n.val → es[n.val - first]? = some e →
      s.checkEntry k n.val e = none := fun n e hn he => by
    have := h _ e he
    rwa [show first + (0 + (n.val - first)) = n.val by omega] at this
  have hb : (s.setBank s.standbyBank ((s.bank s.standbyBank).set k
      (writeRow (s.bank s.standbyBank)[k] first (es.map RawEntry.entry)))).mapOk := by
    refine mapOk_setBank hs fun j n => ?_
    rw [bank_set_get]
    split
    · rename_i hj
      subst hj
      rw [writeRow_get]
      split
      · rename_i hn
        cases he : es[n.val - first]? with
        | none => simpa [he] using hs.1 s.standbyBank j n
        | some e => simpa [he] using (entryOk_of_checkEntry (hslot n e hn he)).2
      · exact hs.1 _ j n
    · exact hs.1 _ j n
  unfold State.writeStandby
  simp only
  split
  · rename_i pos marks he
    refine mapOk_setEngine hb fun pos' marks' he' j n hp => ?_
    obtain ⟨rfl, rfl⟩ : pos = pos' ∧ marks.set k (markRow marks[k] first (es.map RawEntry.entry).length) = marks' := by
      simpa using he'
    have hold := hb.2 pos marks he j n hp
    by_cases hj : j = k
    · subst hj
      simp only [Fin.getElem_fin, Vector.getElem_set_self]
      have := markRow_get marks[j] first (es.map RawEntry.entry).length n
      simp only [Fin.getElem_fin, List.length_map] at this hold ⊢
      rw [this, hold, Bool.or_false, decide_eq_false_iff_not]
      rintro ⟨h1, h2⟩
      have hlt : n.val - first < es.length := by omega
      have hn := (entryOk_of_checkEntry (hslot n _ h1 (List.getElem?_eq_getElem hlt))).1
      simp [hn] at hp
    · have h' : (k : Nat) ≠ j := fun e => hj (Fin.ext e.symm)
      simpa [Vector.getElem_set_ne _ _ h'] using hold
  all_goals exact hb

theorem mapOk_powerOn (pins : Straps) (d : Nat) (l : List Instr) :
    ({ State.powerOn pins with draws := d, pending := l } : State).mapOk := by
  refine ⟨fun b k n => ?_, fun pos marks he => by cases he⟩
  have hb : ({ State.powerOn pins with draws := d, pending := l } : State).bank b = initialBank pins := by
    cases b <;> rfl
  rw [hb, initialBank_get]
  by_cases h : protectedSlot pins k n = true
  · simp [State.entryOk, State.isProtected, State.powerOn, h]
  · rw [if_neg h]
    exact entryOk_initialEntry (by simpa [State.isProtected, State.powerOn] using h)

/-! ### Every move -/

theorem State.Work.mapOk {s t : State} {bs : List Block} (h : s.Work bs t) (hs : s.mapOk) : t.mapOk := by
  have ht := h.touches
  cases h with
  | write k first es h => exact mapOk_writeStandby hs h
  | clear => exact mapOk_clearStandbyBank hs
  | engine e h => exact mapOk_setEngine hs fun pos marks he => by rw [he] at h; cases h
  | sync =>
    refine mapOk_setEngine hs fun pos marks he k n _ => ?_
    obtain ⟨-, rfl⟩ : (0 : Highway) = pos ∧ noMarks = marks := by simpa using he
    simp [noMarks]
  | _ => exact mapOk_of_touches ht (by simp) hs

theorem State.StartMove.mapOk {s t : State} {bs : List Block} (h : s.StartMove bs t) (hs : s.mapOk) : t.mapOk := by
  have ht := h.touches
  cases h with
  | work h => exact h.mapOk hs
  | copy k marks => exact mapOk_copyHighway hs k marks
  | advance pos pos' marks h =>
    refine mapOk_setEngine hs fun p m he k n hp => ?_
    obtain ⟨-, rfl⟩ : pos' = p ∧ marks = m := by simpa using he
    exact hs.2 pos marks h k n hp
  | _ => exact mapOk_of_touches ht (by simp) hs

theorem State.InputMove.mapOk {k : Highway} {s t : State} {bs : List Block} (h : s.InputMove k bs t) (hs : s.mapOk) :
    t.mapOk := by
  have ht := h.touches
  cases h with
  | work h => exact h.mapOk hs
  | _ => exact mapOk_of_touches ht (by simp) hs

/-- Settles O53: every move keeps the entries and the marks as R6 confines them, and so every step does. -/
theorem stepKeepsTheMap : Obligations.StepKeepsTheMap := fun _ _ hs h =>
  step_keeps (fun s pins h => mapOk_of_touches (touches_setPins s pins) (by simp) h) (fun _ _ h => h)
    (fun _ _ _ h => h.mapOk) (fun _ _ _ h => h.mapOk) (fun _ _ _ _ h => h.mapOk)
    (fun _ _ _ => mapOk_powerOn _ _ _)
    (fun s _ => mapOk_of_touches (touches_setOutputs (s.resetPowerOn s.pins) _) (by simp) (mapOk_powerOn _ _ _)) hs h

end Sys2Proof.Machine
end

section
/-! SUPPORT. The invariants of the frame queues and of the capture unit, and the queue of waiting commands, which no
command touches. -/

namespace Sys2Proof.Machine

/-! ### The queue of waiting commands (log 22) -/

theorem State.Leads.pending {s t : State} (h : s.Leads t) : t.pending = s.pending := by
  have hcold : ∀ u : State, u.resetCold.pending = u.pending := fun u => rfl
  cases h with
  | power pins => rfl
  | works h => exact (touches_of_works h).pending (by simp)
  | starts h => exact (touches_of_starts h).pending (by simp)
  | cold h => rw [hcold, (touches_of_starts h).pending (by simp)]
  | pinned pins h => rw [(touches_of_starts h).pending (by simp)]; rfl
  | coldPinned pins h => rw [hcold, (touches_of_starts h).pending (by simp)]; rfl
  | inputs k h => exact (touches_of_inputs h).pending (by simp)

/-- Settles O2: each command leads to a next state by moves, and no move touches the queue. -/
theorem noCommandStops : Obligations.NoCommandStops := fun c s => by
  obtain ⟨t, ht, hl⟩ := exec_leads c s
  exact ⟨t, ht, hl.pending⟩

/-! ### The frame queues (R61) -/

theorem queuesOk_of_touches {s t : State} {bs : List Block} (h : s.touches bs t)
    (hb : .receivers ∉ bs ∧ .queues ∉ bs) (hs : s.queuesOk) : t.queuesOk := by
  intro k
  rw [h.queue k hb.2, h.inService k hb.1]
  exact hs k

/-- A receiver may change in whatever keeps it in service. -/
theorem queuesOk_setReceiver {s : State} (hs : s.queuesOk) {k : Highway} {r : Receiver}
    (h : (s.receiver k).align.inService = true → r.align.inService = true) : (s.setReceiver k r).queuesOk := by
  intro j
  refine ⟨by simpa using (hs j).1, fun hj => ?_⟩
  rw [setReceiver_queue]
  refine (hs j).2 ?_
  by_cases hk : k = j
  · subst hk
    have hr : r.align.inService = false := by simpa [State.inService] using hj
    by_contra hc
    rw [h (by simpa [State.inService] using hc)] at hr
    cases hr
  · simpa [State.inService, hk] using hj

theorem leaveTraffic_queue (s : State) (k j : Highway) :
    (s.leaveTraffic k).queue j = if k = j then emptyQueue else s.queue j := by
  simp [State.leaveTraffic]

/-- At the entry into SEARCH or DISABLED the queue is emptied (R68). -/
theorem queuesOk_leaveTraffic {s : State} (hs : s.queuesOk) (k : Highway) (a : Align) (f : Bool) :
    ((s.setAlign k a f).leaveTraffic k).queuesOk := by
  intro j
  rw [leaveTraffic_queue, (touches_leaveTraffic _ k).inService j (by simp)]
  by_cases hk : k = j
  · simp [hk, emptyQueue]
  · simpa [hk, State.setAlign, State.inService] using hs j

theorem queuesOk_enterSearch {s : State} (hs : s.queuesOk) (k : Highway) (history : List Bool) :
    (s.enterSearch k history).queuesOk :=
  queuesOk_of_touches (((touches_resetFramer _ k).trans (touches_loseLink _ k)).trans (touches_breakCapture _ _))
    (by simp) (queuesOk_leaveTraffic hs k _ _)

theorem queuesOk_enterDisabled {s : State} (hs : s.queuesOk) (k : Highway) : (s.enterDisabled k).queuesOk := by
  have h := queuesOk_leaveTraffic hs k .disabled false
  unfold State.enterDisabled
  simp only
  split
  · exact queuesOk_of_touches ((touches_raise _ _ _).trans (touches_breakCapture _ _)) (by simp) h
  · exact queuesOk_of_touches (touches_breakCapture _ _) (by simp) h

theorem State.Work.queuesOk {s t : State} {bs : List Block} (h : s.Work bs t) (hs : s.queuesOk) : t.queuesOk := by
  have ht := h.touches
  cases h with
  | settings k x g h1 h2 h3 => exact queuesOk_setReceiver hs id
  | counters k f => exact queuesOk_setReceiver hs id
  | enabled k h => exact queuesOk_enterSearch hs k []
  | disabled k h => exact queuesOk_enterDisabled hs k
  | _ => exact queuesOk_of_touches ht (by simp) hs

/-- The selection takes a frame out of a queue, and nothing into a queue out of service (R64). -/
theorem queuesOk_selectAll {s : State} (hs : s.queuesOk) : s.selectAll.queuesOk := by
  intro k
  rw [selectAll_queue, (touches_selectAll s).inService k (by simp)]
  by_cases hk : s.inService k = true
  · cases hq : (s.queue k).frames with
    | nil =>
      rw [selectedQueue_empty hq]
      exact hs k
    | cons f rest =>
      have := (hs k).1
      rw [hq, List.length_cons] at this
      rw [selectedQueue_head hk hq]
      exact ⟨by simp only; omega, fun h => by rw [hk] at h; cases h⟩
  · rw [selectedQueue_out (by simpa using hk)]
    exact hs k

theorem State.StartMove.queuesOk {s t : State} {bs : List Block} (h : s.StartMove bs t) (hs : s.queuesOk) :
    t.queuesOk := by
  have ht := h.touches
  cases h with
  | work h => exact h.queuesOk hs
  | select => exact queuesOk_selectAll hs
  | warm =>
    intro k
    rw [ht.queue k (by simp)]
    refine ⟨(hs k).1, fun h => (hs k).2 ?_⟩
    simpa [State.inService, State.receiver, State.resetWarm] using h
  | _ => exact queuesOk_of_touches ht (by simp) hs

theorem append_length (q : FrameQueue) (f : Payload) (h : q.frames.length ≤ 3) : (q.append f).frames.length ≤ 3 := by
  unfold FrameQueue.append Config.queuedFrames
  simp only [List.length_append, List.length_singleton]
  split
  · omega
  · rw [List.length_drop]; omega

theorem State.InputMove.queuesOk {k : Highway} {s t : State} {bs : List Block} (h : s.InputMove k bs t)
    (hs : s.queuesOk) : t.queuesOk := by
  have ht := h.touches
  cases h with
  | work h => exact h.queuesOk hs
  | align a f h => exact queuesOk_setReceiver hs h.serves
  | search => exact queuesOk_enterSearch hs k []
  | ra b => exact queuesOk_setReceiver hs id
  | append f h =>
    intro j
    rw [queue_setQueue, setQueue_inService]
    split
    · rename_i hk
      subst hk
      exact ⟨append_length _ f (hs k).1, fun hn => by rw [h] at hn; cases hn⟩
    · exact hs j
  | _ => exact queuesOk_of_touches ht (by simp) hs

theorem queuesOk_powerOn (pins : Straps) (d : Nat) (l : List Instr) :
    ({ State.powerOn pins with draws := d, pending := l } : State).queuesOk := by
  intro k
  simp [State.queue, State.powerOn, emptyQueue]

/-- Settles O54: every move keeps the queues, and so every step does. -/
theorem stepKeepsTheQueues : Obligations.StepKeepsTheQueues := fun _ _ hs h =>
  step_keeps (fun s pins h => queuesOk_of_touches (touches_setPins s pins) (by simp) h) (fun _ _ h => h)
    (fun _ _ _ h => h.queuesOk) (fun _ _ _ h => h.queuesOk) (fun _ _ _ _ h => h.queuesOk)
    (fun _ _ _ => queuesOk_powerOn _ _ _)
    (fun s _ => queuesOk_of_touches (touches_setOutputs (s.resetPowerOn s.pins) _) (by simp)
      (queuesOk_powerOn _ _ _)) hs h

/-! ### The capture unit (R161) -/

/-- What R161 asks of the capture unit alone. -/
def Capture.ok (u : Capture) : Prop :=
  u.ready.length + (if u.filling.isEmpty then 0 else 1) ≤ 4 ∧ u.filling.length ≤ 63 ∧
  (∀ x ∈ u.ready, 1 ≤ x.octets.length ∧ x.octets.length ≤ 64) ∧
  match u.phase with
  | .idle => u.filling = [] ∧ u.ready = []
  | .armed job => u.filling = [] ∧ u.ready = [] ∧ 1 ≤ job.length ∧ job.length ≤ 1024
  | .running job captured _ => captured < job.length ∧ job.length ≤ 1024
  | .ended _ job captured _ => u.filling = [] ∧ captured ≤ job.length ∧ job.length ≤ 1024

theorem captureOk_iff (s : State) : s.captureOk ↔ s.capture.ok := Iff.rfl

/-- A pool made READY takes the place of the FILLING one, or of an EMPTY one (R161, R165). -/
theorem makeReady_pools {u : Capture} (h : u.ready.length + (if u.filling.isEmpty then 0 else 1) ≤ 4)
    (hp : u.filling ≠ [] ∨ u.ready.length < 4) : u.ready.length + 1 ≤ 4 := by
  rcases hp with hp | hp
  · simpa [hp] using h
  · omega

theorem pools_append {ready : List Pool} (h : ∀ x ∈ ready, 1 ≤ x.octets.length ∧ x.octets.length ≤ 64) {p : Pool}
    (hp : 1 ≤ p.octets.length ∧ p.octets.length ≤ 64) :
    ∀ x ∈ ready ++ [p], 1 ≤ x.octets.length ∧ x.octets.length ≤ 64 := by
  intro x hx
  rcases List.mem_append.mp hx with hx | hx
  · exact h x hx
  · rw [List.mem_singleton.mp hx]
    exact hp

/-- A pool is there for the next octet unless none is FILLING and none EMPTY (R167). -/
theorem pool_there {u : Capture} (h : ¬(u.filling.isEmpty && u.emptyPools == 0) = true) :
    u.filling ≠ [] ∨ u.ready.length < 4 := by
  by_cases hf : u.filling = []
  · refine .inr ?_
    simp only [hf, Capture.emptyPools, Config.pools, List.isEmpty_nil, if_true, Bool.true_and, beq_iff_eq] at h
    omega
  · exact .inl hf

/-- An octet taken while RUNNING, or at the trigger, keeps the counts (R165 to R167). -/
theorem store_ok {u : Capture} {job : Job} {captured : Nat} {stamp : Stamp}
    (h1 : u.ready.length + (if u.filling.isEmpty then 0 else 1) ≤ 4) (h2 : u.filling.length ≤ 63)
    (h3 : ∀ x ∈ u.ready, 1 ≤ x.octets.length ∧ x.octets.length ≤ 64) (hc : captured < job.length)
    (hl : job.length ≤ 1024) (o : Octet) : (u.store job captured stamp o).1.ok := by
  unfold Capture.store Config.poolOctets
  split
  · rename_i hn
    simp only [Bool.and_eq_true, List.isEmpty_iff] at hn
    exact ⟨h1, h2, h3, hn.1, hc.le, hl⟩
  · rename_i hn
    have hp := makeReady_pools h1 (pool_there hn)
    have hnew : 1 ≤ (u.filling ++ [o]).length ∧ (u.filling ++ [o]).length ≤ 64 := by
      rw [List.length_append, List.length_singleton]
      omega
    split
    · exact ⟨by simpa [Capture.makeReady] using hp, by simp [Capture.makeReady], pools_append h3 hnew, rfl, hc, hl⟩
    · rename_i hj
      split
      · exact ⟨by simpa [Capture.makeReady] using hp, by simp [Capture.makeReady], pools_append h3 hnew, by omega, hl⟩
      · rename_i h64
        exact ⟨by simpa using hp, by rw [List.length_append, List.length_singleton]; omega, h3, by omega, hl⟩

theorem take_ok {u : Capture} (h : u.ok) (now : Stamp) (o : Octet) : (u.take now o).1.ok := by
  unfold Capture.take
  split
  · rename_i job hj
    obtain ⟨h1, h2, h3, h4⟩ := id h
    rw [hj] at h4
    split
    · exact store_ok h1 h2 h3 (by omega) h4.2.2.2 o
    · exact h
  · rename_i job captured stamp hj
    obtain ⟨h1, h2, h3, h4⟩ := id h
    rw [hj] at h4
    exact store_ok h1 h2 h3 h4.1 h4.2 o
  all_goals exact h

theorem Capture.Moves.ok {u v : Capture} (h : u.Moves v) (hu : u.ok) : v.ok := by
  cases h with
  | armed source trigger length h1 h2 => exact ⟨by simp, by simp, by simp, rfl, rfl, h1, h2⟩
  | read pool rest h =>
    obtain ⟨h1, h2, h3, h4⟩ := hu
    rw [h] at h1 h3
    refine ⟨by simp only [List.length_cons] at h1 ⊢; omega, h2, fun x hx => h3 x (List.mem_cons_of_mem _ hx), ?_⟩
    cases hp : u.phase with
    | idle => rw [hp, h] at h4; simp at h4
    | armed job => rw [hp, h] at h4; simp at h4
    | running job n t => rw [hp] at h4; exact h4
    | ended how job n t => rw [hp] at h4; exact h4
  | cancelled => exact ⟨by simp, by simp, by simp, rfl, rfl⟩
  | took now o => exact take_ok hu now o
  | met now k n c =>
    unfold Capture.acceptance
    split
    · rename_i job hj
      split
      · obtain ⟨h1, h2, h3, h4⟩ := hu
        rw [hj] at h4
        exact ⟨h1, h2, h3, by omega, h4.2.2.2⟩
      · exact hu
    all_goals exact hu

theorem break_ok {u : Capture} {job : Job} {captured : Nat} {stamp : Stamp} (h : u.ok)
    (hp : u.phase = .running job captured stamp) : (u.break job captured stamp).ok := by
  obtain ⟨h1, h2, h3, h4⟩ := h
  rw [hp] at h4
  unfold Capture.break
  split
  · rename_i hf
    exact ⟨h1, h2, h3, by simpa using hf, h4.1.le, h4.2⟩
  · rename_i hf
    have hn : u.filling ≠ [] := by simpa using hf
    have hl : 1 ≤ u.filling.length := List.length_pos_of_ne_nil hn
    exact ⟨by simpa [Capture.makeReady] using makeReady_pools h1 (.inl hn), by simp [Capture.makeReady],
      pools_append h3 ⟨hl, by simp only; omega⟩, rfl, h4.1.le, h4.2⟩

theorem captureOk_of_touches {s t : State} {bs : List Block} (h : s.touches bs t) (hb : .capture ∉ bs)
    (hs : s.captureOk) : t.captureOk := by
  rw [captureOk_iff, h.capture hb]
  exact hs

theorem captureOk_breakCapture {s : State} (hs : s.captureOk) (down : Source → Bool) :
    (s.breakCapture down).captureOk := by
  unfold State.breakCapture
  split
  · rename_i job captured stamp hp
    split
    · exact captureOk_of_touches (touches_raise _ _ _) (by simp) (s := s.setCapture _) (break_ok hs hp)
    · exact hs
  all_goals exact hs

theorem captureOk_enterSearch {s : State} (hs : s.captureOk) (k : Highway) (history : List Bool) :
    (s.enterSearch k history).captureOk :=
  captureOk_breakCapture (captureOk_of_touches
    (((touches_setAlign s k _ _).trans (touches_leaveTraffic _ k)).trans
      ((touches_resetFramer _ k).trans (touches_loseLink _ k))) (by simp) hs) _

theorem captureOk_enterDisabled {s : State} (hs : s.captureOk) (k : Highway) : (s.enterDisabled k).captureOk := by
  have h := captureOk_of_touches ((touches_setAlign s k .disabled false).trans (touches_leaveTraffic _ k)) (by simp) hs
  unfold State.enterDisabled
  simp only
  split
  · exact captureOk_breakCapture (captureOk_of_touches (touches_raise _ _ _) (by simp) h) _
  · exact captureOk_breakCapture h _

theorem State.Work.captureOk {s t : State} {bs : List Block} (h : s.Work bs t) (hs : s.captureOk) : t.captureOk := by
  have ht := h.touches
  cases h with
  | enabled k h => exact captureOk_enterSearch hs k []
  | disabled k h => exact captureOk_enterDisabled hs k
  | capture u h => exact h.ok hs
  | broken down => exact captureOk_breakCapture hs down
  | _ => exact captureOk_of_touches ht (by simp) hs

theorem initialCapture_ok : initialCapture.ok := ⟨by decide, by decide, by simp [initialCapture], rfl, rfl⟩

theorem State.StartMove.captureOk {s t : State} {bs : List Block} (h : s.StartMove bs t) (hs : s.captureOk) :
    t.captureOk := by
  have ht := h.touches
  cases h with
  | work h => exact h.captureOk hs
  | warm => exact initialCapture_ok
  | _ => exact captureOk_of_touches ht (by simp) hs

theorem State.InputMove.captureOk {k : Highway} {s t : State} {bs : List Block} (h : s.InputMove k bs t)
    (hs : s.captureOk) : t.captureOk := by
  have ht := h.touches
  cases h with
  | work h => exact h.captureOk hs
  | search => exact captureOk_enterSearch hs k []
  | _ => exact captureOk_of_touches ht (by simp) hs

/-- Settles O58: every move keeps the capture unit, and so every step does. -/
theorem stepKeepsTheCaptureUnit : Obligations.StepKeepsTheCaptureUnit := fun _ _ hs h =>
  step_keeps (fun s pins h => captureOk_of_touches (touches_setPins s pins) (by simp) h) (fun _ _ h => h)
    (fun _ _ _ h => h.captureOk) (fun _ _ _ h => h.captureOk) (fun _ _ _ _ h => h.captureOk)
    (fun _ _ _ => initialCapture_ok) (fun _ _ => initialCapture_ok) hs h

end Sys2Proof.Machine
end

section
/-! SUPPORT. The invariants of the lease: a disabled port holds nothing, and the lease is held by an enabled port whose
highway is neither DISABLED nor hunting. -/

namespace Sys2Proof.Machine

/-! ### A disabled port is left alone (R129) -/

/-- From `s` to `t` no disabled port has changed. -/
def State.sparesDisabled (s t : State) : Prop :=
  t.straps = s.straps ∧ ∀ p, s.portEnabled p = false → t.port p = s.port p

theorem sparesDisabled_refl (s : State) : s.sparesDisabled s := ⟨rfl, fun _ _ => rfl⟩

theorem State.sparesDisabled.trans {s t u : State} (h : s.sparesDisabled t) (h' : t.sparesDisabled u) :
    s.sparesDisabled u :=
  ⟨h'.1.trans h.1, fun p hp => (h'.2 p (by rw [State.portEnabled, h.1]; exact hp)).trans (h.2 p hp)⟩

theorem sparesDisabled_of_touches {s t : State} {bs : List Block} (h : s.touches bs t)
    (hb : .straps ∉ bs ∧ .portA ∉ bs ∧ .portB ∉ bs) : s.sparesDisabled t :=
  ⟨h.straps hb.1, fun p _ => h.port p hb.2.1 hb.2.2⟩

theorem sparesDisabled_setPort {s : State} {p : PortId} (h : s.portEnabled p = true) (x : Port) :
    s.sparesDisabled (s.setPort p x) := by
  refine ⟨setPort_straps s p x, fun q hq => ?_⟩
  rw [port_setPort, if_neg]
  rintro rfl
  rw [h] at hq
  cases hq

theorem sparesDisabled_queueNotice (s : State) (p : PortId) (n : List Octet) :
    s.sparesDisabled (s.queueNotice p n) := by
  unfold State.queueNotice
  split
  · rename_i h
    simp only [Bool.and_eq_true] at h
    exact sparesDisabled_setPort h.1 _
  · exact sparesDisabled_refl s

theorem sparesDisabled_noticeDropped {s : State} {p : PortId} (h : s.portEnabled p = true) :
    s.sparesDisabled (s.noticeDropped p) :=
  (sparesDisabled_setPort h _).trans (sparesDisabled_of_touches (touches_setEvents _ _) (by simp))

theorem enabled_of_dropsNotice {s : State} {p : PortId} (h : s.dropsNotice p = true) : s.portEnabled p = true := by
  simp only [State.dropsNotice, Bool.and_eq_true] at h
  exact h.1

theorem sparesDisabled_offerNotices (s : State) : s.sparesDisabled s.offerNotices := by
  have ht : s.sparesDisabled ((s.queueNotice .a s.events.notice).queueNotice .b s.events.notice) :=
    (sparesDisabled_queueNotice _ _ _).trans (sparesDisabled_queueNotice _ _ _)
  have drop : ∀ {t : State} {p : PortId}, s.sparesDisabled t → s.dropsNotice p = true →
      s.sparesDisabled (t.noticeDropped p) := fun {t p} h hp =>
    h.trans (sparesDisabled_noticeDropped (by rw [State.portEnabled, h.1]; exact enabled_of_dropsNotice hp))
  have hd := ht.trans (sparesDisabled_of_touches (touches_useDraw _) (by simp))
  unfold State.offerNotices
  simp only
  split
  · exact ht
  · exact drop ht ‹_›
  · exact drop ht ‹_›
  · split
    · exact drop (drop hd ‹_›) ‹_›
    · exact drop (drop hd ‹_›) ‹_›

theorem sparesDisabled_settleAttention (s : State) : s.sparesDisabled s.settleAttention := by
  unfold State.settleAttention
  split
  · exact sparesDisabled_refl s
  · split
    · exact (sparesDisabled_of_touches (touches_setEvents s _) (by simp)).trans (sparesDisabled_offerNotices _)
    · exact sparesDisabled_of_touches (touches_setEvents s _) (by simp)

theorem sparesDisabled_setEvents_settle (s : State) (l : EventList) :
    s.sparesDisabled (s.setEvents l).settleAttention :=
  (sparesDisabled_of_touches (touches_setEvents s l) (by simp)).trans (sparesDisabled_settleAttention _)

theorem sparesDisabled_raise (s : State) (key : EventKey) (v : EventValue) : s.sparesDisabled (s.raise key v) :=
  sparesDisabled_setEvents_settle s _

theorem sparesDisabled_holdTick (s : State) : s.sparesDisabled s.holdTick := by
  unfold State.holdTick
  split
  · exact sparesDisabled_refl s
  · split
    · exact sparesDisabled_refl s
    · exact sparesDisabled_setEvents_settle s _

theorem sparesDisabled_timerTick (s : State) (running : Option Octet) (delivered : Bool) :
    s.sparesDisabled (s.timerTick running delivered) := by
  unfold State.timerTick
  split
  · exact sparesDisabled_refl s
  · split
    · exact sparesDisabled_of_touches (touches_setEvents s _) (by simp)
    · split
      · exact sparesDisabled_refl s
      · exact (sparesDisabled_of_touches (touches_setEvents s _) (by simp)).trans (sparesDisabled_offerNotices _)

theorem sparesDisabled_listTick (s : State) (timerFirst delivered : Bool) :
    s.sparesDisabled (s.listTick timerFirst delivered) := by
  unfold State.listTick
  split
  · exact (sparesDisabled_timerTick _ _ _).trans (sparesDisabled_holdTick _)
  · exact (sparesDisabled_holdTick _).trans (sparesDisabled_timerTick _ _ _)

theorem sparesDisabled_breakCapture (s : State) (down : Source → Bool) :
    s.sparesDisabled (s.breakCapture down) := by
  unfold State.breakCapture
  split
  · split
    · exact (sparesDisabled_of_touches (touches_setCapture s _) (by simp)).trans (sparesDisabled_raise _ _ _)
    · exact sparesDisabled_refl s
  all_goals exact sparesDisabled_refl s

theorem sparesDisabled_resetFramer (s : State) (k : Highway) : s.sparesDisabled (s.resetFramer k) := by
  unfold State.resetFramer
  split
  · exact sparesDisabled_setPort ((portOn_eq_some_iff _ _ _).mp ‹_›).1 _
  · exact sparesDisabled_refl s

theorem sparesDisabled_loseLink (s : State) (k : Highway) : s.sparesDisabled (s.loseLink k) := by
  unfold State.loseLink
  split
  · exact sparesDisabled_refl s
  · split
    · exact (sparesDisabled_of_touches (touches_setLease s _) (by simp)).trans (sparesDisabled_raise _ _ _)
    · exact sparesDisabled_refl s

theorem sparesDisabled_leaveTraffic (s : State) (k : Highway) (a : Align) (f : Bool) :
    s.sparesDisabled ((s.setAlign k a f).leaveTraffic k) :=
  sparesDisabled_of_touches ((touches_setAlign s k a f).trans (touches_leaveTraffic _ k)) (by simp)

theorem sparesDisabled_enterSearch (s : State) (k : Highway) (history : List Bool) :
    s.sparesDisabled (s.enterSearch k history) :=
  (((sparesDisabled_leaveTraffic s k _ _).trans (sparesDisabled_resetFramer _ k)).trans
    (sparesDisabled_loseLink _ k)).trans (sparesDisabled_breakCapture _ _)

theorem sparesDisabled_enterDisabled (s : State) (k : Highway) : s.sparesDisabled (s.enterDisabled k) := by
  have h := sparesDisabled_leaveTraffic s k .disabled false
  unfold State.enterDisabled
  simp only
  split
  · exact (h.trans (sparesDisabled_raise _ _ _)).trans (sparesDisabled_breakCapture _ _)
  · exact h.trans (sparesDisabled_breakCapture _ _)

/-! ### A disabled port holds nothing -/

/-- A disabled port keeps its reset value (R129). -/
def State.disabledIdle (s : State) : Prop := ∀ p, s.portEnabled p = false → s.port p = initialPort

theorem disabledIdle_of_spares {s t : State} (h : s.sparesDisabled t) (hs : s.disabledIdle) : t.disabledIdle := by
  intro p hp
  have hp' : s.portEnabled p = false := by rwa [State.portEnabled, ← h.1]
  rw [h.2 p hp', hs p hp']

theorem enabled_of_acts {s : State} {p : PortId} (hs : s.disabledIdle) (h : s.acts p) : s.portEnabled p = true := by
  rcases h with h | h
  · by_contra hn
    exact h (hs p (by simpa using hn))
  · exact h

theorem State.Work.disabledIdle {s t : State} {bs : List Block} (h : s.Work bs t) (hs : s.disabledIdle) :
    t.disabledIdle := by
  have ht := h.touches
  cases h with
  | news key v => exact disabledIdle_of_spares (sparesDisabled_raise s key v) hs
  | fetch p ack => exact disabledIdle_of_spares (sparesDisabled_setEvents_settle s _) hs
  | attention mask interval hold h => exact disabledIdle_of_spares (sparesDisabled_setEvents_settle s _) hs
  | port p x h => exact disabledIdle_of_spares (sparesDisabled_setPort (enabled_of_acts hs h) x) hs
  | clearPort p =>
    intro q hq
    rw [(touches_countPort s p _).portEnabled q (by simp)] at hq
    rw [State.countPort, port_setPort]
    split
    · rename_i hpq
      subst hpq
      rw [hs p hq]
      rfl
    · exact hs q hq
  | enabled k h => exact disabledIdle_of_spares (sparesDisabled_enterSearch s k []) hs
  | disabled k h => exact disabledIdle_of_spares (sparesDisabled_enterDisabled s k) hs
  | broken down => exact disabledIdle_of_spares (sparesDisabled_breakCapture s down) hs
  | _ => exact disabledIdle_of_spares (sparesDisabled_of_touches ht (by simp)) hs

theorem State.StartMove.disabledIdle {s t : State} {bs : List Block} (h : s.StartMove bs t) (hs : s.disabledIdle) :
    t.disabledIdle := by
  have ht := h.touches
  cases h with
  | work h => exact h.disabledIdle hs
  | listTick a b => exact disabledIdle_of_spares (sparesDisabled_listTick s a b) hs
  | warm => exact fun p _ => by cases p <;> rfl
  | _ => exact disabledIdle_of_spares (sparesDisabled_of_touches ht (by simp)) hs

theorem State.InputMove.disabledIdle {k : Highway} {s t : State} {bs : List Block} (h : s.InputMove k bs t)
    (hs : s.disabledIdle) : t.disabledIdle := by
  have ht := h.touches
  cases h with
  | work h => exact h.disabledIdle hs
  | search => exact disabledIdle_of_spares (sparesDisabled_enterSearch s k []) hs
  | _ => exact disabledIdle_of_spares (sparesDisabled_of_touches ht (by simp)) hs

/-! ### Entry into SEARCH and DISABLED, highway by highway (R49, R50) -/

theorem leaveTraffic_setAlign_receiver (s : State) (k j : Highway) (a : Align) (f : Bool) :
    ((s.setAlign k a f).leaveTraffic k).receiver j =
      if k = j then { s.receiver k with align := a, inFrame := f } else s.receiver j := by
  rw [(touches_leaveTraffic _ k).receiver j (by simp)]
  simp [State.setAlign]

theorem enterSearch_receiver (s : State) (k j : Highway) (history : List Bool) :
    (s.enterSearch k history).receiver j =
      if k = j then { s.receiver k with align := .search history, inFrame := false } else s.receiver j := by
  unfold State.enterSearch
  rw [(touches_breakCapture _ _).receiver j (by simp), (touches_loseLink _ _).receiver j (by simp),
    (touches_resetFramer _ _).receiver j (by simp), leaveTraffic_setAlign_receiver]

theorem enterDisabled_receiver (s : State) (k j : Highway) :
    (s.enterDisabled k).receiver j =
      if k = j then { s.receiver k with align := .disabled, inFrame := false } else s.receiver j := by
  unfold State.enterDisabled
  rw [(touches_breakCapture _ _).receiver j (by simp)]
  split <;> simp [leaveTraffic_setAlign_receiver]

theorem loseLink_lease (s : State) (k : Highway) :
    (s.loseLink k).lease =
      if ∃ p, portOn s.straps k = some p ∧ s.holdsLease p = true then s.lease.freed else s.lease := by
  unfold State.loseLink
  cases hp : portOn s.straps k with
  | none => simp
  | some p => by_cases hl : s.holdsLease p = true <;> simp [hl]

/-- Entry into SEARCH frees a lease held by the port of the highway, and no other (R155). -/
theorem enterSearch_lease (s : State) (k : Highway) (history : List Bool) :
    (s.enterSearch k history).lease =
      if ∃ p, portOn s.straps k = some p ∧ s.holdsLease p = true then s.lease.freed else s.lease := by
  have h := ((touches_setAlign s k (.search history) false).trans (touches_leaveTraffic _ k)).trans
    (touches_resetFramer _ k)
  unfold State.enterSearch
  rw [(touches_breakCapture _ _).lease (by simp), loseLink_lease, h.straps (by simp), h.lease (by simp)]
  simp only [h.holdsLease _ (show Block.lease ∉ _ by simp)]

/-! ### The lease (R55, R150) -/

/-- What `State.leaseOk` asks of the receivers and of the lease unit. -/
structure State.holderOk (s : State) : Prop where
  enabled : ∀ p, s.portEnabled p = true → (s.receiver (s.portPair p)).align ≠ .disabled
  holder  : ∀ h, s.lease.holder = some h →
    s.portEnabled h.port = true ∧ (s.receiver (s.portPair h.port)).align.hunting = false ∧ h.remaining ≠ 0
  period  : s.lease.period ≠ 0

theorem leaseOk_iff (s : State) : s.leaseOk ↔ s.disabledIdle ∧ s.holderOk :=
  ⟨fun ⟨h1, h2, h3, h4⟩ => ⟨h1, h2, h3, h4⟩, fun ⟨h1, h2, h3, h4⟩ => ⟨h1, h2, h3, h4⟩⟩

theorem holderOk_of_touches {s t : State} {bs : List Block} (h : s.touches bs t)
    (hb : .straps ∉ bs ∧ .receivers ∉ bs ∧ .lease ∉ bs) (hs : s.holderOk) : t.holderOk where
  enabled p hp := by
    rw [h.portPair p hb.1, h.receiver _ hb.2.1]
    exact hs.enabled p (by rwa [← h.portEnabled p hb.1])
  holder x hx := by
    rw [h.portEnabled _ hb.1, h.portPair _ hb.1, h.receiver _ hb.2.1]
    exact hs.holder x (by rwa [← h.lease hb.2.2])
  period := by
    rw [h.lease hb.2.2]
    exact hs.period

theorem holderOk_setLease {s : State} (hs : s.holderOk) {l : Lease} (hp : l.period ≠ 0)
    (hl : ∀ h, l.holder = some h →
      s.portEnabled h.port = true ∧ (s.receiver (s.portPair h.port)).align.hunting = false ∧ h.remaining ≠ 0) :
    (s.setLease l).holderOk := ⟨fun p h => by simpa using hs.enabled p (by simpa using h), fun h hh => by
      simpa using hl h (by simpa using hh), by simpa using hp⟩

/-- A receiver may change in whatever makes it neither DISABLED nor hunting anew. -/
theorem holderOk_receivers {s t : State} (hst : t.straps = s.straps) (hl : t.lease = s.lease)
    (hd : ∀ k, (t.receiver k).align = .disabled → (s.receiver k).align = .disabled)
    (hh : ∀ k, (t.receiver k).align.hunting = true → (s.receiver k).align.hunting = true) (hs : s.holderOk) :
    t.holderOk where
  enabled p hp h := by
    rw [State.portPair, hst] at h
    exact hs.enabled p (by rwa [State.portEnabled, ← hst]) (hd _ h)
  holder x hx := by
    rw [hl] at hx
    obtain ⟨h1, h2, h3⟩ := hs.holder x hx
    refine ⟨by rwa [State.portEnabled, hst], ?_, h3⟩
    rw [State.portPair, hst]
    by_contra hc
    have := hh _ (by simpa using hc)
    rw [State.portPair] at h2
    rw [h2] at this
    cases this
  period := hl ▸ hs.period

theorem holderOk_setReceiver {s : State} (hs : s.holderOk) {k : Highway} {r : Receiver}
    (hd : r.align = .disabled → (s.receiver k).align = .disabled)
    (hh : r.align.hunting = true → (s.receiver k).align.hunting = true) : (s.setReceiver k r).holderOk := by
  refine holderOk_receivers (s := s) rfl rfl (fun j h => ?_) (fun j h => ?_) hs
  · by_cases hj : k = j
    · subst hj; exact hd (by simpa using h)
    · simpa [hj] using h
  · by_cases hj : k = j
    · subst hj; exact hh (by simpa using h)
    · simpa [hj] using h

/-- Entry into SEARCH takes the lease from the port of the highway (R155). -/
theorem holderOk_enterSearch {s : State} (hs : s.holderOk) (k : Highway) (history : List Bool) :
    (s.enterSearch k history).holderOk := by
  have ht := touches_enterSearch s k history
  refine ⟨fun p hp => ?_, fun x hx => ?_, ?_⟩
  · rw [ht.portEnabled p (by simp)] at hp
    rw [ht.portPair p (by simp), enterSearch_receiver]
    split
    · exact fun h => by cases h
    · exact hs.enabled p hp
  · rw [enterSearch_lease] at hx
    split at hx
    · cases hx
    · rename_i hn
      obtain ⟨h1, h2, h3⟩ := hs.holder x hx
      rw [ht.portEnabled _ (by simp), ht.portPair _ (by simp), enterSearch_receiver]
      refine ⟨h1, ?_, h3⟩
      rw [if_neg]
      · exact h2
      · intro hk
        exact hn ⟨x.port, (portOn_eq_some_iff _ _ _).mpr ⟨h1, hk.symm⟩, by
          simp [State.holdsLease, State.leaseHolder, hx]⟩
  · rw [enterSearch_lease]
    split <;> exact hs.period

/-- A highway that carries no port may be disabled (R55). -/
theorem holderOk_enterDisabled {s : State} (hs : s.holderOk) {k : Highway} (hk : s.isMgmtHighway k = false) :
    (s.enterDisabled k).holderOk := by
  have ht := touches_enterDisabled s k
  have hne : ∀ p, s.portEnabled p = true → k ≠ s.portPair p := by
    rintro p hp rfl
    have hon := (portOn_eq_some_iff s.straps (s.portPair p) p).mpr ⟨hp, rfl⟩
    simp [State.isMgmtHighway, hon] at hk
  refine ⟨fun p hp => ?_, fun x hx => ?_, ?_⟩
  · rw [ht.portEnabled p (by simp)] at hp
    rw [ht.portPair p (by simp), enterDisabled_receiver, if_neg (hne p hp)]
    exact hs.enabled p hp
  · rw [ht.lease (by simp)] at hx
    obtain ⟨h1, h2, h3⟩ := hs.holder x hx
    rw [ht.portEnabled _ (by simp), ht.portPair _ (by simp), enterDisabled_receiver, if_neg (hne _ h1)]
    exact ⟨h1, h2, h3⟩
  · rw [ht.lease (by simp)]
    exact hs.period

theorem holder_of_holdsLease {s : State} {p : PortId} (h : s.holdsLease p = true) :
    ∃ x, s.lease.holder = some x ∧ x.port = p := by
  simpa [State.holdsLease, State.leaseHolder] using h

/-- The port that holds the lease may have it for a new period (R153, R157). -/
theorem holderOk_granted {s : State} (hs : s.holderOk) {p : PortId} (h : s.holdsLease p = true) {period : Octet}
    (h0 : period ≠ 0) : (s.setLease (Lease.granted { s.lease with period := period } p)).holderOk := by
  obtain ⟨x, hx, rfl⟩ := holder_of_holdsLease h
  obtain ⟨h1, h2, -⟩ := hs.holder x hx
  refine holderOk_setLease hs h0 fun y hy => ?_
  obtain rfl : ({ port := x.port, remaining := period } : Holder) = y := by simpa [Lease.granted] using hy
  exact ⟨h1, h2, h0⟩

theorem State.Work.holderOk {s t : State} {bs : List Block} (h : s.Work bs t) (hd : s.disabledIdle)
    (hs : s.holderOk) : t.holderOk := by
  have ht := h.touches
  cases h with
  | renew p h => exact holderOk_granted hs h hs.period
  | claim p h hh =>
    have he := enabled_of_acts hd h
    refine holderOk_setLease hs hs.period fun y hy => ?_
    obtain rfl : ({ port := p, remaining := s.lease.period } : Holder) = y := by simpa [Lease.granted] using hy
    exact ⟨he, hh, hs.period⟩
  | period p period h h0 => exact holderOk_granted hs h h0
  | freed => exact holderOk_setLease hs hs.period fun y hy => by cases hy
  | settings k x g h1 h2 h3 => exact holderOk_setReceiver hs id id
  | counters k f => exact holderOk_setReceiver hs id id
  | enabled k h => exact holderOk_enterSearch hs k []
  | disabled k h => exact holderOk_enterDisabled hs h
  | _ => exact holderOk_of_touches ht (by simp) hs

theorem State.StartMove.holderOk {s t : State} {bs : List Block} (h : s.StartMove bs t) (hd : s.disabledIdle)
    (hs : s.holderOk) : t.holderOk := by
  have ht := h.touches
  cases h with
  | work h => exact h.holderOk hd hs
  | lower x hx h1 =>
    refine holderOk_setLease hs hs.period fun y hy => ?_
    obtain rfl : ({ x with remaining := x.remaining - 1 } : Holder) = y := by simpa using hy
    obtain ⟨h2, h3, -⟩ := hs.holder x hx
    exact ⟨h2, h3, by bv_omega⟩
  | warm =>
    refine ⟨fun p hp => ?_, (fun y hy => by cases hy), hs.period⟩
    simpa [State.receiver, State.resetWarm, State.portPair] using hs.enabled p hp
  | _ => exact holderOk_of_touches ht (by simp) hs

theorem State.InputMove.holderOk {k : Highway} {s t : State} {bs : List Block} (h : s.InputMove k bs t)
    (hd : s.disabledIdle) (hs : s.holderOk) : t.holderOk := by
  have ht := h.touches
  cases h with
  | work h => exact h.holderOk hd hs
  | align a f h => exact holderOk_setReceiver hs h.disabled h.hunting
  | search => exact holderOk_enterSearch hs k []
  | ra b => exact holderOk_setReceiver hs id id
  | _ => exact holderOk_of_touches ht (by simp) hs

theorem leaseOk_powerOn (pins : Straps) (d : Nat) (l : List Instr) :
    ({ State.powerOn pins with draws := d, pending := l } : State).leaseOk := by
  refine ⟨fun p _ => by cases p <;> rfl, fun p _ => ?_, (fun h hh => by cases hh), ?_⟩
  · simp [State.receiver, State.powerOn, initialReceiver]
  · simp [State.powerOn, initialLease]

theorem leaseOk_of_touches {s t : State} {bs : List Block} (h : s.touches bs t)
    (hb : .straps ∉ bs ∧ .receivers ∉ bs ∧ .lease ∉ bs ∧ .portA ∉ bs ∧ .portB ∉ bs) (hs : s.leaseOk) : t.leaseOk := by
  obtain ⟨h1, h2, h3, h4, h5⟩ := hb
  rw [leaseOk_iff] at hs ⊢
  exact ⟨disabledIdle_of_spares (sparesDisabled_of_touches h ⟨h1, h4, h5⟩) hs.1, holderOk_of_touches h ⟨h1, h2, h3⟩ hs.2⟩

/-- Settles O57: every move keeps a disabled port idle and the lease with an enabled port whose link is up. -/
theorem stepKeepsTheLease : Obligations.StepKeepsTheLease := fun _ _ hs h =>
  step_keeps (fun s pins h => leaseOk_of_touches (touches_setPins s pins) (by simp) h) (fun _ _ h => h)
    (fun s t bs h hs => (leaseOk_iff t).mpr
      ⟨h.disabledIdle ((leaseOk_iff s).mp hs).1, h.holderOk ((leaseOk_iff s).mp hs).1 ((leaseOk_iff s).mp hs).2⟩)
    (fun s t bs h hs => (leaseOk_iff t).mpr
      ⟨h.disabledIdle ((leaseOk_iff s).mp hs).1, h.holderOk ((leaseOk_iff s).mp hs).1 ((leaseOk_iff s).mp hs).2⟩)
    (fun k s t bs h hs => (leaseOk_iff t).mpr
      ⟨h.disabledIdle ((leaseOk_iff s).mp hs).1, h.holderOk ((leaseOk_iff s).mp hs).1 ((leaseOk_iff s).mp hs).2⟩)
    (fun _ _ _ => leaseOk_powerOn _ _ _)
    (fun s _ => leaseOk_of_touches (touches_setOutputs (s.resetPowerOn s.pins) _) (by simp)
      (leaseOk_powerOn _ _ _)) hs h

end Sys2Proof.Machine
end

section
/-! SUPPORT. The invariants of the receivers and of the supervisor, and what can change a stable code. -/

namespace Sys2Proof.Machine

/-! ### The receivers and the supervisor (R42, R90, R94, R97) -/

/-- What the ranges ask of one receiver with its part of the supervisor. -/
structure Receiver.inputOk (r : Receiver) (x : Supervisor) : Prop where
  least : 1 ≤ r.persistence
  most  : r.persistence ≤ 7
  guard : r.guardLength ≤ 15
  align : r.align.ok
  slots : ∀ n : Slot, x.slots[n].ok
  idle  : r.align.handsOver = false →
    (∀ n : Slot, x.slots[n].candidate = none) ∧ x.received = emptyRecord ∧ x.spoiled = false

theorem inputsOk_iff (s : State) : s.inputsOk ↔ ∀ k, (s.receiver k).inputOk (s.sup k) :=
  forall_congr' fun _ =>
    ⟨fun ⟨h1, h2, h3, h4, h5, h6⟩ => ⟨h1, h2, h3, h4, h5, h6⟩, fun ⟨h1, h2, h3, h4, h5, h6⟩ => ⟨h1, h2, h3, h4, h5, h6⟩⟩

theorem inputsOk_of_touches {s t : State} {bs : List Block} (h : s.touches bs t) (hb : .receivers ∉ bs ∧ .sups ∉ bs)
    (hs : s.inputsOk) : t.inputsOk := by
  rw [inputsOk_iff] at hs ⊢
  intro k
  rw [h.receiver k hb.1, h.sup k hb.2]
  exact hs k

theorem inputsOk_setReceiver {s : State} (hs : s.inputsOk) {k : Highway} {r : Receiver}
    (h : (s.receiver k).inputOk (s.sup k) → r.inputOk (s.sup k)) : (s.setReceiver k r).inputsOk := by
  rw [inputsOk_iff] at hs ⊢
  intro j
  rw [receiver_setReceiver, setReceiver_sup]
  split
  · rename_i hj
    exact hj ▸ h (hs k)
  · exact hs j

theorem inputsOk_setSup {s : State} (hs : s.inputsOk) {k : Highway} {x : Supervisor}
    (h : (s.receiver k).inputOk (s.sup k) → (s.receiver k).inputOk x) : (s.setSup k x).inputsOk := by
  rw [inputsOk_iff] at hs ⊢
  intro j
  rw [sup_setSup, setSup_receiver]
  split
  · rename_i hj
    exact hj ▸ h (hs k)
  · exact hs j

theorem handsOver_eq (a : Align) : a.handsOver = (a.enabled && !a.hunting) := by cases a <;> rfl

/-- A receiver that serves as before or more has no more to be idle about. -/
theorem Receiver.Aligns.handsOver {r : Receiver} {a : Align} (h : r.Aligns a) (ha : a.handsOver = false) :
    r.align.handsOver = false := by
  rw [handsOver_eq, Bool.and_eq_false_iff] at ha ⊢
  refine ha.imp (fun hd => ?_) fun hh => ?_
  · have : a = .disabled := by cases a <;> first | rfl | cases hd
    rw [h.disabled this]
    rfl
  · rw [h.hunting (by simpa using hh)]
    rfl

theorem frozen_slots (x : Supervisor) (n : Slot) : x.frozen.slots[n] = x.slots[n].frozen := by
  simp [Supervisor.frozen]

/-- A frozen supervisor holds no candidate and no code of a multiframe (R97). -/
theorem inputOk_frozen {r : Receiver} {x : Supervisor} (h : r.inputOk x) {a : Align} (ha : a.ok) (f : Bool) :
    ({ r with align := a, inFrame := f } : Receiver).inputOk x.frozen where
  least := h.least
  most := h.most
  guard := h.guard
  align := ha
  slots n := by
    rw [frozen_slots]
    exact fun d hd => by cases hd
  idle _ := ⟨fun n => by rw [frozen_slots]; rfl, rfl, rfl⟩

theorem inputsOk_leave {s : State} (hs : s.inputsOk) (k : Highway) {a : Align} (ha : a.ok) (f : Bool) :
    ((s.setAlign k a f).leaveTraffic k).inputsOk := by
  rw [inputsOk_iff] at hs ⊢
  intro j
  rw [leaveTraffic_setAlign_receiver, State.leaveTraffic, sup_setSup, setQueue_sup]
  split
  · exact inputOk_frozen (hs k) ha f
  · simpa [State.setAlign] using hs j

theorem inputsOk_enterSearch {s : State} (hs : s.inputsOk) (k : Highway) : (s.enterSearch k []).inputsOk :=
  inputsOk_of_touches (((touches_resetFramer _ k).trans (touches_loseLink _ k)).trans (touches_breakCapture _ _))
    (by simp) (inputsOk_leave hs k (a := .search []) (Nat.zero_le 7) false)

theorem inputsOk_enterDisabled {s : State} (hs : s.inputsOk) (k : Highway) : (s.enterDisabled k).inputsOk := by
  have h := inputsOk_leave hs k (a := .disabled) trivial false
  unfold State.enterDisabled
  simp only
  split
  · exact inputsOk_of_touches ((touches_raise _ _ _).trans (touches_breakCapture _ _)) (by simp) h
  · exact inputsOk_of_touches (touches_breakCapture _ _) (by simp) h

theorem watch_candidate (x : Supervisor) (first count : Nat) (v : Bool) (n : Slot) :
    (x.watch first count v).slots[n].candidate = x.slots[n].candidate := by
  rw [watch_slot]
  split <;> rfl

theorem watch_stable (x : Supervisor) (first count : Nat) (v : Bool) (n : Slot) :
    (x.watch first count v).slots[n].stable = x.slots[n].stable := by
  rw [watch_slot]
  split <;> rfl

/-- The watch flags are no matter of the ranges (R100). -/
theorem inputOk_watch {r : Receiver} {x : Supervisor} (h : r.inputOk x) (first count : Nat) (v : Bool) :
    r.inputOk (x.watch first count v) := by
  refine ⟨h.least, h.most, h.guard, h.align, fun n => ?_, fun ha => ?_⟩
  · rw [SlotState.ok, watch_candidate, watch_stable]
    exact h.slots n
  · obtain ⟨h1, h2, h3⟩ := h.idle ha
    exact ⟨fun n => (watch_candidate x first count v n).trans (h1 n), (watch_received x first count v).trans h2,
      (watch_spoiled x first count v).trans h3⟩

theorem State.Work.inputsOk {s t : State} {bs : List Block} (h : s.Work bs t) (hs : s.inputsOk) : t.inputsOk := by
  have ht := h.touches
  cases h with
  | settings k x g h1 h2 h3 =>
    exact inputsOk_setReceiver hs fun h => { least := h1, most := h2, guard := h3, align := h.align, slots := h.slots, idle := h.idle }
  | counters k f =>
    exact inputsOk_setReceiver hs fun h => { least := h.least, most := h.most, guard := h.guard, align := h.align, slots := h.slots, idle := h.idle }
  | enabled k h => exact inputsOk_enterSearch hs k
  | disabled k h => exact inputsOk_enterDisabled hs k
  | watch k first count v =>
    refine inputsOk_setSup hs fun h => ?_
    exact inputOk_watch h first count v
  | _ => exact inputsOk_of_touches ht (by simp) hs

theorem resetWarm_receiver (s : State) (k : Highway) :
    s.resetWarm.receiver k = { s.receiver k with counters := zeroHighwayCounters } := by
  simp [State.receiver, State.resetWarm]

theorem State.StartMove.inputsOk {s t : State} {bs : List Block} (h : s.StartMove bs t) (hs : s.inputsOk) :
    t.inputsOk := by
  have ht := h.touches
  cases h with
  | work h => exact h.inputsOk hs
  | warm =>
    rw [inputsOk_iff] at hs ⊢
    intro k
    obtain ⟨h1, h2, h3, h4, h5, h6⟩ := hs k
    rw [ht.sup k (by simp), resetWarm_receiver]
    exact ⟨h1, h2, h3, h4, h5, h6⟩
  | _ => exact inputsOk_of_touches ht (by simp) hs

/-! ### The persistence filter (R93) -/

theorem accept_ok (x : SlotState) (c : Code) : (x.accept c).ok := fun d hd => by cases hd

/-- A candidate of count 1 that is not the stable code. -/
theorem candidate_ok {x : SlotState} {c : Code} (hs : x.stable ≠ some c) {n : Nat} (h1 : 1 ≤ n) (h6 : n ≤ 6) :
    ({ x with candidate := some { code := c, count := n } } : SlotState).ok := by
  intro d hd
  obtain rfl : ({ code := c, count := n } : Candidate) = d := by simpa using hd
  exact ⟨hs, h1, h6⟩

/-- The filter keeps the counts below P, which is 7 at most (R93, R94). -/
theorem filter_ok {x : SlotState} (h : x.ok) {p : Nat} (hp : p ≤ 7) (c : Code) : (x.filter p c).1.ok := by
  unfold SlotState.filter
  split
  · exact fun d hd => by cases hd
  · rename_i hs
    split
    · rename_i d hd
      obtain ⟨-, h1, h6⟩ := h d hd
      split
      · split
        · exact accept_ok x c
        · exact candidate_ok hs (by omega) (by omega)
      · split
        · exact accept_ok x c
        · exact candidate_ok hs (by omega) (by omega)
    · split
      · exact accept_ok x c
      · exact candidate_ok hs (by omega) (by omega)

theorem filterReceived_ok {x : SlotState} (h : x.ok) {p : Nat} (hp : p ≤ 7) (c : Option Code) :
    (x.filterReceived p c).1.ok := by
  cases c with
  | none => exact h
  | some c => exact filter_ok h hp c

theorem evaluated_slots (x : Supervisor) (p : Nat) (now : Stamp) (n : Slot) :
    (x.evaluated p now).slots[n] = (x.slots[n].filterReceived p x.received[n]).1 := by
  simp [Supervisor.evaluated]

theorem emptied_slots (x : Supervisor) : x.emptied.slots = x.slots := rfl

theorem collect_slots (x : Supervisor) (n : FrameNumber) (f : InFrame) (b : Bool) :
    (x.collect n f b).slots = x.slots := rfl

theorem State.InputMove.inputsOk {k : Highway} {s t : State} {bs : List Block} (h : s.InputMove k bs t)
    (hs : s.inputsOk) : t.inputsOk := by
  have ht := h.touches
  have busy : ∀ {a : Align}, a.handsOver = true → a.handsOver = false → False := fun h h' => by rw [h] at h'; cases h'
  cases h with
  | work h => exact h.inputsOk hs
  | align a f h =>
    exact inputsOk_setReceiver hs fun hr => ⟨hr.least, hr.most, hr.guard, h.ok hr.guard hr.align, hr.slots, fun ha => hr.idle (h.handsOver ha)⟩
  | search => exact inputsOk_enterSearch hs k
  | ra b => exact inputsOk_setReceiver hs fun h => ⟨h.least, h.most, h.guard, h.align, h.slots, h.idle⟩
  | collect n f fw h =>
    exact inputsOk_setSup hs fun hr => ⟨hr.least, hr.most, hr.guard, hr.align, hr.slots, fun ha => (busy h ha).elim⟩
  | evaluate h =>
    refine inputsOk_setSup hs fun hr => ⟨hr.least, hr.most, hr.guard, hr.align, fun n => ?_, fun ha => (busy h ha).elim⟩
    rw [emptied_slots, evaluated_slots]
    exact filterReceived_ok (hr.slots n) hr.most _
  | empty =>
    exact inputsOk_setSup hs fun hr => ⟨hr.least, hr.most, hr.guard, hr.align, hr.slots, fun ha => ⟨(hr.idle ha).1, rfl, rfl⟩⟩
  | _ => exact inputsOk_of_touches ht (by simp) hs

theorem inputsOk_powerOn (pins : Straps) (d : Nat) (l : List Instr) :
    ({ State.powerOn pins with draws := d, pending := l } : State).inputsOk := by
  rw [inputsOk_iff]
  intro k
  have hr : ({ State.powerOn pins with draws := d, pending := l } : State).receiver k = initialReceiver := by
    simp [State.receiver, State.powerOn]
  have hx : ({ State.powerOn pins with draws := d, pending := l } : State).sup k = initialSupervisor := by
    simp [State.sup, State.powerOn]
  rw [hr, hx]
  have hslot : ∀ n : Slot, initialSupervisor.slots[n] = initialSlot := fun n => by simp [initialSupervisor]
  exact ⟨by decide, by decide, by decide, Nat.zero_le 7, fun n => by simp [hslot, initialSlot, SlotState.ok],
    fun _ => ⟨fun n => by simp [hslot, initialSlot], rfl, rfl⟩⟩

/-- Settles O59: every move keeps the ranges of the receivers and of the supervisor, and so every step does. -/
theorem stepKeepsTheInputs : Obligations.StepKeepsTheInputs := fun _ _ hs h =>
  step_keeps (fun s pins h => inputsOk_of_touches (touches_setPins s pins) (by simp) h) (fun _ _ h => h)
    (fun _ _ _ h => h.inputsOk) (fun _ _ _ h => h.inputsOk) (fun _ _ _ _ h => h.inputsOk)
    (fun _ _ _ => inputsOk_powerOn _ _ _)
    (fun s _ => inputsOk_of_touches (touches_setOutputs (s.resetPowerOn s.pins) _) (by simp)
      (inputsOk_powerOn _ _ _)) hs h

/-! ### Stable codes (R93) -/

/-- From `s` to `t` no stable code has changed. -/
def State.keepsStable (s t : State) : Prop := ∀ k n, (t.slotState k n).stable = (s.slotState k n).stable

theorem keepsStable_refl (s : State) : s.keepsStable s := fun _ _ => rfl

theorem State.keepsStable.trans {s t u : State} (h : s.keepsStable t) (h' : t.keepsStable u) : s.keepsStable u :=
  fun k n => (h' k n).trans (h k n)

theorem keepsStable_of_touches {s t : State} {bs : List Block} (h : s.touches bs t) (hb : .sups ∉ bs) :
    s.keepsStable t := fun k n => by rw [h.slotState k n hb]

theorem slotState_setSup (s : State) (k j : Highway) (x : Supervisor) (n : Slot) :
    (s.setSup k x).slotState j n = if k = j then x.slots[n] else s.slotState j n := by
  rw [State.slotState, sup_setSup]
  split <;> rfl

theorem keepsStable_setSup {s : State} {k : Highway} {x : Supervisor}
    (h : ∀ n : Slot, x.slots[n].stable = (s.slotState k n).stable) : s.keepsStable (s.setSup k x) := by
  intro j n
  rw [slotState_setSup]
  split
  · rename_i hj
    exact hj ▸ h n
  · rfl

theorem keepsStable_leaveTraffic (s : State) (k : Highway) : s.keepsStable (s.leaveTraffic k) :=
  (keepsStable_of_touches (touches_setQueue s k emptyQueue) (by simp)).trans
    (keepsStable_setSup fun n => by rw [frozen_slots]; rfl)

/-- An entry into SEARCH or DISABLED freezes the supervisor and keeps its stable codes (R97). -/
theorem keepsStable_enterSearch (s : State) (k : Highway) (history : List Bool) :
    s.keepsStable (s.enterSearch k history) :=
  ((keepsStable_of_touches (touches_setAlign s k _ _) (by simp)).trans (keepsStable_leaveTraffic _ k)).trans
    (keepsStable_of_touches (((touches_resetFramer _ k).trans (touches_loseLink _ k)).trans
      (touches_breakCapture _ _)) (by simp))

theorem keepsStable_enterDisabled (s : State) (k : Highway) : s.keepsStable (s.enterDisabled k) := by
  have h := (keepsStable_of_touches (touches_setAlign s k .disabled false) (by simp)).trans (keepsStable_leaveTraffic _ k)
  unfold State.enterDisabled
  simp only
  split
  · exact h.trans (keepsStable_of_touches ((touches_raise _ _ _).trans (touches_breakCapture _ _)) (by simp))
  · exact h.trans (keepsStable_of_touches (touches_breakCapture _ _) (by simp))

theorem State.Work.keepsStable {s t : State} {bs : List Block} (h : s.Work bs t) : s.keepsStable t := by
  have ht := h.touches
  cases h with
  | enabled k h => exact keepsStable_enterSearch s k []
  | disabled k h => exact keepsStable_enterDisabled s k
  | watch k first count v =>
    exact keepsStable_setSup fun n => watch_stable _ first count v n
  | _ => exact keepsStable_of_touches ht (by simp)

theorem works_keepsStable {s t : State} (h : s.Works t) : s.keepsStable t := by
  induction h with
  | refl => exact keepsStable_refl s
  | tail _ h ih => exact ih.trans h.choose_spec.keepsStable

theorem State.StartMove.keepsStable {s t : State} {bs : List Block} (h : s.StartMove bs t) : s.keepsStable t := by
  have ht := h.touches
  cases h with
  | work h => exact h.keepsStable
  | _ => exact keepsStable_of_touches ht (by simp)

theorem starts_keepsStable {s t : State} (h : s.Starts t) : s.keepsStable t := by
  induction h with
  | refl => exact keepsStable_refl s
  | tail _ h ih => exact ih.trans h.choose_spec.keepsStable

theorem powerOn_stable (pins : Straps) (d : Nat) (l : List Instr) (k : Highway) (n : Slot) :
    (({ State.powerOn pins with draws := d, pending := l } : State).slotState k n).stable = none := by
  simp [State.slotState, State.sup, State.powerOn, initialSupervisor, initialSlot]

theorem resetCold_stable (s : State) (k : Highway) (n : Slot) : (s.resetCold.slotState k n).stable = none :=
  powerOn_stable s.pins s.draws s.pending k n

/-- An output frame start changes a stable code at its cold reset alone (R104, R146). -/
theorem outputStart_stable (s : State) (order : StartOrder) :
    s.keepsStable (s.outputStart order) ∨
      (∀ k n, ((s.outputStart order).slotState k n).stable = none) ∧
        (s.resetNext .a = some .cold ∨ s.resetNext .b = some .cold) := by
  obtain ⟨r, hr, he⟩ := outputStart_induct
    (fun r => (∃ d, r.serves s d) ∧ s.Starts r.state ∨
      r.endsCold s ∧ (s.Starts r.state ∨ ∃ u : State, r.state = u.resetCold)) s order
    (.inl ⟨⟨_, beginStart_serves s⟩, State.StartMove.select.starts.tail ⟨_, .frames _⟩⟩)
    (fun r x hr => by
      rcases hr with ⟨⟨d, hd⟩, hp⟩ | ⟨hc, hu⟩
      · rcases task_serves hd order x with hs | hs
        · rcases starts_task r order x with ht | ⟨hc, -⟩
          · exact .inl ⟨⟨_, hs⟩, hp.trans ht⟩
          · rw [hs.warm] at hc
            cases hc
        · refine .inr ⟨hs, ?_⟩
          rcases starts_task r order x with ht | ⟨-, ht⟩
          · exact .inl (hp.trans ht)
          · exact .inr ⟨_, ht⟩
      · rw [task_of_cold hc.cold]
        exact .inr ⟨hc, hu⟩)
  rw [he]
  rcases hr with ⟨-, hp⟩ | ⟨hc, hp | ⟨u, hu⟩⟩
  · exact .inl (starts_keepsStable hp)
  · exact .inl (starts_keepsStable hp)
  · refine .inr ⟨fun k n => ?_, hc.due⟩
    rw [hu]
    exact resetCold_stable u k n

/-! ### Hunts and marker positions keep the stable codes -/

theorem keepsStable_setAlign (s : State) (k : Highway) (a : Align) (f : Bool) : s.keepsStable (s.setAlign k a f) :=
  keepsStable_of_touches (touches_setAlign s k a f) (by simp)

theorem keepsStable_takeRA (s : State) (k : Highway) (ra : Bool) : s.keepsStable (s.takeRA k ra) := by
  unfold State.takeRA
  split
  · exact keepsStable_refl s
  · exact keepsStable_of_touches ((touches_setReceiver s k _).trans (touches_raise _ _ _)) (by simp)

theorem keepsStable_enterService (s : State) (k : Highway) (e : FrameNumber) (f : Bool) :
    s.keepsStable (s.enterService k e f) :=
  keepsStable_of_touches ((touches_setAlign s k _ _).trans (touches_raise _ _ _)) (by simp)

theorem keepsStable_markerInConfirm (s : State) (k : Highway) (e : FrameNumber) (count : Nat) (history : List Bool)
    (o : Octet) : s.keepsStable (s.markerInConfirm k e count history o) := by
  unfold State.markerInConfirm
  split
  · split
    · exact keepsStable_setAlign s k _ _
    · split
      · exact (keepsStable_enterService s k _ _).trans (keepsStable_takeRA _ k _)
      · exact keepsStable_setAlign s k _ _
  · exact (keepsStable_enterSearch s k []).trans (keepsStable_setAlign _ k _ _)

theorem keepsStable_markerPosition (s : State) (k : Highway) (o : Octet) : s.keepsStable (s.markerPosition k o) := by
  have good : ∀ e, s.keepsStable ((s.setAlign k (.aligned e) true).takeRA k (markerRA o)) := fun e =>
    (keepsStable_setAlign s k _ _).trans (keepsStable_takeRA _ k _)
  have bad : ∀ e n, s.keepsStable ((s.setAlign k (.flywheel e n) true).countMarkerError k) := fun e n =>
    keepsStable_of_touches ((touches_setAlign s k _ _).trans (touches_countHighway _ k _)) (by simp)
  unfold State.markerPosition
  split
  · exact keepsStable_refl s
  · split
    · exact keepsStable_refl s
    · exact keepsStable_refl s
    · exact keepsStable_markerInConfirm s k _ _ _ _
    · split
      · exact keepsStable_setAlign s k _ _
      · exact keepsStable_enterSearch s k []
    · split
      · exact good _
      · exact bad _ _
    · split
      · exact good _
      · split
        · exact bad _ _
        · exact (keepsStable_of_touches (((touches_countHighway s k _).trans (touches_countHighway _ k _)).trans
            (touches_raise _ _ _)) (by simp)).trans (keepsStable_enterSearch _ k [])

theorem keepsStable_huntBits (s : State) (k : Highway) (bits : List Bool) : s.keepsStable (s.huntBits k bits) := by
  unfold State.huntBits
  split
  · split <;> exact keepsStable_setAlign s k _ _
  all_goals exact keepsStable_refl s

end Sys2Proof.Machine
end

section
/-! SUPPORT. The supervisor's share of a completed frame, and which happening can change a stable code. -/

namespace Sys2Proof.Machine

/-! ### The supervisor after an operation (R91, R92, R97) -/

theorem leaveTraffic_sup (s : State) (k j : Highway) :
    (s.leaveTraffic k).sup j = if k = j then (s.sup k).frozen else s.sup j := by
  rw [State.leaveTraffic, sup_setSup, setQueue_sup]

theorem enterSearch_sup (s : State) (k j : Highway) (history : List Bool) :
    (s.enterSearch k history).sup j = if k = j then (s.sup k).frozen else s.sup j := by
  unfold State.enterSearch
  rw [(touches_breakCapture _ _).sup j (by simp), (touches_loseLink _ _).sup j (by simp),
    (touches_resetFramer _ _).sup j (by simp), leaveTraffic_sup]
  rfl

theorem enterDisabled_sup (s : State) (k j : Highway) :
    (s.enterDisabled k).sup j = if k = j then (s.sup k).frozen else s.sup j := by
  unfold State.enterDisabled
  rw [(touches_breakCapture _ _).sup j (by simp)]
  split
  · rw [raise_sup, leaveTraffic_sup]
    rfl
  · rw [leaveTraffic_sup]
    rfl

/-- What the end of a multiframe makes of the supervisor of its highway (R92). -/
def Supervisor.ended (x : Supervisor) (p : Nat) (now : Stamp) : Supervisor :=
  if x.complete then (x.evaluated p now).emptied else x.emptied

theorem endMultiframe_sup (s : State) (k j : Highway) :
    (s.endMultiframe k).sup j =
      if k = j then (s.sup k).ended (s.receiver k).persistence s.timing.stamp else s.sup j := by
  unfold State.endMultiframe Supervisor.ended
  simp only
  split
  · rw [foldl_keeps
      (fun t => t.sup j = (s.setSup k ((s.sup k).evaluated (s.receiver k).persistence s.timing.stamp).emptied).sup j)
      _ _ _ rfl fun t x _ ht => ((touches_handAcceptance t k x).sup j (by simp)).trans ht, sup_setSup]
  · rw [sup_setSup]

/-- What a frame handed to the supervisor makes of its highway (R91, R92). -/
def Supervisor.handed (x : Supervisor) (n : FrameNumber) (f : InFrame) (flywheel : Bool) (p : Nat) (now : Stamp) :
    Supervisor :=
  if n = 15 then (x.collect n f flywheel).ended p now else x.collect n f flywheel

theorem superviseFrame_sup (s : State) (k j : Highway) (n : FrameNumber) (f : InFrame) (flywheel : Bool) :
    (s.superviseFrame k n f flywheel).sup j =
      if k = j then (s.sup k).handed n f flywheel (s.receiver k).persistence s.timing.stamp else s.sup j := by
  unfold State.superviseFrame Supervisor.handed
  simp only
  split
  · rw [endMultiframe_sup, sup_setSup, sup_setSup, if_pos rfl]
    split <;> rfl
  · rw [sup_setSup]

/-- A slot's stable code stays, or it is the received code (R93). -/
theorem filter_stable (x : SlotState) (p : Nat) (c : Code) :
    (x.filter p c).1.stable = x.stable ∨ (x.filter p c).1.stable = some c := by
  unfold SlotState.filter
  split
  · exact .inl rfl
  · split
    · split
      · split
        · exact .inr rfl
        · exact .inl rfl
      · split
        · exact .inr rfl
        · exact .inl rfl
    · split
      · exact .inr rfl
      · exact .inl rfl

/-- A stable code changes at an evaluated multiframe alone, to the received code (R92, R93). -/
theorem handed_stable {x : Supervisor} {n : FrameNumber} {f : InFrame} {flywheel : Bool} {p : Nat} {now : Stamp}
    {m : Slot} (h : ((x.handed n f flywheel p now).slots[m]).stable ≠ x.slots[m].stable) :
    n = 15 ∧ (x.collect n f flywheel).complete = true ∧
      ∃ c, (x.collect n f flywheel).received[m] = some c ∧
        (x.handed n f flywheel p now).slots[m].stable = some c := by
  unfold Supervisor.handed Supervisor.ended at h ⊢
  by_cases hn : n = 15
  · by_cases hc : (x.collect n f flywheel).complete = true
    · rw [if_pos hn, if_pos hc, emptied_slots, evaluated_slots, collect_slots] at h ⊢
      refine ⟨hn, hc, ?_⟩
      cases hr : (x.collect n f flywheel).received[m] with
      | none =>
        rw [hr] at h
        exact absurd rfl h
      | some c =>
        rw [hr] at h
        exact ⟨c, rfl, (filter_stable x.slots[m] p c).resolve_left h⟩
    · rw [if_pos hn, if_neg hc, emptied_slots, collect_slots] at h
      exact absurd rfl h
  · rw [if_neg hn, collect_slots] at h
    exact absurd rfl h

/-! ### The record of a highway until its frame is supervised -/

/-- From `s` to `t` the multiframe record of highway `k` has not changed. -/
def State.keepsRecord (s t : State) (k : Highway) : Prop :=
  (t.sup k).received = (s.sup k).received ∧ (t.sup k).spoiled = (s.sup k).spoiled

theorem keepsRecord_refl (s : State) (k : Highway) : s.keepsRecord s k := ⟨rfl, rfl⟩

theorem State.keepsRecord.trans {s t u : State} {k : Highway} (h : s.keepsRecord t k) (h' : t.keepsRecord u k) :
    s.keepsRecord u k := ⟨h'.1.trans h.1, h'.2.trans h.2⟩

theorem keepsRecord_of_touches {s t : State} {bs : List Block} (h : s.touches bs t) (hb : .sups ∉ bs) (k : Highway) :
    s.keepsRecord t k := by
  rw [State.keepsRecord, h.sup k hb]
  exact ⟨rfl, rfl⟩

/-- While highway `k` is enabled and carries a port, no move of a command touches its record (R55, R97). -/
theorem State.Work.keepsRecord {s t : State} {bs : List Block} (h : s.Work bs t) {k : Highway}
    (hm : s.isMgmtHighway k = true) (he : (s.receiver k).align.enabled = true) : s.keepsRecord t k := by
  have ht := h.touches
  cases h with
  | enabled j hd =>
    have hj : j ≠ k := fun e => by rw [e, he] at hd; cases hd
    rw [State.keepsRecord, enterSearch_sup, if_neg hj]
    exact ⟨rfl, rfl⟩
  | disabled j hd =>
    have hj : j ≠ k := fun e => by rw [e, hm] at hd; cases hd
    rw [State.keepsRecord, enterDisabled_sup, if_neg hj]
    exact ⟨rfl, rfl⟩
  | watch j first count v =>
    rw [State.keepsRecord, sup_setSup]
    split
    · rename_i hj
      rw [watch_received, watch_spoiled, hj]
      exact ⟨rfl, rfl⟩
    · exact ⟨rfl, rfl⟩
  | _ => exact keepsRecord_of_touches ht (by simp) k

theorem works_keepsRecord {s t : State} (h : s.Works t) {k : Highway} (hm : s.isMgmtHighway k = true)
    (he : (s.receiver k).align.enabled = true) : s.keepsRecord t k := by
  induction h with
  | refl => exact keepsRecord_refl s k
  | tail hw h ih =>
    obtain ⟨bs, h⟩ := h
    refine ih.trans (h.keepsRecord ?_ ?_)
    · rw [(touches_of_works hw).isMgmtHighway k (by simp)]; exact hm
    · rw [works_align hw hm he]; exact he

theorem framerFrame_keepsRecord {s : State} {k : Highway} (he : (s.receiver k).align.enabled = true) (f : Payload) :
    s.keepsRecord (s.framerFrame k f) k := by
  cases hp : portOn s.straps k with
  | none => simp [State.framerFrame, hp, State.keepsRecord]
  | some p => exact works_keepsRecord (works_framerFrame s k f) (by simp [State.isMgmtHighway, hp]) he

/-! ### The shares of a completed frame (R51) -/

/-- In the order of a hand-over each block has its one place. -/
theorem completionOrder_split (order : CompletionOrder) (x : CompletionTask) :
    ∃ before after, firstMentions (order ++ completionTasks) = before ++ x :: after ∧ x ∉ before ∧ x ∉ after := by
  obtain ⟨before, after, h⟩ := List.append_of_mem (mem_completionOrder order x)
  have hn := firstMentions_nodup (order ++ completionTasks)
  rw [h, List.nodup_append] at hn
  obtain ⟨-, h2, h3⟩ := hn
  exact ⟨before, after, h, fun hx => h3 x hx x (by simp) rfl, (List.nodup_cons.mp h2).1⟩

theorem touches_appendFrame (s : State) (k : Highway) (f : Payload) :
    s.touches [.queues, .receivers, .events, .portA, .portB, .draws] (s.appendFrame k f) := by
  unfold State.appendFrame
  simp only
  split
  · exact (touches_setQueue s k _).mono (by simp)
  · exact ((touches_setQueue s k _).trans (touches_countHighway _ k _)).trans (touches_raise _ _ _)

theorem touches_guardTick (s : State) (k : Highway) (n : FrameNumber) :
    s.touches [.receivers, .events, .portA, .portB, .draws] (s.guardTick k n) := by
  unfold State.guardTick
  split
  · split
    · split
      · exact (touches_setAlign s k _ _).trans (touches_raise _ _ _)
      · exact (touches_setAlign s k _ _).mono (by simp)
    · exact touches_refl _ s
  all_goals exact touches_refl _ s

/-- The capture unit's share, if its source is on the highway. -/
theorem touches_captureTask (s : State) (k : Highway) (a : Align) (f : InFrame) :
    s.touches [.capture, .events, .portA, .portB, .draws] (s.completionTask k a f .capture) := by
  unfold State.completionTask
  simp only
  split
  · split
    · split
      · exact touches_captureOctet s _
      · exact touches_refl _ s
    all_goals exact touches_refl _ s
  · exact touches_refl _ s

/-- Only the supervisor's own share changes a stable code or the record of its highway (R91, R93). -/
theorem completionTask_keeps {s : State} {k : Highway} {a : Align} (h : s.servesAs k a) (f : InFrame)
    {x : CompletionTask} (hx : x ≠ .supervisor) :
    s.keepsStable (s.completionTask k a f x) ∧ s.keepsRecord (s.completionTask k a f x) k := by
  have other : ∀ {t : State} {bs : List Block}, s.touches bs t → .sups ∉ bs → s.keepsStable t ∧ s.keepsRecord t k :=
    fun ht hb => ⟨keepsStable_of_touches ht hb, keepsRecord_of_touches ht hb k⟩
  cases x with
  | supervisor => exact absurd rfl hx
  | queue =>
    unfold State.completionTask
    simp only
    split
    · exact other (touches_appendFrame s k _) (by simp)
    · exact other (touches_refl [] s) (by simp)
  | framer =>
    unfold State.completionTask
    simp only
    split
    · exact ⟨works_keepsStable (works_framerFrame s k _), framerFrame_keepsRecord (enabled_of_handsOver h.handsOver) _⟩
    · exact other (touches_refl [] s) (by simp)
  | capture => exact other (touches_captureTask s k a f) (by simp)
  | guard => exact other (touches_guardTick s k _) (by simp)

theorem completionTasks_keep {s : State} {k : Highway} {a : Align} (h : s.servesAs k a) (f : InFrame)
    {l : List CompletionTask} (hl : .supervisor ∉ l) :
    s.keepsStable (l.foldl (fun t x => t.completionTask k a f x) s) ∧
      s.keepsRecord (l.foldl (fun t x => t.completionTask k a f x) s) k ∧
      (l.foldl (fun t x => t.completionTask k a f x) s).servesAs k a :=
  foldl_keeps (fun t => s.keepsStable t ∧ s.keepsRecord t k ∧ t.servesAs k a) _ l s
    ⟨keepsStable_refl s, keepsRecord_refl s k, h⟩ fun t x hx ⟨h1, h2, h3⟩ => by
      obtain ⟨h4, h5⟩ := completionTask_keeps h3 f fun e => hl (e ▸ hx)
      exact ⟨h1.trans h4, h2.trans h5, (inputs_completionTask h3 f x).2⟩

theorem collect_received (x : Supervisor) (n : FrameNumber) (f : InFrame) (b b' : Bool) :
    (x.collect n f b).received = (x.collect n f b').received := rfl

theorem collect_received_congr {x y : Supervisor} (h : x.received = y.received) (n : FrameNumber) (f : InFrame)
    (b b' : Bool) : (x.collect n f b).received = (y.collect n f b').received := by
  simp only [Supervisor.collect, h]

/-- The multiframe of highway `k` that the frame ends is evaluated, with this code received for the slot (R92). -/
def State.evaluates (s : State) (k : Highway) (f : InFrame) (n : Slot) (code : Code) : Prop :=
  (s.receiver k).align.expected = some 0 ∧ (s.sup k).spoiled = false ∧
  (∀ m : Slot, ((s.sup k).collect 15 f false).received[m] ≠ none) ∧
  ((s.sup k).collect 15 f false).received[n] = some code

theorem expected_of_frameNumber {a : Align} (ha : a.handsOver = true) (hn : a.frameNumber = 15) :
    a.expected = some 0 := by
  have key : ∀ e : FrameNumber, e - 1 = 15 → e = 0 := fun e h => by bv_omega
  cases a with
  | guard e n => exact congrArg some (key e hn)
  | aligned e => exact congrArg some (key e hn)
  | flywheel e n => exact congrArg some (key e hn)
  | _ => cases ha

theorem complete_iff (x : Supervisor) : x.complete = true ↔ x.spoiled = false ∧ ∀ m : Slot, x.received[m] ≠ none := by
  simp only [Supervisor.complete, Bool.and_eq_true, Bool.not_eq_true', List.all_eq_true, Vector.mem_toList_iff,
    ← Option.ne_none_iff_isSome]
  refine and_congr_right fun _ => ⟨fun h m => h _ (Vector.getElem_mem m.isLt), fun h o ho => ?_⟩
  obtain ⟨i, hi, rfl⟩ := Vector.mem_iff_getElem.mp ho
  exact h ⟨i, hi⟩

theorem superviseFrame_slotState (s : State) (k j : Highway) (e : FrameNumber) (f : InFrame) (flywheel : Bool)
    (n : Slot) :
    (s.superviseFrame k e f flywheel).slotState j n =
      if k = j then ((s.sup k).handed e f flywheel (s.receiver k).persistence s.timing.stamp).slots[n]
      else s.slotState j n := by
  rw [State.slotState, superviseFrame_sup]
  split <;> rfl

theorem superviseFrame_stable {s : State} {k : Highway} {e : FrameNumber} {f : InFrame} {flywheel : Bool} {j : Highway}
    {n : Slot} (h : ((s.superviseFrame k e f flywheel).slotState j n).stable ≠ (s.slotState j n).stable) :
    j = k ∧ e = 15 ∧ ((s.sup k).collect e f flywheel).complete = true ∧
      ∃ c, ((s.sup k).collect e f flywheel).received[n] = some c ∧
        ((s.superviseFrame k e f flywheel).slotState j n).stable = some c := by
  rw [superviseFrame_slotState] at h ⊢
  by_cases hj : k = j
  · subst hj
    rw [if_pos rfl] at h ⊢
    exact ⟨rfl, handed_stable h⟩
  · rw [if_neg hj] at h
    exact absurd rfl h

/-- A frame handed over changes a stable code at its evaluation alone (R92, R93). -/
theorem handOver_stable {s : State} {k : Highway} {a : Align} (h : s.servesAs k a) (ha : a.handsOver = true)
    {f : InFrame} {order : CompletionOrder} {j : Highway} {n : Slot}
    (hne : ((s.handOver k a f order).slotState j n).stable ≠ (s.slotState j n).stable) :
    j = k ∧ ∃ code, a.expected = some 0 ∧ (s.sup k).spoiled = false ∧
      (∀ m : Slot, ((s.sup k).collect 15 f false).received[m] ≠ none) ∧
      ((s.sup k).collect 15 f false).received[n] = some code ∧
      ((s.handOver k a f order).slotState j n).stable = some code := by
  obtain ⟨before, after, hl, hb, hafter⟩ := completionOrder_split order .supervisor
  rw [State.handOver, hl, List.foldl_append, List.foldl_cons] at hne ⊢
  obtain ⟨hs1, hr1, hv1⟩ := completionTasks_keep h f hb
  generalize before.foldl (fun t x => t.completionTask k a f x) s = t at *
  obtain ⟨hs3, -, -⟩ := completionTasks_keep (inputs_completionTask hv1 f .supervisor).2 f hafter
  have htask : t.completionTask k a f .supervisor = t.superviseFrame k a.frameNumber f a.isFlywheel := by
    simp [State.completionTask, ha]
  rw [htask] at hne hs3 ⊢
  rw [hs3 j n, ← hs1 j n] at hne
  rw [hs3 j n]
  obtain ⟨rfl, he, hc, code, hcode, hst⟩ := superviseFrame_stable hne
  rw [he, complete_iff] at hc
  rw [he] at hcode
  have hrec := collect_received_congr hr1.1 15 f a.isFlywheel false
  rw [hrec] at hcode hc
  have hspoil : (t.sup j).spoiled = false := (Bool.or_eq_false_iff.mp hc.1).1
  exact ⟨rfl, code, expected_of_frameNumber ha he, hr1.2 ▸ hspoil, hc.2, hcode, hst⟩

/-- A completed frame changes a stable code at its evaluation alone (R92, R93). -/
theorem completeFrame_stable {s : State} {k : Highway} {f : InFrame} {order : CompletionOrder} {j : Highway} {n : Slot}
    (h : ((s.completeFrame k f order).slotState j n).stable ≠ (s.slotState j n).stable) :
    j = k ∧ (s.receiver k).inFrame = true ∧ (s.receiver k).align.handsOver = true ∧
      ∃ code, s.evaluates k f n code ∧ ((s.completeFrame k f order).slotState j n).stable = some code := by
  have hf : (s.receiver k).inFrame = true := by
    by_contra hf
    rw [State.completeFrame, if_neg hf] at h
    exact h rfl
  have ho : (s.receiver k).align.handsOver = true := by
    by_contra ho
    refine h ?_
    unfold State.completeFrame
    rw [if_pos hf]
    cases ha : (s.receiver k).align with
    | disabled | search x => rfl
    | confirm e count x => exact keepsStable_setAlign s k _ _ j n
    | _ => rw [ha] at ho; exact absurd rfl ho
  rw [completeFrame_of_handsOver hf ho] at h ⊢
  rw [← keepsStable_setAlign s k (s.receiver k).align false j n] at h
  obtain ⟨he, code, h1, h2, h3, h4, h5⟩ := handOver_stable (servesAs_setAlign_same ho false) ho h
  exact ⟨he, hf, ho, code, ⟨h1, h2, h3, h4⟩, h5⟩

/-! ### Every command -/

/-- What a command can have done to the stable codes: nothing, a full reset, or a completed frame. -/
theorem exec_stable {c : Instr} {s t : State} (h : exec c s = .next t) :
    s.keepsStable t ∨
    (∀ k n, (t.slotState k n).stable = none) ∧
      ((∃ pins, c = .powerOnReset pins) ∨ s.resetNext .a = some .cold ∨ s.resetNext .b = some .cold) ∨
    ∃ k f order, t = s.completeFrame k f order ∧
      ((∃ order, c = .inputFrameCompletion k f order) ∨ (∃ order, c = .guardEnd k f order) ∨
        ∃ completion start, c = .captureDone f completion start) := by
  have start : ∀ {u : State} {order : StartOrder}, u.resetNext = s.resetNext → s.keepsStable u →
      u.outputStart order = t → s.keepsStable t ∨ (∀ k n, (t.slotState k n).stable = none) ∧
        ((∃ pins, c = .powerOnReset pins) ∨ s.resetNext .a = some .cold ∨ s.resetNext .b = some .cold) := by
    rintro u order hu hk rfl
    rw [← hu]
    exact (outputStart_stable u order).imp hk.trans fun h => ⟨h.1, .inr h.2⟩
  have named : ∀ (b : Bool) (order : StartOrder),
      (if b then .next (s.outputStart order) else .next s : Host.Outcome State Fault Refusal) = .next t →
      s.keepsStable t ∨ (∀ k n, (t.slotState k n).stable = none) ∧
        ((∃ pins, c = .powerOnReset pins) ∨ s.resetNext .a = some .cold ∨ s.resetNext .b = some .cold) := by
    intro b order h
    cases b
    · obtain rfl : s = t := by simpa using h
      exact .inl (keepsStable_refl s)
    · exact start rfl (keepsStable_refl s) (by simpa using h)
  have kept : ∀ (b : Bool) (u : State), s.keepsStable u →
      (if b then .next u else .next s : Host.Outcome State Fault Refusal) = .next t → s.keepsStable t := by
    intro b u hu h
    cases b
    · obtain rfl : s = t := by simpa using h
      exact keepsStable_refl s
    · obtain rfl : u = t := by simpa using h
      exact hu
  have command : ∀ p tag d, (.next (s.takeCommand p tag d) : Host.Outcome State Fault Refusal) = .next t →
      s.keepsStable t := fun p tag d h => by
    obtain rfl : s.takeCommand p tag d = t := by simpa using h
    exact works_keepsStable (works_takeCommand s p tag d)
  have completed : ∀ (b : Bool) (k : Highway) (f : InFrame) (order : CompletionOrder),
      (if b then .next (s.completeFrame k f order) else .next s : Host.Outcome State Fault Refusal) = .next t →
      s.keepsStable t ∨ t = s.completeFrame k f order := by
    intro b k f order h
    cases b
    · obtain rfl : s = t := by simpa using h
      exact .inl (keepsStable_refl s)
    · exact .inr (by simpa using h.symm)
  have reset : s.keepsStable t ∨ (∀ k n, (t.slotState k n).stable = none) ∧
      ((∃ pins, c = .powerOnReset pins) ∨ s.resetNext .a = some .cold ∨ s.resetNext .b = some .cold) →
      s.keepsStable t ∨ (∀ k n, (t.slotState k n).stable = none) ∧
        ((∃ pins, c = .powerOnReset pins) ∨ s.resetNext .a = some .cold ∨ s.resetNext .b = some .cold) ∨
      ∃ k f order, t = s.completeFrame k f order ∧
        ((∃ order, c = .inputFrameCompletion k f order) ∨ (∃ order, c = .guardEnd k f order) ∨
          ∃ completion start, c = .captureDone f completion start) := fun h => h.imp_right .inl
  cases c with
  | powerOnReset pins =>
    obtain rfl : s.resetPowerOn pins = t := by simpa [exec, execPowerOnReset] using h
    exact .inr (.inl ⟨fun k n => powerOn_stable pins s.draws s.pending k n, .inl ⟨_, rfl⟩⟩)
  | coldResetEffect pins order =>
    have hpins : (s.setPins pins).resetNext = s.resetNext := by
      funext p
      cases p <;> rfl
    have hk := keepsStable_of_touches (touches_setPins s pins) (by simp)
    simp only [exec, execColdResetEffect] at h
    refine reset ?_
    split at h
    · exact start hpins hk (by simpa using h)
    · split at h
      · exact start hpins hk (by simpa using h)
      · exact named false order h
  | warmResetEffect order =>
    simp only [exec, execWarmResetEffect] at h
    refine reset ?_
    split at h
    · exact named true _ h
    · split at h
      · exact named true _ h
      · exact named false order h
  | outputFrameStart order => exact reset (named true order h)
  | swap order | syncCopy order | leaseExpired order | batchLapse order | noticeTimerExpiry order =>
    exact reset (named _ _ h)
  | syncDone order =>
    simp only [exec, execSyncDone] at h
    refine reset ?_
    split at h
    · exact named true _ h
    · exact named false order h
  | huntCandidate k bits => exact .inl (kept true _ (keepsStable_huntBits s k bits) h)
  | markerPosition k o => exact .inl (kept true _ (keepsStable_markerPosition s k o) h)
  | confirmationComplete k o => exact .inl (kept _ _ (keepsStable_markerPosition s k o) h)
  | alignmentLoss k o => exact .inl (kept _ _ (keepsStable_markerPosition s k o) h)
  | guardEnd k f order =>
    exact (completed _ k f order h).imp_right fun e => .inr ⟨k, f, _, e, .inr (.inl ⟨_, rfl⟩)⟩
  | inputFrameCompletion k f order =>
    exact (completed true k f order h).imp_right fun e => .inr ⟨k, f, _, e, .inl ⟨_, rfl⟩⟩
  | goodMessage p body =>
    simp only [exec, execGoodMessage] at h
    split at h
    · rename_i hp
      simp only [State.portReceives, Bool.and_eq_true] at hp
      split at h
      · obtain rfl := by simpa using h
        exact .inl (works_keepsStable (works_receive hp.1.1 _))
      · exact .inl (kept false s (keepsStable_refl s) h)
    · exact .inl (kept false s (keepsStable_refl s) h)
  | writeEntries p tag k n c es =>
    simp only [exec, execWriteEntries] at h
    split at h
    · exact .inl (command _ _ _ h)
    · exact .inl (kept false s (keepsStable_refl s) h)
  | captureDone f completion order =>
    simp only [exec, execCaptureDone] at h
    split at h
    · exact (completed _ _ f _ h).imp_right fun e => .inr ⟨_, f, _, e, .inr (.inr ⟨_, _, rfl⟩)⟩
    · exact reset (named _ _ h)
    · exact .inl (kept false s (keepsStable_refl s) h)
  | _ => exact .inl (command _ _ _ h)

/-- Settles O60: a completed frame changes a stable code by its evaluation, a full reset makes it absent, and no other
command changes it. -/
theorem stableCodesChangeByEvaluationAlone : Obligations.StableCodesChangeByEvaluationAlone := by
  intro c s t k n h hne
  rcases exec_stable h with hk | ⟨hnone, hwhy⟩ | ⟨j, f, order, rfl, hc⟩
  · exact absurd (hk k n) hne
  · exact .inl ⟨hnone k n, hwhy⟩
  · obtain ⟨rfl, hf, ho, code, ⟨h1, h2, h3, h4⟩, hcode⟩ := completeFrame_stable hne
    exact .inr ⟨f, code, hc, hf, ho, h1, h2, h3, h4, hcode⟩

end Sys2Proof.Machine
end

section
/-! SUPPORT. The step, the state after a power-on reset, and the layouts: entries, markers, bodies and envelopes. -/

namespace Sys2Proof.Machine

/-! ### The step and the power-on state -/

/-- Settles O1: both halves are the definition of the step. -/
theorem stepTakesTheFrontCommand : Obligations.StepTakesTheFrontCommand :=
  ⟨fun _ _ _ => rfl, fun s h => by simp only [step, h]⟩

theorem initialPort_ok (pins : Straps) : (State.powerOn pins).portsOk := by
  have h : ∀ p, (State.powerOn pins).port p = initialPort := fun p => by cases p <;> rfl
  intro p
  rw [h p]
  refine ⟨by decide, by decide, by decide, by simp [Port.settled, initialPort],
    (fun _ _ hc => by cases hc), ⟨(fun _ _ hm => by cases hm), (fun _ he => by cases he)⟩, by simp [initialPort],
    (fun _ he => by cases he), (fun _ he => by cases he)⟩

theorem eventsOk_initial {s : State} (h : s.events = initialEvents) : s.eventsOk := by
  unfold State.eventsOk
  rw [h]
  exact ⟨by decide, by decide, fun _ _ => Nat.zero_le 1, by decide, by decide, (fun h => absurd rfl h), by decide,
    by decide, (fun _ ht => by cases ht)⟩

/-- Settles O52: block by block, from the power-on values. -/
theorem powerOnMeetsTheInvariants : Obligations.PowerOnMeetsTheInvariants := fun pins =>
  ⟨mapOk_powerOn pins 0 [], queuesOk_powerOn pins 0 [], initialPort_ok pins, eventsOk_initial rfl,
    leaseOk_powerOn pins 0 [], initialCapture_ok, inputsOk_powerOn pins 0 []⟩

/-- The protected slots, as 8.1 and 1.2 name them. -/
theorem protectedSlot_iff (t : Straps) (k : Highway) (n : Slot) :
    protectedSlot t k n = true ↔ (t.ma = k ∨ t.mbe = true ∧ t.mb ≠ t.ma ∧ t.mb = k) ∧
      (n.val = 63 ∨ t.four = true ∧ 60 ≤ n.val) := by
  have hport : (portOn t k).isSome = true ↔ t.ma = k ∨ t.mbe = true ∧ t.mb ≠ t.ma ∧ t.mb = k := by
    unfold portOn portBEnabled
    by_cases ha : t.ma = k
    · simp [ha]
    · by_cases hb : t.mbe && t.mb != t.ma && decide (t.mb = k)
      · simp only [ha, hb, if_false, if_true, Option.isSome_some, false_or, true_iff]
        simpa [and_assoc] using hb
      · simp only [ha, hb, if_false, false_or]
        simpa [and_assoc] using hb
  have hslot : mgmtSlot t n = true ↔ n.val = 63 ∨ t.four = true ∧ 60 ≤ n.val := by
    have := n.isLt
    unfold mgmtSlot strapWidth
    cases t.four <;> simp <;> omega
  rw [protectedSlot, Bool.and_eq_true, hport, hslot]

/-- Settles O42: each block has its power-on value, and the protected slots are those of R5. -/
theorem powerOnResetSetsEveryBlock : Obligations.PowerOnResetSetsEveryBlock := by
  intro pins s
  refine ⟨s.resetPowerOn pins, rfl, rfl, fun b k n => ?_, rfl, rfl, rfl, fun k => ?_, rfl, rfl, rfl, rfl, rfl, rfl, rfl,
    rfl, rfl, (fun p => by cases p <;> rfl), rfl, rfl⟩
  · have hb : (s.resetPowerOn pins).bank b = initialBank pins := by cases b <;> rfl
    simp only [hb, initialBank_get, ← protectedSlot_iff]
    rfl
  · have hr : (s.resetPowerOn pins).receiver k = initialReceiver := by
      simp [State.receiver, State.resetPowerOn, State.powerOn]
    have hq : (s.resetPowerOn pins).queue k = emptyQueue := by
      simp [State.queue, State.resetPowerOn, State.powerOn]
    have ho : (s.resetPowerOn pins).output k = initialOutput := by
      simp [State.output, State.resetPowerOn, State.powerOn]
    have hx : (s.resetPowerOn pins).sup k = initialSupervisor := by
      simp [State.sup, State.resetPowerOn, State.powerOn]
    rw [hr, hq, ho]
    simp only [State.slotState, hx]
    exact ⟨rfl, rfl, rfl, rfl, rfl, rfl, rfl, rfl, rfl,
      fun n => ⟨by simp [initialSupervisor, initialSlot], by simp [initialSupervisor, emptyRecord]⟩, rfl, rfl⟩

/-! ### Words of the manual -/

/-- Settles O6: each word is the value of its layout. -/
theorem wordsOfTheManual : Obligations.WordsOfTheManual := by
  refine ⟨?_, ?_, ?_, ?_, ?_, ?_, ?_, ?_, ?_, ?_⟩ <;> rfl

/-! ### Entries, markers and signalling octets (11.1, 11.3) -/

/-- The nibbles of an octet made of two codes. -/
theorem nibbles_append : ∀ a b : Code, highCode (a ++ b) = a ∧ lowCode (a ++ b) = b := by
  decide

theorem highCode_append (a b : Code) : highCode (a ++ b) = a := (nibbles_append a b).1

theorem lowCode_append (a b : Code) : lowCode (a ++ b) = b := (nibbles_append a b).2

theorem slotOctet_toNat (n : Slot) : (Machine.slotOctet n).toNat = n.val := by
  simp only [Machine.slotOctet, octet, BitVec.toNat_ofNat]
  omega

/-- The first octet of a SLOT entry: kind, mode and source highway. -/
theorem slotHeader (h : Highway) :
    (∀ base : Octet, base = 0x60 ∨ base = 0x40 → (base ||| highwayOctet h).extractLsb' 6 2 = 1 ∧
      ((base ||| highwayOctet h).extractLsb' 0 3).toFin = h) ∧
    (0x60 ||| highwayOctet h).getLsbD 5 = true ∧ (0x40 ||| highwayOctet h).getLsbD 5 = false := by
  revert h
  decide

/-- The octets of an entry read back as that entry (R2, R174). -/
theorem entry_octets (e : Entry) : ∃ r : RawEntry, e.octets = [r.o0, r.o1, r.o2, r.o3] ∧ r.entry = e := by
  obtain ⟨content, condOctet, condCode⟩ := e
  cases content with
  | idle fixed =>
    refine ⟨⟨_, _, _, _⟩, rfl, ?_⟩
    simp [RawEntry.entry, RawEntry.kind, RawEntry.fixedCode, highCode_append, lowCode_append]
  | constant value fixed =>
    refine ⟨⟨_, _, _, _⟩, rfl, ?_⟩
    simp [RawEntry.entry, RawEntry.kind, RawEntry.fixedCode, highCode_append, lowCode_append]
  | mgmt fixed =>
    refine ⟨⟨_, _, _, _⟩, rfl, ?_⟩
    simp [RawEntry.entry, RawEntry.kind, RawEntry.fixedCode, highCode_append, lowCode_append]
  | slot h n mode =>
    obtain ⟨hbase, h5, h5'⟩ := slotHeader h
    have hn : Fin.ofNat 64 (Machine.slotOctet n).toNat = n := by
      rw [slotOctet_toNat]
      exact Fin.ofNat_val_eq_self n
    cases mode with
    | follow =>
      obtain ⟨h1, h2⟩ := hbase 0x60 (.inl rfl)
      refine ⟨⟨0x60 ||| highwayOctet h, Machine.slotOctet n, condOctet, 0#4 ++ condCode⟩, rfl, ?_⟩
      simp only [RawEntry.entry, RawEntry.kind, RawEntry.sourceHighway, RawEntry.follow, h1, h2, h5, hn, lowCode_append]
      rfl
    | fixed code =>
      obtain ⟨h1, h2⟩ := hbase 0x40 (.inr rfl)
      refine ⟨⟨0x40 ||| highwayOctet h, Machine.slotOctet n, condOctet, code ++ condCode⟩, rfl, ?_⟩
      simp only [RawEntry.entry, RawEntry.kind, RawEntry.sourceHighway, RawEntry.follow, RawEntry.fixedCode, h1, h2, h5',
        hn, lowCode_append, highCode_append]
      rfl

/-- An octet with pattern 101 is the marker of its own number and RA flag (11.1). -/
theorem markerOctet_of_pattern : ∀ o : Octet, markerPattern o = 0b101#3 →
    o = markerOctet (markerRA o) (markerNumber o) := by
  decide

theorem marker_of_markerOctet : ∀ (ra : Bool) (n : FrameNumber), markerPattern (markerOctet ra n) = 0b101#3 ∧
    markerRA (markerOctet ra n) = ra ∧ markerNumber (markerOctet ra n) = n := by
  decide

/-- Settles O5: an entry by its kind, a marker by its pattern, and a signalling octet by its nibbles. -/
theorem layoutsRoundTrip : Obligations.LayoutsRoundTrip := by
  refine ⟨fun e rest => ?_, fun o ra n => ⟨fun ⟨hg, hr⟩ => ?_, fun h => ?_⟩, fun a b => ⟨highCode_append a b, lowCode_append a b⟩⟩
  · obtain ⟨r, ho, hr⟩ := entry_octets e
    exact ⟨r, by rw [ho]; rfl, hr⟩
  · obtain ⟨hp, rfl⟩ : markerPattern o = 0b101#3 ∧ markerNumber o = n := by simpa [goodMarker] using hg
    exact hr ▸ markerOctet_of_pattern o hp
  · obtain ⟨h1, h2, h3⟩ := marker_of_markerOctet ra n
    rw [h]
    exact ⟨by simp [goodMarker, h1, h3], h2⟩

/-! ### Bodies and envelopes (R131, R132) -/

/-- A body is read as the command it was made from (11.2). -/
theorem readArguments_command (c : Command) : readArguments c.code c.arguments = .command c := by
  cases c with
  | fetchEvents ack => cases ack <;> rfl
  | _ => rfl

theorem messageOf_body (tag : Octet) (c : Command) : messageOf (c.body tag) = some (commandMessage tag c) := by
  simp only [messageOf, Command.body, commandMessage, readArguments_command]

theorem takeAll_append (f : Framer) (a b : List Octet) :
    Framer.takeAll f (a ++ b) =
      ((Framer.takeAll (Framer.takeAll f a).1 b).1, (Framer.takeAll f a).2 ++ (Framer.takeAll (Framer.takeAll f a).1 b).2) := by
  induction a generalizing f with
  | nil => rfl
  | cons o a ih => simp only [List.cons_append, Framer.takeAll, ih, List.cons_append]

/-- Fill brings the framer nothing (R132). -/
theorem takeAll_fill (n : Nat) : Framer.takeAll .hunt (List.replicate n 0x00) = (.hunt, List.replicate n .none) := by
  induction n with
  | zero => rfl
  | succ n ih =>
    have hstep : Framer.take .hunt 0x00 = (.hunt, .none) := rfl
    simp only [List.replicate_succ, Framer.takeAll, hstep, ih]

/-- The body octets are collected up to the last one, behind which the check is awaited (R132). -/
theorem takeAll_body (e : Octet) (rest collected : List Octet) (h : collected.length + rest.length = e.toNat)
    (hr : rest ≠ []) :
    Framer.takeAll (.body e collected) rest =
      (.check e (collected ++ rest) none, List.replicate rest.length .none) := by
  induction rest generalizing collected with
  | nil => exact absurd rfl hr
  | cons o rest ih =>
    rw [List.length_cons] at h
    cases rest with
    | nil =>
      have he : collected.length + 1 = e.toNat := by simpa using h
      simp [Framer.takeAll, Framer.take, he]
    | cons o' rest =>
      rw [List.length_cons] at h
      have he : collected.length + 1 ≠ e.toNat := by omega
      have hstep : Framer.take (.body e collected) o = (.body e (collected ++ [o]), .none) := by
        simp [Framer.take, he]
      have hrest := ih (collected ++ [o]) (by simp; omega) (by simp)
      rw [List.append_assoc, List.singleton_append] at hrest
      rw [Framer.takeAll, hstep, hrest]
      rfl

theorem pairOf_extract (x : Pair) : pairOf (x.extractLsb' 8 8) (x.extractLsb' 0 8) = x := by
  exact BitVec.extractLsb'_append_extractLsb'_eq_extractLsb' rfl |>.trans BitVec.extractLsb'_eq_self

theorem octet_toNat {n : Nat} (h : n < 256) : (octet n).toNat = n := by
  simp only [octet, BitVec.toNat_ofNat]
  omega

/-- An envelope is handed over as a good message by its last octet (R132). -/
theorem takeAll_envelope {body : List Octet} (h2 : 2 ≤ body.length) (h : body.length ≤ 124) :
    Framer.takeAll .hunt (envelope body) = (.hunt, List.replicate (body.length + 3) .none ++ [.good body]) := by
  have hlen : (octet body.length).toNat = body.length := octet_toNat (by omega)
  have hne : body ≠ [] := fun e => by simp [e] at h2
  have hbody := takeAll_body (octet body.length) body [] (by simp [hlen]) hne
  have hcheck : Framer.takeAll (.check (octet body.length) ([] ++ body) none) (pairOctets (messageCheck body)) =
      (.hunt, [.none, .good body]) := by
    simp [pairOctets, Framer.takeAll, Framer.take, pairOf_extract, messageCheck]
  have hrest : Framer.takeAll (.body (octet body.length) []) (body ++ pairOctets (messageCheck body)) =
      (.hunt, List.replicate body.length .none ++ [.none, .good body]) := by
    rw [takeAll_append, hbody, hcheck]
  have hrep : List.replicate (body.length + 3) FramerEvent.none =
      .none :: .none :: (List.replicate body.length .none ++ [.none]) := by
    rw [show body.length + 3 = (body.length + 1) + 1 + 1 from rfl, List.replicate_succ, List.replicate_succ,
      List.replicate_succ']
  rw [envelope, hrep]
  have hlead : Framer.take .hunt 0xB4 = (.length, .none) := rfl
  have hlength : Framer.take .length (octet body.length) = (.body (octet body.length) [], .none) := by
    simp [Framer.take, hlen, h2, h]
  simp only [Framer.takeAll, hlead, hlength, hrest]
  simp

/-- Settles O4: the fill, the envelope's octets one after another, and the body read back. -/
theorem messagesOnTheWireAreRead : Obligations.MessagesOnTheWireAreRead := by
  refine fun fill tag c h => ⟨?_, messageOf_body tag c⟩
  rw [takeAll_append, takeAll_fill, takeAll_envelope (by simp [Command.body]) h, ← List.append_assoc,
    List.replicate_append_replicate, Nat.add_assoc]

/-! ### Rows and messages (log 9) -/

/-- A body that fits a message reaches the duplicate check as its command; a longer one reaches nothing (R131, R135). -/
theorem exec_goodMessage_body (p : PortId) (tag : Octet) (c : Command) (s : State) :
    exec (.goodMessage p (c.body tag)) s =
      .next (if (c.body tag).length ≤ 124 then s.takeCommand p tag c else s) := by
  simp only [exec, execGoodMessage, messageOf_body, State.takeCommand]
  cases s.portReceives p <;> by_cases h : (c.body tag).length ≤ 124 <;> simp [h]

theorem body_length (tag : Octet) (c : Command) : (c.body tag).length = c.arguments.length + 2 := rfl

/-- A command with at most nine argument octets fits a message. -/
theorem row_of_short {i : Instr} {p : PortId} {tag : Octet} {c : Command} {s : State}
    (h : exec i s = .next (s.takeCommand p tag c)) (hc : c.arguments.length ≤ 9) :
    exec i s = exec (.goodMessage p (c.body tag)) s := by
  rw [h, exec_goodMessage_body, if_pos (by rw [body_length]; omega)]

/-- Settles O3: every row's body fits a message but an overlong WRITE_ENTRIES, which neither of the two takes. -/
theorem rowsAreTheirMessages : Obligations.RowsAreTheirMessages := by
  intro i p tag c h s
  cases i with
  | writeEntries q t k n m es =>
    obtain ⟨rfl, rfl, rfl⟩ : q = p ∧ t = tag ∧ Command.writeEntries k n m es = c := by simpa [managerCommand] using h
    rw [exec_goodMessage_body]
    have hlen : ((Command.writeEntries k n m es).body t).length = es.length + 5 := rfl
    simp only [exec, execWriteEntries]
    by_cases hes : es.length ≤ 119
    · rw [if_pos hes, if_pos (by omega)]
    · rw [if_neg hes, if_neg (by omega)]
  | fetchEvents q t ack =>
    obtain ⟨rfl, rfl, rfl⟩ : q = p ∧ t = tag ∧ Command.fetchEvents ack = c := by simpa [managerCommand] using h
    exact row_of_short rfl (by cases ack <;> simp [Command.arguments])
  | powerOnReset | coldResetEffect | warmResetEffect | outputFrameStart | swap | syncCopy | syncDone | leaseExpired
  | batchLapse | noticeTimerExpiry | huntCandidate | markerPosition | confirmationComplete | alignmentLoss | guardEnd
  | inputFrameCompletion | goodMessage | captureDone => cases h
  | _ =>
    simp only [managerCommand, Option.some.injEq, Prod.mk.injEq] at h
    obtain ⟨rfl, rfl, rfl⟩ := h
    exact row_of_short rfl (by simp [Command.arguments])

/-- A row whose body fits a message is taken at its port (log 9). -/
theorem exec_of_managerCommand {i : Instr} {p : PortId} {tag : Octet} {c : Command}
    (h : managerCommand i = some (p, tag, c)) (hlen : (c.body tag).length ≤ 124) (s : State) :
    exec i s = .next (s.takeCommand p tag c) := by
  rw [rowsAreTheirMessages i p tag c h s, exec_goodMessage_body, if_pos hlen]

end Sys2Proof.Machine
end

section
/-! SUPPORT. The invariants of the event list: what an occurrence, the attention condition, a batch and a tick keep. -/

namespace Sys2Proof.Machine

/-! ### Entries that are updated in place (R109, R113) -/

/-- An entry updated in place: an UNDELIVERED one may change its values, its count and its stamp. -/
structure Event.updates (e e' : Event) : Prop where
  delivered : e'.delivered = e.delivered
  hasKey    : ∀ key, e'.hasKey key = e.hasKey key
  ordinary  : e'.isOrdinary = e.isOrdinary
  kind      : e'.kindCode = e.kindCode
  kept      : e.delivered = true → e' = e

theorem Event.updates.refl (e : Event) : e.updates e := ⟨rfl, fun _ => rfl, rfl, rfl, fun _ => rfl⟩

theorem updates_all_refl (es : List Event) : List.Forall₂ Event.updates es es := by
  induction es with
  | nil => exact .nil
  | cons e es ih => exact .cons (.refl e) ih

/-- A merge updates one entry in place (R109, R110). -/
theorem mergeEntry_updates (key : EventKey) (v : EventValue) (now : Stamp) (es : List Event) :
    List.Forall₂ Event.updates es (mergeEntry key v now es) := by
  induction es with
  | nil => exact .nil
  | cons e es ih =>
    unfold mergeEntry
    cases hb : e.body with
    | ordinary k first w count =>
      simp only
      split
      · rename_i hk
        exact .cons ⟨rfl, by simp [Event.hasKey, hb], by simp [Event.isOrdinary, hb], by simp [Event.kindCode, hb],
          fun hd => by rw [hk.2] at hd; cases hd⟩ (updates_all_refl es)
      · exact .cons (.refl e) ih
    | overflow n => exact .cons (.refl e) ih

theorem bumpOverflow_updates (now : Stamp) (e : Event) : e.updates (bumpOverflow now e) := by
  unfold bumpOverflow
  split
  · rename_i n hb
    split
    · exact .refl e
    · rename_i hd
      exact ⟨rfl, by simp [Event.hasKey, hb], by simp [Event.isOrdinary, hb], by simp [Event.kindCode, hb],
        fun h => absurd h hd⟩
  · exact .refl e

theorem map_updates {f : Event → Event} (h : ∀ e : Event, e.updates (f e)) (es : List Event) :
    List.Forall₂ Event.updates es (es.map f) := by
  induction es with
  | nil => exact .nil
  | cons e es ih => exact .cons (h e) ih

section
variable {es es' : List Event} (h : List.Forall₂ Event.updates es es')
include h

theorem countP_of_updates {P : Event → Bool} (hP : ∀ e e', e.updates e' → P e' = P e) : es'.countP P = es.countP P := by
  induction h with
  | nil => rfl
  | cons he _ ih => rw [List.countP_cons, List.countP_cons, ih, hP _ _ he]

theorem delivered_of_updates : es'.filter (·.delivered) = es.filter (·.delivered) := by
  induction h with
  | nil => rfl
  | @cons e e' es es' he _ ih =>
    rw [List.filter_cons, List.filter_cons, ih, he.delivered]
    cases hd : e.delivered with
    | false => rfl
    | true => simp [he.kept hd]

theorem exists_of_updates {P : Event → Prop} (hP : ∀ e e', e.updates e' → P e → P e') (hx : ∃ e ∈ es, P e) :
    ∃ e ∈ es', P e := by
  induction h with
  | nil => obtain ⟨e, he, -⟩ := hx; cases he
  | @cons a a' as as' ha _ ih =>
    obtain ⟨e, he, hp⟩ := hx
    rcases List.mem_cons.mp he with rfl | he
    · exact ⟨a', by simp, hP _ _ ha hp⟩
    · obtain ⟨e', he', hp'⟩ := ih ⟨e, he, hp⟩
      exact ⟨e', List.mem_cons_of_mem _ he', hp'⟩

end

/-! ### The limits of the list (R112 to R115, R124) -/

/-- What the event list keeps whatever its attention condition is. -/
structure EventList.bounded (l : EventList) : Prop where
  ordinary  : l.ordinaryCount ≤ 63
  overflow  : l.entries.countP Event.isOverflow ≤ 1
  keys      : ∀ key delivered, l.entries.countP (fun e => e.hasKey key && e.delivered == delivered) ≤ 1
  batch     : l.batch.isSome = true ↔ l.deliveredEntries ≠ []
  delivered : l.deliveredEntries.length ≤ 12
  losses    : l.losses ≠ 0 → ∃ e ∈ l.entries, e.isOverflow = true ∧ e.delivered = true
  hold      : l.holdTime ≠ 0
  timer     : ∀ t, l.timer = some t → l.attn = true ∧ t ≠ 0

/-- The event list with its attention condition up to date (R122). -/
def EventList.settled (l : EventList) : Prop := l.bounded ∧ l.attn = l.condition

theorem eventsOk_iff (s : State) : s.eventsOk ↔ s.events.settled :=
  ⟨fun ⟨h1, h2, h3, h4, h5, h6, h7, h8, h9⟩ => ⟨⟨h1, h2, h3, h4, h5, h6, h7, h9⟩, h8⟩,
    fun ⟨⟨h1, h2, h3, h4, h5, h6, h7, h9⟩, h8⟩ => ⟨h1, h2, h3, h4, h5, h6, h7, h8, h9⟩⟩

/-- The entries updated in place, and losses counted only where they may be. -/
theorem EventList.bounded.updated {l : EventList} (h : l.bounded) {es : List Event}
    (hu : List.Forall₂ Event.updates l.entries es) : EventList.bounded { l with entries := es } where
  ordinary := by
    unfold EventList.ordinaryCount
    rw [countP_of_updates hu fun _ _ h => h.ordinary]
    exact h.ordinary
  overflow := by
    rw [countP_of_updates hu fun _ _ h => by rw [Event.isOverflow, Event.isOverflow, h.ordinary]]
    exact h.overflow
  keys key d := by
    rw [countP_of_updates hu fun _ _ h => by rw [h.hasKey, h.delivered]]
    exact h.keys key d
  batch := by
    unfold EventList.deliveredEntries
    rw [delivered_of_updates hu]
    exact h.batch
  delivered := by
    unfold EventList.deliveredEntries
    rw [delivered_of_updates hu]
    exact h.delivered
  losses hl := exists_of_updates hu (fun _ _ h hp => by
    rwa [Event.isOverflow, h.ordinary, h.delivered]) (h.losses hl)
  hold := h.hold
  timer := h.timer

theorem delivered_append (es : List Event) {e : Event} (he : e.delivered = false) :
    (es ++ [e]).filter (·.delivered) = es.filter (·.delivered) := by
  simp [he]

theorem accepts_eq (key : EventKey) (e : Event) : e.accepts key = (e.hasKey key && e.delivered == false) := by
  unfold Event.accepts Event.hasKey
  cases e.body <;> cases e.delivered <;> simp

/-- A new ordinary entry, where there is room and none of its key is UNDELIVERED (R109, R112). -/
theorem EventList.bounded.entered {l : EventList} (h : l.bounded) {key : EventKey} (v : EventValue) (now : Stamp)
    (hroom : l.ordinaryCount < 63) (hn : l.entries.any (Event.accepts key) = false) :
    EventList.bounded { l with entries := l.entries ++ [newEntry key v now] } where
  ordinary := by
    unfold EventList.ordinaryCount at hroom ⊢
    rw [List.countP_append]
    simp [newEntry, Event.isOrdinary]
    omega
  overflow := by
    rw [List.countP_append]
    simpa [newEntry, Event.isOverflow, Event.isOrdinary] using h.overflow
  keys key' d := by
    rw [List.countP_append]
    by_cases hk : key = key' ∧ d = false
    · obtain ⟨rfl, rfl⟩ := hk
      have h0 : l.entries.countP (fun e => e.hasKey key && e.delivered == false) = 0 := by
        rw [List.countP_eq_zero]
        intro e he
        rw [← accepts_eq]
        simpa using List.any_eq_false.mp hn e he
      rw [h0]
      simpa using List.countP_le_length (p := fun e : Event => e.hasKey key && e.delivered == false)
        (l := [newEntry key v now])
    · have h1 : ((newEntry key v now).hasKey key' && (newEntry key v now).delivered == d) = false := by
        simp only [newEntry, Event.hasKey]
        cases d <;> simp_all
      simpa [h1] using h.keys key' d
  batch := by
    unfold EventList.deliveredEntries
    rw [delivered_append _ rfl]
    exact h.batch
  delivered := by
    unfold EventList.deliveredEntries
    rw [delivered_append _ rfl]
    exact h.delivered
  losses hl := by
    obtain ⟨e, he, hx⟩ := h.losses hl
    exact ⟨e, List.mem_append_left _ he, hx⟩
  hold := h.hold
  timer := h.timer

/-- A list without losses is bounded as it is with them: the losses are looked at alone. -/
theorem EventList.bounded.withLosses {l : EventList} (h : l.bounded) {n : Pair}
    (hl : n ≠ 0 → ∃ e ∈ l.entries, e.isOverflow = true ∧ e.delivered = true) :
    EventList.bounded { l with losses := n } :=
  ⟨h.ordinary, h.overflow, h.keys, h.batch, h.delivered, hl, h.hold, h.timer⟩

/-- A new OVERFLOW entry, where there is none (R113). -/
theorem EventList.bounded.overflowed {l : EventList} (h : l.bounded) (ho : l.entries.all Event.isOrdinary = true)
    (n : Pair) (now : Stamp) :
    EventList.bounded { l with
      entries := l.entries ++ [{ body := .overflow n, created := now, updated := now, delivered := false }]
      losses := 0 } where
  ordinary := by
    unfold EventList.ordinaryCount
    rw [List.countP_append]
    simpa [Event.isOrdinary, EventList.ordinaryCount] using h.ordinary
  overflow := by
    have h0 : l.entries.countP Event.isOverflow = 0 := by
      rw [List.countP_eq_zero]
      intro e he
      simpa [Event.isOverflow] using List.all_eq_true.mp ho e he
    rw [List.countP_append, h0]
    simpa using List.countP_le_length (p := Event.isOverflow)
      (l := [{ body := .overflow n, created := now, updated := now, delivered := false }])
  keys key d := by
    rw [List.countP_append]
    simpa [Event.hasKey] using h.keys key d
  batch := by
    unfold EventList.deliveredEntries
    rw [delivered_append _ rfl]
    exact h.batch
  delivered := by
    unfold EventList.deliveredEntries
    rw [delivered_append _ rfl]
    exact h.delivered
  losses hl := absurd rfl hl
  hold := h.hold
  timer := h.timer

/-- Losses are spilled, or wait behind a DELIVERED OVERFLOW entry (R113). -/
theorem EventList.bounded.spilled {l : EventList} (h : l.bounded) {n : Pair} (now : Stamp)
    (hu : l.entries.any (fun e => e.isOverflow && !e.delivered) = false) :
    (EventList.spill now { l with losses := n }).bounded := by
  unfold EventList.spill
  split
  · rename_i hs
    exact (h.overflowed hs.2 n now)
  · rename_i hs
    refine h.withLosses fun hn => ?_
    have hall : l.entries.all Event.isOrdinary = false := by
      by_contra hc
      exact hs ⟨hn, by simpa using hc⟩
    obtain ⟨e, he, ho⟩ := List.all_eq_false.mp hall
    have hov : e.isOverflow = true := by simpa [Event.isOverflow] using ho
    have := List.any_eq_false.mp hu e he
    exact ⟨e, he, hov, by simpa [hov] using this⟩

/-- An occurrence keeps the limits of the list (R109, R112, R113). -/
theorem EventList.bounded.take {l : EventList} (h : l.bounded) (key : EventKey) (v : EventValue) (now : Stamp) :
    (l.take key v now).bounded := by
  unfold EventList.take
  split
  · exact h.updated (mergeEntry_updates key v now _)
  · rename_i hn
    split
    · exact h.entered v now ‹_› (by simpa using hn)
    · unfold EventList.lose
      split
      · exact h.updated (map_updates (bumpOverflow_updates now) _)
      · rename_i hu
        exact h.spilled now (Bool.eq_false_iff.mpr hu)

/-! ### The attention condition (R122) -/

theorem condition_iff (l : EventList) :
    l.condition = true ↔ (∃ e ∈ l.entries, e.delivered = false ∧ l.unmasked e = true) ∨ l.lapsed = true := by
  simp [EventList.condition, EventList.waiting, List.filter_eq_nil_iff]

theorem condition_of_updates {l : EventList} (h : l.condition = true) {es : List Event}
    (hu : List.Forall₂ Event.updates l.entries es) (n : Pair) :
    EventList.condition { l with entries := es, losses := n } = true := by
  rw [condition_iff] at h ⊢
  exact h.imp_left (exists_of_updates hu fun e e' he ⟨h1, h2⟩ =>
    ⟨by rw [he.delivered, h1], by rw [← h2, EventList.unmasked, EventList.unmasked, he.kind]⟩)

theorem condition_of_append {l : EventList} (h : l.condition = true) (es : List Event) (n : Pair) :
    EventList.condition { l with entries := l.entries ++ es, losses := n } = true := by
  rw [condition_iff] at h ⊢
  exact h.imp_left fun ⟨e, he, hp⟩ => ⟨e, List.mem_append_left _ he, hp⟩

/-- While the condition is true an occurrence leaves it true (R122). -/
theorem condition_take {l : EventList} (h : l.condition = true) (key : EventKey) (v : EventValue) (now : Stamp) :
    (l.take key v now).condition = true := by
  unfold EventList.take
  split
  · exact condition_of_updates h (mergeEntry_updates key v now _) l.losses
  · split
    · exact condition_of_append h _ l.losses
    · unfold EventList.lose
      split
      · exact condition_of_updates h (map_updates (bumpOverflow_updates now) _) l.losses
      · unfold EventList.spill
        split
        · exact condition_of_append h _ 0
        · exact condition_of_updates h (updates_all_refl _) _

theorem take_attn (l : EventList) (key : EventKey) (v : EventValue) (now : Stamp) :
    (l.take key v now).attn = l.attn := by
  unfold EventList.take EventList.lose EventList.spill
  split
  · rfl
  · split
    · rfl
    · split
      · rfl
      · split <;> rfl

/-- The list with the condition true, and ATTN asserted. -/
def EventList.attending (l : EventList) : Prop := l.bounded ∧ l.attn = true ∧ l.condition = true

theorem EventList.attending.settled {l : EventList} (h : l.attending) : l.settled :=
  ⟨h.1, h.2.1.trans h.2.2.symm⟩

theorem EventList.attending.take {l : EventList} (h : l.attending) (key : EventKey) (v : EventValue) (now : Stamp) :
    (l.take key v now).attending :=
  ⟨h.1.take key v now, (take_attn l key v now).trans h.2.1, condition_take h.2.2 key v now⟩

/-- A list that only drops of a NOTICE have changed. -/
theorem offerNotices_attending {s : State} (h : s.events.attending) : s.offerNotices.events.attending := by
  have h0 : ((s.queueNotice .a s.events.notice).queueNotice .b s.events.notice).events.attending := by
    rw [queueNotice_events, queueNotice_events]
    exact h
  have drop : ∀ {t : State} (p : PortId), t.events.attending → (t.noticeDropped p).events.attending := fun p ht => by
    rw [noticeDropped_events]
    exact ht.take _ _ _
  unfold State.offerNotices
  simp only
  split
  · exact h0
  · exact drop .a h0
  · exact drop .b h0
  · split
    · exact drop .a (drop .b h0)
    · exact drop .b (drop .a h0)

theorem startedTimer_ne_zero {interval t : Octet} (h : startedTimer interval = some t) : t ≠ 0 := by
  unfold startedTimer at h
  split at h
  · cases h
  · obtain rfl : interval = t := by simpa using h
    assumption

/-- The condition re-evaluated is up to date (R122). -/
theorem settleAttention_settled {s : State} (h : s.events.bounded) : s.settleAttention.events.settled := by
  unfold State.settleAttention
  split
  · rename_i hc
    exact ⟨h, hc.symm⟩
  · split
    · rename_i hc
      refine (offerNotices_attending (s := s.setEvents
        { s.events with attn := true, timer := startedTimer s.events.interval }) ⟨⟨h.ordinary, h.overflow, h.keys, h.batch, h.delivered, h.losses, h.hold,
        fun t ht => ⟨rfl, startedTimer_ne_zero ht⟩⟩, rfl, hc⟩).settled
    · rename_i hc
      exact ⟨⟨h.ordinary, h.overflow, h.keys, h.batch, h.delivered, h.losses, h.hold, (fun t ht => by cases ht)⟩,
        (by simpa using hc : s.events.condition = false).symm⟩

theorem raise_settled {s : State} (h : s.events.settled) (key : EventKey) (v : EventValue) :
    (s.raise key v).events.settled :=
  settleAttention_settled (s := s.takeOccurrence key v) (h.1.take key v _)

/-! ### Batches (R114 to R118) -/

theorem deliverFirst_body (n : Nat) (es : List Event) : (deliverFirst n es).map (·.body) = es.map (·.body) := by
  induction es generalizing n with
  | nil => cases n <;> rfl
  | cons e es ih =>
    cases n with
    | zero => rfl
    | succ n =>
      unfold deliverFirst
      split <;> simp [ih]

/-- Of entries none of which is DELIVERED, the first are marked (R115). -/
theorem deliverFirst_delivered {es : List Event} (h : es.filter (·.delivered) = []) (n : Nat) :
    deliverFirst n es = (es.take n).map (fun e : Event => { e with delivered := true }) ++ es.drop n := by
  induction es generalizing n with
  | nil => cases n <;> rfl
  | cons e es ih =>
    have he : e.delivered = false := by
      by_contra hc
      have hd : e.delivered = true := by simpa using hc
      simp [hd] at h
    cases n with
    | zero => rfl
    | succ n =>
      have := ih (by simpa [List.filter_cons, he] using h) n
      unfold deliverFirst
      simp [he, this]

theorem filter_delivered_of_first {es : List Event} (h : es.filter (·.delivered) = []) (n : Nat) :
    ((es.take n).map (fun e : Event => { e with delivered := true }) ++ es.drop n).filter (·.delivered) =
      (es.take n).map (fun e : Event => { e with delivered := true }) := by
  have hd : (es.drop n).filter (·.delivered) = [] := by
    rw [List.filter_eq_nil_iff] at h ⊢
    exact fun e he => h e (List.mem_of_mem_drop he)
  have ht : ((es.take n).map fun e : Event => { e with delivered := true }).filter (·.delivered) =
      (es.take n).map fun e : Event => { e with delivered := true } := by
    rw [List.filter_eq_self]
    intro e he
    obtain ⟨x, -, rfl⟩ := List.mem_map.mp he
    rfl
  rw [List.filter_append, hd, ht, List.append_nil]

theorem countP_of_body {P : EventBody → Bool} {es es' : List Event} (h : es'.map (·.body) = es.map (·.body)) :
    es'.countP (fun e => P e.body) = es.countP (fun e => P e.body) := by
  have := congrArg (List.countP P) h
  rwa [List.countP_map, List.countP_map] at this

theorem undelivered_of_none {l : EventList} (h : l.bounded) (hb : l.batch = none) :
    l.entries.filter (·.delivered) = [] := by
  by_contra hc
  have := h.batch.mpr hc
  rw [hb] at this
  cases this

theorem losses_of_none {l : EventList} (h : l.bounded) (hb : l.batch = none) : l.losses = 0 := by
  by_contra hc
  obtain ⟨e, he, -, hd⟩ := h.losses hc
  have := List.filter_eq_nil_iff.mp (undelivered_of_none h hb) e he
  exact this hd

/-- A new batch takes up to twelve UNDELIVERED entries (R115). -/
theorem EventList.bounded.form {l : EventList} (h : l.bounded) (hb : l.batch = none) (p : PortId) :
    (l.form p).bounded := by
  have hn := undelivered_of_none h hb
  have hl := losses_of_none h hb
  unfold EventList.form
  split
  · exact ⟨h.ordinary, h.overflow, h.keys, by rw [← hb]; exact h.batch, h.delivered, h.losses, h.hold, h.timer⟩
  · rename_i hu
    have hbody := deliverFirst_body Config.batchEntries l.entries
    have hdel : (deliverFirst Config.batchEntries l.entries).filter (·.delivered) =
        (l.entries.take Config.batchEntries).map (fun e : Event => { e with delivered := true }) := by
      rw [deliverFirst_delivered hn]
      exact filter_delivered_of_first hn _
    refine ⟨?_, ?_, fun key d => ?_, ?_, ?_, fun hc => absurd hl hc, h.hold, h.timer⟩
    · exact (countP_of_body (P := fun b => match b with
        | .ordinary _ _ _ _ => true
        | .overflow _ => false) hbody).trans_le h.ordinary
    · exact (countP_of_body (P := fun b => !match b with
        | .ordinary _ _ _ _ => true
        | .overflow _ => false) hbody).trans_le h.overflow
    · have hall : l.entries.countP (fun e => e.hasKey key) ≤ 1 := by
        refine le_trans (le_of_eq (List.countP_congr fun e he => ?_)) (h.keys key false)
        have : e.delivered = false := by simpa using List.filter_eq_nil_iff.mp hn e he
        simp [this]
      have hkey := countP_of_body (P := fun b => match b with
        | .ordinary k _ _ _ => decide (k = key)
        | .overflow _ => false) hbody
      refine le_trans (List.countP_mono_left fun e _ he => ?_) (hkey.trans_le hall)
      exact (Bool.and_eq_true_iff.mp he).1
    · unfold EventList.deliveredEntries
      rw [hdel]
      simp only [Option.isSome_some, true_iff, ne_eq, List.map_eq_nil_iff, List.take_eq_nil_iff, not_or]
      refine ⟨by decide, fun he => hu ?_⟩
      simp [EventList.undeliveredCount, he]
    · unfold EventList.deliveredEntries
      rw [hdel, List.length_map, List.length_take]
      exact Nat.min_le_left _ _

/-- An acknowledgement removes the DELIVERED entries, and losses that waited behind one of them spill (R113, R116). -/
theorem EventList.bounded.acknowledge {l : EventList} (h : l.bounded) (now : Stamp) :
    (l.acknowledge now).bounded ∧ (l.acknowledge now).batch = none := by
  have hsub : (l.entries.filter fun e => !e.delivered).Sublist l.entries := List.filter_sublist
  have hd : (l.entries.filter fun e => !e.delivered).filter (·.delivered) = [] := by
    rw [List.filter_eq_nil_iff]
    intro e he
    simpa using (List.mem_filter.mp he).2
  have h0 : EventList.bounded { l with entries := l.entries.filter fun e => !e.delivered, batch := none, losses := 0 } :=
    ⟨(hsub.countP_le).trans h.ordinary, (hsub.countP_le).trans h.overflow,
      fun key d => (hsub.countP_le).trans (h.keys key d),
      by simp only [EventList.deliveredEntries, hd, Option.isSome_none, ne_eq, not_true_eq_false, Bool.false_eq_true],
      by simp only [EventList.deliveredEntries, hd, List.length_nil]; omega, fun hc => absurd rfl hc, h.hold, h.timer⟩
  unfold EventList.acknowledge EventList.spill
  split
  · rename_i hs
    exact ⟨h0.overflowed hs.2 l.losses now, rfl⟩
  · rename_i hs
    refine ⟨h0.withLosses fun hl => ?_, rfl⟩
    obtain ⟨e, he, ho, hed⟩ := h.losses hl
    refine hs.elim ⟨hl, List.all_eq_true.mpr fun x hx => ?_⟩
    by_contra hc
    obtain ⟨hx, hxd⟩ := List.mem_filter.mp hx
    have hxo : x.isOverflow = true := by simpa [Event.isOverflow] using hc
    have hne : e ≠ x := fun hex => by rw [← hex, hed] at hxd; cases hxd
    have h2 := h.overflow
    rw [List.countP_eq_length_filter] at h2
    obtain ⟨y, hy⟩ : ∃ y, l.entries.filter Event.isOverflow ⊆ [y] := by
      match hf : l.entries.filter Event.isOverflow with
      | [] => exact ⟨e, by simp⟩
      | [y] => exact ⟨y, by simp⟩
      | y :: z :: rest => rw [hf] at h2; simp at h2
    have he' := List.mem_singleton.mp (hy (List.mem_filter.mpr ⟨he, ho⟩))
    have hx' := List.mem_singleton.mp (hy (List.mem_filter.mpr ⟨hx, hxo⟩))
    exact hne (he'.trans hx'.symm)

theorem EventList.bounded.rebind {l : EventList} (h : l.bounded) (hb : l.batch.isSome = true) (p : PortId) :
    (l.rebind p).bounded :=
  ⟨h.ordinary, h.overflow, h.keys, ⟨fun _ => h.batch.mp hb, fun _ => rfl⟩, h.delivered, h.losses, h.hold, h.timer⟩

/-- The outcome of a FETCH_EVENTS keeps the limits of the list (R114 to R118). -/
theorem fetched_bounded {l : EventList} (h : l.bounded) (now : Stamp) (p : PortId) (ack : Option Octet) :
    (l.fetched now p (l.fetchOutcome p ack)).bounded := by
  cases hb : l.batch with
  | none =>
    cases ack with
    | none => simpa [EventList.fetchOutcome, hb, EventList.fetched] using h.form hb p
    | some n => simpa [EventList.fetchOutcome, hb, EventList.fetched] using h
  | some b =>
    have hr := h.rebind (by rw [hb]; rfl) p
    simp only [EventList.fetchOutcome, hb]
    split
    · split
      · exact hr
      · exact h
    · split
      · split
        · exact (h.acknowledge now).1.form (h.acknowledge now).2 p
        · exact h
      · exact hr

/-! ### Moves -/

theorem eventsOk_of_events {s t : State} (h : t.events = s.events) (hs : s.eventsOk) : t.eventsOk := by
  rw [eventsOk_iff] at hs ⊢
  rwa [h]

theorem eventsOk_raise {s : State} (hs : s.eventsOk) (key : EventKey) (v : EventValue) : (s.raise key v).eventsOk :=
  (eventsOk_iff _).mpr (raise_settled ((eventsOk_iff s).mp hs) key v)

theorem eventsOk_breakCapture {s : State} (hs : s.eventsOk) (down : Source → Bool) : (s.breakCapture down).eventsOk := by
  unfold State.breakCapture
  split
  · split
    · exact eventsOk_raise (eventsOk_of_events (by simp) hs) _ _
    · exact hs
  all_goals exact hs

theorem eventsOk_loseLink {s : State} (hs : s.eventsOk) (k : Highway) : (s.loseLink k).eventsOk := by
  unfold State.loseLink
  split
  · exact hs
  · split
    · exact eventsOk_raise (eventsOk_of_events (by simp) hs) _ _
    · exact hs

theorem eventsOk_enterSearch {s : State} (hs : s.eventsOk) (k : Highway) (history : List Bool) :
    (s.enterSearch k history).eventsOk :=
  eventsOk_breakCapture (eventsOk_loseLink (eventsOk_of_events (((touches_setAlign s k _ _).trans
    (touches_leaveTraffic _ k)).trans (touches_resetFramer _ k) |>.events (by simp)) hs) k) _

theorem eventsOk_enterDisabled {s : State} (hs : s.eventsOk) (k : Highway) : (s.enterDisabled k).eventsOk := by
  have h : ((s.setAlign k .disabled false).leaveTraffic k).eventsOk :=
    eventsOk_of_events (((touches_setAlign s k _ _).trans (touches_leaveTraffic _ k)).events (by simp)) hs
  unfold State.enterDisabled
  refine eventsOk_breakCapture ?_ _
  split
  · exact eventsOk_raise h _ _
  · exact h

theorem State.Work.eventsOk {s t : State} {bs : List Block} (h : s.Work bs t) (hs : s.eventsOk) : t.eventsOk := by
  have ht := h.touches
  obtain ⟨hb, ha⟩ := (eventsOk_iff s).mp hs
  cases h with
  | news key v => exact eventsOk_raise hs key v
  | fetch p ack =>
    exact (eventsOk_iff _).mpr (settleAttention_settled (s := s.setEvents _) (fetched_bounded hb _ p ack))
  | restartTimer =>
    refine (eventsOk_iff _).mpr ⟨⟨hb.ordinary, hb.overflow, hb.keys, hb.batch, hb.delivered, hb.losses, hb.hold,
      fun x hx => ?_⟩, ha⟩
    have hx : (if s.events.attn then startedTimer s.events.interval else none) = some x := hx
    split at hx
    · exact ⟨‹_›, startedTimer_ne_zero hx⟩
    · cases hx
  | attention mask interval hold h =>
    exact (eventsOk_iff _).mpr (settleAttention_settled (s := s.setEvents _)
      ⟨hb.ordinary, hb.overflow, hb.keys, hb.batch, hb.delivered, hb.losses, h, hb.timer⟩)
  | enabled k h => exact eventsOk_enterSearch hs k []
  | disabled k h => exact eventsOk_enterDisabled hs k
  | broken down => exact eventsOk_breakCapture hs down
  | _ => exact eventsOk_of_events (ht.events (by simp)) hs

/-! ### The tick at the list (R119, R124) -/

theorem lowered_ne_zero {t : Octet} (h : 1 < t.toNat) : t - 1 ≠ 0 := by bv_omega

/-- The tick lowers the hold, and a batch that lapses makes the condition true (R119, R122). -/
theorem holdTick_settled {s : State} (h : s.events.settled) :
    s.holdTick.events.settled ∧ (s.events.attn = true → s.holdTick.events.attn = true) := by
  unfold State.holdTick
  split
  · exact ⟨h, id⟩
  · rename_i b hb
    split
    · exact ⟨h, id⟩
    · rename_i h0
      have hbd : EventList.bounded { s.events with batch := some { b with hold := b.hold - 1 } } :=
        ⟨h.1.ordinary, h.1.overflow, h.1.keys, ⟨fun _ => h.1.batch.mp (by rw [hb]; rfl), fun _ => rfl⟩, h.1.delivered,
          h.1.losses, h.1.hold, h.1.timer⟩
      refine ⟨settleAttention_settled (s := s.setEvents _) hbd, fun ha => ?_⟩
      have hc : EventList.condition { s.events with batch := some { b with hold := b.hold - 1 } } = true := by
        have hc := h.2.symm.trans ha
        rw [condition_iff] at hc ⊢
        refine hc.imp_right fun hl => ?_
        simp only [EventList.lapsed, hb] at hl
        exact absurd (by simpa using hl) h0
      have : ((s.setEvents { s.events with batch := some { b with hold := b.hold - 1 } }).events.condition) =
          (s.setEvents { s.events with batch := some { b with hold := b.hold - 1 } }).events.attn := by
        simpa [ha] using hc
      rw [State.settleAttention, if_pos this]
      simpa using ha

theorem timerTick_settled {s : State} (h : s.events.settled) {running : Option Octet}
    (hr : ∀ t, running = some t → s.events.attn = true) (delivered : Bool) :
    (s.timerTick running delivered).events.settled ∧
      (s.timerTick running delivered).events.attn = s.events.attn := by
  have retimed : ∀ {x : Option Octet}, (∀ t, x = some t → s.events.attn = true ∧ t ≠ 0) →
      EventList.bounded { s.events with timer := x } := fun hx =>
    ⟨h.1.ordinary, h.1.overflow, h.1.keys, h.1.batch, h.1.delivered, h.1.losses, h.1.hold, hx⟩
  unfold State.timerTick
  split
  · exact ⟨h, rfl⟩
  · rename_i t
    have ha := hr t rfl
    split
    · exact ⟨⟨retimed fun x hx => by
        obtain rfl : t - 1 = x := by simpa using hx
        exact ⟨ha, lowered_ne_zero ‹_›⟩, h.2⟩, rfl⟩
    · split
      · exact ⟨h, rfl⟩
      · have := offerNotices_attending (s := s.setEvents { s.events with timer := startedTimer s.events.interval })
          ⟨retimed fun x hx => ⟨ha, startedTimer_ne_zero hx⟩, ha, h.2.symm.trans ha⟩
        exact ⟨this.settled, this.2.1.trans ha.symm⟩

theorem listTick_settled {s : State} (h : s.events.settled) (timerFirst delivered : Bool) :
    (s.listTick timerFirst delivered).events.settled := by
  have hr : ∀ t, s.events.timer = some t → s.events.attn = true := fun t ht => (h.1.timer t ht).1
  unfold State.listTick
  split
  · exact (holdTick_settled (timerTick_settled h hr delivered).1).1
  · exact (timerTick_settled (holdTick_settled h).1 (fun t ht => (holdTick_settled h).2 (hr t ht)) delivered).1

/-- A list emptied by a warm reset (R128). -/
theorem warm_settled {l : EventList} (h : l.bounded) : l.warm.settled :=
  ⟨⟨Nat.zero_le _, Nat.zero_le _, fun _ _ => Nat.zero_le _, ⟨(fun h => by cases h), fun h => absurd rfl h⟩, Nat.zero_le _,
    fun h => absurd rfl h, h.hold, (fun _ h => by cases h)⟩, rfl⟩

theorem State.StartMove.eventsOk {s t : State} {bs : List Block} (h : s.StartMove bs t) (hs : s.eventsOk) :
    t.eventsOk := by
  have ht := h.touches
  have hl := (eventsOk_iff s).mp hs
  cases h with
  | work h => exact h.eventsOk hs
  | listTick a b => exact (eventsOk_iff _).mpr (listTick_settled hl a b)
  | warm => exact (eventsOk_iff _).mpr (warm_settled hl.1)
  | _ => exact eventsOk_of_events (ht.events (by simp)) hs

theorem State.InputMove.eventsOk {k : Highway} {s t : State} {bs : List Block} (h : s.InputMove k bs t)
    (hs : s.eventsOk) : t.eventsOk := by
  have ht := h.touches
  cases h with
  | work h => exact h.eventsOk hs
  | search => exact eventsOk_enterSearch hs k []
  | _ => exact eventsOk_of_events (ht.events (by simp)) hs

/-- Settles O56: every move keeps the list within its limits and its condition up to date, and so every step does. -/
theorem stepKeepsTheEventList : Obligations.StepKeepsTheEventList := fun _ _ hs h =>
  step_keeps (fun _ _ h => eventsOk_of_events rfl h) (fun _ _ h => h)
    (fun _ _ _ h => h.eventsOk) (fun _ _ _ h => h.eventsOk) (fun _ _ _ _ h => h.eventsOk)
    (fun _ _ _ => eventsOk_initial rfl) (fun _ _ => eventsOk_initial rfl) hs h

end Sys2Proof.Machine
end

section
/-! SUPPORT. Commands at their start: what a start leaves alone, the check of the lease and its renewal, and the duplicate
check (R135, R153, R158). -/

namespace Sys2Proof.Machine

/-! ### What a start leaves alone (R139) -/

section
variable (s : State) (p : PortId) (tag : Octet) (c : Command)

theorem touches_started : s.touches [.lease, .portA, .portB] (s.started p tag c) := by
  obtain ⟨l, x, h⟩ := started_eq_setLease_setPort s p tag c
  rw [h]
  exact (touches_setLease s l).trans (touches_setPort _ p x)

@[simp] theorem started_output (k : Highway) : (s.started p tag c).output k = s.output k :=
  (touches_started s p tag c).output k (by simp)

@[simp] theorem started_queue (k : Highway) : (s.started p tag c).queue k = s.queue k :=
  (touches_started s p tag c).queue k (by simp)

@[simp] theorem started_slotState (k : Highway) (n : Slot) : (s.started p tag c).slotState k n = s.slotState k n :=
  (touches_started s p tag c).slotState k n (by simp)

@[simp] theorem started_timing : (s.started p tag c).timing = s.timing :=
  (touches_started s p tag c).timing (by simp)

@[simp] theorem started_events : (s.started p tag c).events = s.events :=
  (touches_started s p tag c).events (by simp)

@[simp] theorem started_draws : (s.started p tag c).draws = s.draws :=
  (touches_started s p tag c).draws (by simp)

@[simp] theorem started_portEnabled (q : PortId) : (s.started p tag c).portEnabled q = s.portEnabled q :=
  (touches_started s p tag c).portEnabled q (by simp)

@[simp] theorem started_isMgmtHighway (k : Highway) : (s.started p tag c).isMgmtHighway k = s.isMgmtHighway k :=
  (touches_started s p tag c).isMgmtHighway k (by simp)

@[simp] theorem started_inService (k : Highway) : (s.started p tag c).inService k = s.inService k :=
  (touches_started s p tag c).inService k (by simp)

end

/-! ### The check of the lease (R158) -/

/-- A lease-required command of a port that does not hold the lease is refused and changes nothing. -/
theorem runCommand_of_no_lease {p : PortId} {q : Queued} {s : State} (hq : q.command.needsLease = true)
    (hl : s.holdsLease p = false) : runCommand p q s = (s, .reply s.noLease) := by
  unfold runCommand
  cases hc : q.command with
  | readCounters g n c =>
    have h1 : c = 1 := by simpa [hc, Command.needsLease] using hq
    exact if_pos ⟨h1, hl⟩
  | identify | claim | release | readEntries | readBanks | readHighway | readSignaling | fetchEvents | readCapture =>
    rw [hc] at hq
    cases hq
  | _ => exact if_neg (by simp [hl])

/-- A row whose command the check of the lease refuses (R158). -/
theorem exec_of_no_lease {i : Instr} {p : PortId} {tag : Octet} {c : Command} {s : State}
    (hi : managerCommand i = some (p, tag, c)) (hlen : (c.body tag).length ≤ 124) (hc : c.needsLease = true)
    (hr : s.ready p tag) (hl : s.holdsLease p = false) : exec i s = .next (s.answered p tag c s.noLease) := by
  have hrun := runCommand_of_no_lease (q := queuedCommand tag c) hc ((started_holdsLease s p tag c p).trans hl)
  rw [started_noLease] at hrun
  rw [exec_of_managerCommand hi hlen, takeCommand_of_unchanged_of_not_holder hr hl c hrun]

/-! ### The renewal (R153) -/

theorem leased_lease {s : State} {p : PortId} {run : State × Result} (h : run.1.lease = s.lease) :
    (s.leased p run).1.lease = s.lease := by
  unfold State.leased
  split
  · exact h
  · rfl

/-- The enable of a SET_INPUT frees no lease but that of a port on a highway that was DISABLED (R49, R55, R155). -/
theorem setInputEnable_lease {s : State} {k : Highway} {enable : Bool}
    (h : (s.receiver k).align = .disabled → ∀ p, portOn s.straps k = some p → s.holdsLease p = false) :
    (s.setInputEnable k enable).lease = s.lease := by
  unfold State.setInputEnable
  split
  · rfl
  · rename_i hne
    split
    · rename_i he
      have hd : (s.receiver k).align = .disabled := by
        cases ha : (s.receiver k).align with
        | disabled => rfl
        | _ => simp [he, ha, Align.enabled] at hne
      rw [enterSearch_lease]
      cases hp : portOn s.straps k with
      | none => rfl
      | some p => simp [h hd p hp]
    · exact (touches_enterDisabled s k).lease (by simp)

/-- A SET_INPUT frees no lease but that of a port on a highway that was DISABLED (R55). -/
theorem runSetInput_lease {s : State} {p : PortId}
    (h : ∀ k, (s.receiver k).align = .disabled → ∀ p, portOn s.straps k = some p → s.holdsLease p = false)
    (k e x g : Octet) : (runSetInput p k e x g s).1.lease = s.lease := by
  refine leased_lease ?_
  split
  · rename_i j _ _ _
    split
    · rfl
    · split
      · rfl
      · exact setInputEnable_lease fun hd => by simpa using h j (by simpa using hd)
  · rfl

/-- A command but those of the lease and SET_INPUT leaves the lease to its renewal. -/
theorem runCommand_lease (p : PortId) {q : Queued} (s : State) (hc : q.command ≠ .claim) (hr : q.command ≠ .release)
    (hs : ∀ period, q.command ≠ .setLease period) (hi : ∀ k e x g, q.command ≠ .setInput k e x g) :
    (runCommand p q s).1.lease = s.lease := by
  unfold runCommand
  cases h : q.command with
  | claim => exact absurd h hc
  | release => exact absurd h hr
  | setLease period => exact absurd h (hs period)
  | setInput k e x g => exact absurd h (hi k e x g)
  | identify | readBanks => rfl
  | reset scope => exact leased_lease (by split <;> [rfl; (split <;> rfl)])
  | writeEntries k n c es =>
    refine leased_lease ?_
    split
    · rfl
    all_goals
      split
      · rfl
      · split
        · rfl
        · split
          · rfl
          · exact (touches_writeStandby s _ _ _).lease (by simp)
  | readEntries r k n c =>
    simp only [runReadEntries]
    split <;> [(split <;> rfl); rfl]
  | clearStandby =>
    refine leased_lease ?_
    split
    · rfl
    · exact (touches_clearStandbyBank s).lease (by simp)
    · simpa using (touches_clearStandbyBank s).lease (by simp)
  | resync => exact leased_lease (by split <;> rfl)
  | commit => exact leased_lease (by split <;> rfl)
  | abortCommit =>
    refine leased_lease ?_
    split
    · rfl
    · rfl
    · simpa using (touches_answerCommit (s.setEngine .idle) _ _).lease (by simp)
  | setOutput k e o c =>
    refine leased_lease ?_
    split
    · split
      · rfl
      · split
        · rfl
        · simp only
          split
          · exact (touches_breakCapture _ _).lease (by simp)
          · rfl
    · rfl
  | readHighway k =>
    simp only [runReadHighway]
    split <;> rfl
  | readCounters g n c =>
    simp only [runReadCounters, runReadCountersHighway, runReadCountersPort]
    split
    · rfl
    · split
      · split
        · simp only
          split <;> rfl
        · rfl
      · split
        · simp only
          split
          · exact (touches_countPort s _ _).lease (by simp)
          · rfl
        · rfl
      · rfl
  | watch k n c v =>
    refine leased_lease ?_
    split
    · split <;> rfl
    · rfl
  | readSignaling k =>
    simp only [runReadSignaling]
    split <;> rfl
  | fetchEvents ack =>
    have hf := (touches_fetch s p ack).lease (by simp)
    simp only [runFetchEvents]
    split <;> exact hf
  | setAttention mh ml i t =>
    refine leased_lease ?_
    split
    · rfl
    · exact (touches_settleAttention _).lease (by simp)
  | armCapture k j n t a b c lh ll =>
    refine leased_lease ?_
    split
    · split
      · rfl
      · split <;> rfl
    · rfl
  | readCapture =>
    simp only [runReadCapture]
    split <;> rfl
  | cancelCapture => exact leased_lease rfl

theorem executeCommand_lease (s : State) (p : PortId) (q : Queued) :
    (s.executeCommand p q).lease = (runCommand p q (s.renewLease p)).1.lease := by
  obtain ⟨y, hy⟩ := complete_eq_setPort (runCommand p q (s.renewLease p)).1 p q (runCommand p q (s.renewLease p)).2
  rw [State.executeCommand, hy, setPort_lease]

theorem renewLease_of_holder {s : State} {p : PortId} (h : s.holdsLease p = true) :
    s.renewLease p = s.setLease (s.lease.granted p) := if_pos h

/-- A start at the holder's port sets the remaining time to the period (R153). -/
theorem executeCommand_renews {s : State} {p : PortId} {q : Queued} (hl : s.leaseHolder = some p)
    (hd : (s.receiver (s.portPair p)).align ≠ .disabled) (hr : q.command ≠ .release)
    (hs : ∀ period, q.command ≠ .setLease period) : (s.executeCommand p q).lease = s.lease.granted p := by
  have hh : s.holdsLease p = true := by simp [State.holdsLease, hl]
  rw [executeCommand_lease, renewLease_of_holder hh]
  by_cases hc : q.command = .claim
  · simp only [runCommand, hc]
    cases hu : (s.receiver (s.portPair p)).align.hunting with
    | true => rw [runClaim_of_hunting (by simpa using hu)]; rfl
    | false =>
      rw [runClaim_of_not_held_elsewhere (by simpa using hu) fun o ho => ?_]
      · rfl
      · simpa [State.leaseHolder, State.setLease, Lease.granted, eq_comm] using ho
  by_cases hi : ∃ k e x g, q.command = .setInput k e x g
  · obtain ⟨k, e, x, g, hi⟩ := hi
    simp only [runCommand, hi]
    refine runSetInput_lease (fun j hj o ho => ?_) k e x g
    rw [← renewLease_of_holder hh, renewLease_holdsLease]
    simp only [State.holdsLease, hl, decide_eq_false_iff_not, Option.some.injEq]
    rintro rfl
    rw [← ((portOn_eq_some_iff _ _ _).mp ho).2] at hj
    exact hd hj
  · exact runCommand_lease p _ hc hr hs fun k e x g h => hi ⟨k, e, x, g, h⟩

/-- A start at another port renews nothing (R153). -/
theorem executeCommand_keeps_lease {s : State} {p : PortId} {q : Queued} (hl : s.leaseHolder ≠ some p)
    (hc : q.command ≠ .claim) : (s.executeCommand p q).lease = s.lease := by
  have hh : s.holdsLease p = false := by simp [State.holdsLease, hl]
  rw [executeCommand_lease, renewLease_of_not_holder hh]
  by_cases hn : q.command.needsLease = true
  · rw [runCommand_of_no_lease hn hh]
  by_cases hr : q.command = .release
  · simp only [runCommand, hr, runRelease_of_no_lease hh]
  · exact runCommand_lease p s hc hr (fun x h => hn (by rw [h]; rfl)) fun k e x g h => hn (by rw [h]; rfl)

/-- Settles O10: the check of the lease comes before everything else of a command, and beside the commands of the lease a
start leaves what its renewal made of it. -/
theorem leaseIsChecked : Obligations.LeaseIsChecked := by
  refine ⟨fun p q s hq hl => runCommand_of_no_lease hq hl, fun i p tag c s hi hlen hc hr hl => exec_of_no_lease hi hlen hc hr hl,
    fun p q s t ht => ?_⟩
  rcases ht with rfl | rfl
  · have hsame := touches_setPort s p { s.port p with transmit := (s.port p).transmit ++ [.reserved .command] }
    refine ⟨fun hl hd hr hs => ?_, fun hl hc => ?_⟩
    · refine (executeCommand_renews (s := s.reservePlace p) ?_ ?_ hr hs).trans ?_
      · simpa [State.reservePlace] using hl
      · simpa [State.reservePlace] using hd
      · simp [State.reservePlace, Lease.granted]
    · refine (executeCommand_keeps_lease (s := s.reservePlace p) ?_ hc).trans (hsame.lease (by simp))
      simpa [State.reservePlace] using hl
  · exact ⟨executeCommand_renews, executeCommand_keeps_lease⟩

/-! ### The duplicate check (R135) -/

section
variable {s : State} {p : PortId} {m : Message} {e : CacheEntry}

theorem receive_of_inProgress (ht : m.tag ≠ 0) (he : (s.port p).cached m.tag = some e) (hc : e.check = m.check)
    (hs : e.state = .inProgress) : s.receive p m = s.countDuplicate p := by
  simp only [State.receive, ht, he, hc, hs, if_true, if_false]

theorem receive_of_done {response : List Octet} (ht : m.tag ≠ 0) (he : (s.port p).cached m.tag = some e)
    (hc : e.check = m.check) (hs : e.state = .done response) :
    s.receive p m = (s.countDuplicate p).offerAnswer p response := by
  simp only [State.receive, ht, he, hc, hs, if_true, if_false]

theorem receive_of_other_check (ht : m.tag ≠ 0) (he : (s.port p).cached m.tag = some e) (hc : e.check ≠ m.check) :
    s.receive p m = (s.forgetEntry p m.tag).receiveNew p m := by
  simp only [State.receive, ht, he, hc, if_false]

/-- An answer that finds no place is dropped (R138). -/
theorem offerAnswer_of_full {a : List Octet} (h : 6 ≤ (s.port p).transmit.length) :
    s.offerAnswer p a = (s.countPort p fun c => { c with dropped := saturate c.dropped }).raise (.mgmtError p) .busyDrop := by
  have hp : (s.port p).hasPlace = false := decide_eq_false (Nat.not_lt.mpr h)
  simp [State.offerAnswer, hp]

end

theorem forgetEntry_cache (s : State) (p : PortId) (tag : Octet) :
    ((s.forgetEntry p tag).port p).cache = (s.port p).cache.filter fun x => x.tag ≠ tag := by
  unfold State.forgetEntry
  simp only
  split
  · split <;> simp
  · simp
  · simp

theorem forgetEntry_portReceives (s : State) (p : PortId) (tag : Octet) (q : PortId) :
    (s.forgetEntry p tag).portReceives q = s.portReceives q := by
  have h := touches_forgetEntry s p tag
  simp only [State.portReceives, h.portEnabled q (by simp), h.portPair q (by simp), h.receiver _ (by simp)]

/-- The message of a command by its tag and its check alone. -/
theorem exists_commandMessage (tag : Octet) (c : Command) :
    ∃ m, m = commandMessage tag c ∧ m.tag = tag ∧ m.check = messageCheck (c.body tag) :=
  ⟨_, rfl, by simp only [commandMessage], by simp only [commandMessage]⟩

/-- Settles O8: the cases of `State.receive` at a tag that the cache holds. -/
theorem duplicatesAreNotExecuted : Obligations.DuplicatesAreNotExecuted := by
  intro i p tag c s e hi hlen hrec htag he
  obtain ⟨m, hm, hmt, hmc⟩ := exists_commandMessage tag c
  subst hmt
  have hexec : ∀ t : State, t.portReceives p = true → exec i t = .next (t.receive p m) := fun t ht => by
    rw [exec_of_managerCommand hi hlen, State.takeCommand, if_pos ht, ← hm]
  rw [← hmc]
  refine ⟨fun hc hs => ?_, fun a hc hs hplace => ?_, fun a hc hs hfull => ?_,
    fun hc => ⟨?_, forgetEntry_cache s p m.tag⟩⟩
  · rw [hexec s hrec, receive_of_inProgress htag he hc hs]
    rfl
  · rw [hexec s hrec, receive_of_done htag he hc hs,
      offerAnswer_of_place (by simpa [State.countDuplicate, State.countPort] using hplace)]
    simp [State.countDuplicate, State.countPort]
  · rw [hexec s hrec, receive_of_done htag he hc hs,
      offerAnswer_of_full (by simpa [State.countDuplicate, State.countPort] using hfull)]
    simp [State.countDuplicate, State.countPort]
  · have habsent : ∀ x ∈ ((s.forgetEntry p m.tag).port p).cache, x.tag ≠ m.tag := by
      rw [forgetEntry_cache]
      exact fun x hx => by simpa using (List.mem_filter.mp hx).2
    rw [hexec s hrec, hexec _ (by rwa [forgetEntry_portReceives]), receive_of_other_check htag he hc,
      receive_of_absent habsent]

end Sys2Proof.Machine
end

section
/-! SUPPORT. How a command that starts at once completes, in each of its three ways (R140), and the commands of the map
store and the commit engine whose events are none: RESET, WRITE_ENTRIES, COMMIT and RESYNC. -/

namespace Sys2Proof.Machine

/-! ### The three completions (R140) -/

section
variable {s u : State} {p : PortId} {tag : Octet}

/-- The response to a command stands where its place was reserved, whatever has entered behind it since. -/
theorem answerCommand_of_started (h : s.ready p tag) (c : Command) (r : Reply) (x : Option Scope) {more : List Place}
    (ht : (u.port p).transmit = (s.port p).transmit ++ .reserved .command :: more)
    (hk : (u.port p).cache = s.cacheWith p tag c .inProgress) :
    u.answerCommand p (queuedCommand tag c) r x = u.setPort p
      { u.port p with
        transmit := (s.port p).transmit ++ .message (responseMessage tag c.code r) x :: more
        cache := s.cacheWith p tag c (.done (responseMessage tag c.code r)) } := by
  obtain ⟨-, -, -, hplaces, htag⟩ := h
  unfold State.answerCommand
  simp only [ht, hk, queuedCommand, fillPlace_append _ _ _ _ _ hplaces, State.cacheWith]
  by_cases h0 : tag = 0
  · simp only [h0, ne_eq, not_true_eq_false, decide_false, Bool.false_eq_true, if_false, if_true]
  · simp only [h0, ne_eq, not_false_eq_true, decide_true, if_true, if_false,
      completeEntry_insertEntry _ _ _ _ (htag.resolve_left h0)]

/-- A command that is answered leaves its queue, and its response in its place. -/
theorem complete_reply_of_started (h : s.ready p tag) (c : Command) (r : Reply) {more : List Place}
    (hc : (u.port p).commands = [queuedCommand tag c])
    (ht : (u.port p).transmit = (s.port p).transmit ++ .reserved .command :: more)
    (hk : (u.port p).cache = s.cacheWith p tag c .inProgress) :
    u.complete p (queuedCommand tag c) (.reply r) = u.setPort p
      { u.port p with
        commands := []
        transmit := (s.port p).transmit ++ .message (responseMessage tag c.code r) none :: more
        cache := s.cacheWith p tag c (.done (responseMessage tag c.code r)) } := by
  simp [State.complete, State.dropHead, answerCommand_of_started h c r none ht hk, hc]

theorem started_port (s : State) (p : PortId) (tag : Octet) (c : Command) :
    (s.started p tag c).port p =
      { s.port p with
        commands := [queuedCommand tag c]
        cache := s.cacheWith p tag c .inProgress
        transmit := (s.port p).transmit ++ [.reserved .command] } := by
  simp [started_eq]

theorem started_port_other (s : State) {p q : PortId} (h : q ≠ p) (tag : Octet) (c : Command) :
    (s.started p tag c).port q = s.port q := by
  simp [started_eq, h.symm]

/-- An accepted RESET stays at the head of its queue, and its response brings the reset about (R145). -/
theorem complete_resetAccepted_of_started (h : s.ready p tag) (c : Command) (r : Reply) (x : Scope) :
    (s.started p tag c).complete p (queuedCommand tag c) (.resetAccepted x r) = (s.renewLease p).setPort p
      { s.port p with
        commands := [{ queuedCommand tag c with started := true }]
        transmit := (s.port p).transmit ++ [.message (responseMessage tag c.code r) (some x)]
        cache := s.cacheWith p tag c (.done (responseMessage tag c.code r)) } := by
  have ha := answerCommand_of_started (u := s.started p tag c) h c r (some x) (more := []) (by rw [started_port])
    (by rw [started_port])
  simp only [State.complete, ha]
  simp [State.holdHead, started_eq]

/-- The place of an accepted COMMIT stays reserved for its deferred response (R22). -/
theorem complete_deferred_of_started (h : s.ready p tag) (c : Command) {e : Engine} :
    ((s.started p tag c).setEngine e).complete p (queuedCommand tag c) .deferred =
      ((s.renewLease p).setEngine e).setPort p
        { s.port p with
          transmit := (s.port p).transmit ++ [.reserved .commit]
          cache := s.cacheWith p tag c .inProgress } := by
  obtain ⟨-, hcommands, -, hplaces, -⟩ := h
  have hkeep := keepForCommit_append (s.port p).transmit [] hplaces
  simp [State.complete, State.keepPlace, State.dropHead, started_eq, setPort_setEngine, hkeep, hcommands]

end

/-! ### RESET (R145) -/

theorem runReset_of_scope {s : State} {p : PortId} {scope : Octet} (hl : s.holdsLease p = true) (h : scope.toNat ≤ 1) :
    runReset p scope s = (s, .resetAccepted (if scope = 0 then .warm else .cold) (okReply [scope])) := by
  by_cases h0 : scope = 0
  · simp [runReset, State.leased, hl, h0]
  · obtain rfl : scope = 1 := by bv_omega
    simp [runReset, State.leased, hl]

theorem runReset_of_other {s : State} {p : PortId} {scope : Octet} (hl : s.holdsLease p = true) (h : 1 < scope.toNat) :
    runReset p scope s = (s, .reply (refusal .badArgument)) := by
  have h0 : scope ≠ 0 := by bv_omega
  have h1 : scope ≠ 1 := by bv_omega
  exact (if_pos hl).trans ((if_neg h0).trans (if_neg h1))

/-- Settles O14: the outcomes of `runReset` at the start of the command. -/
theorem resetIsAnsweredAndWaits : Obligations.ResetIsAnsweredAndWaits := by
  refine fun p tag scope s hr hl => ⟨fun h => ?_, fun h => ?_⟩
  · exact congrArg _ (takeCommand_of_unchanged hr (.reset scope) (runReset_of_other (by simpa using hl) h))
  · have hrun : runCommand p (queuedCommand tag (.reset scope)) (s.started p tag (.reset scope)) = _ :=
      runReset_of_scope (by simpa using hl) h
    refine congrArg Host.Outcome.next ((takeCommand_of_ready hr (.reset scope)).trans ?_)
    rw [hrun]
    exact complete_resetAccepted_of_started hr (.reset scope) _ _

/-! ### WRITE_ENTRIES (R10, R13, R14) -/

/-- The engine after a write: in SYNCING its slots are marked (R13). -/
def Engine.marking (e : Engine) (k : Highway) (first count : Nat) : Engine :=
  match e with
  | .syncing pos marks => .syncing pos (marks.set k (markRow marks[k] first count))
  | .idle | .pending _ => e

/-- The STANDBY bank after a write (R10). -/
def State.writtenBank (s : State) (k : Highway) (first : Nat) (es : List Entry) : Bank :=
  (s.bank s.standbyBank).set k (writeRow (s.bank s.standbyBank)[k] first es)

theorem writeStandby_eq (s : State) (k : Highway) (first : Nat) (es : List Entry) :
    s.writeStandby k first es =
      (s.setBank s.standbyBank (s.writtenBank k first es)).setEngine (s.engine.marking k first es.length) := by
  unfold State.writeStandby
  cases he : s.engine with
  | syncing pos marks =>
    simp only [setBank_engine, he]
    rfl
  | idle | pending r =>
    simp only [setBank_engine, he, Engine.marking]
    rw [← he, ← setBank_engine s s.standbyBank (s.writtenBank k first es)]
    rfl

theorem rawEntries_length {octets : List Octet} {n : Nat} (h : octets.length = 4 * n) : (rawEntries octets).length = n := by
  induction n generalizing octets with
  | zero =>
    obtain rfl : octets = [] := List.length_eq_zero_iff.mp (by omega)
    rfl
  | succ n ih =>
    match octets, h with
    | a :: b :: c :: d :: rest, h =>
      simp only [rawEntries, List.length_cons, ih (octets := rest) (by simp at h; omega)]
    | [], h => simp at h
    | [_], h => simp at h; omega
    | [_, _], h => simp at h; omega
    | [_, _, _], h => simp at h; omega

/-- A WRITE_ENTRIES that passes its checks writes its run (R10, R14). -/
theorem runWriteEntries_of_good {s : State} {p : PortId} {highway first count : Octet} {octets : List Octet}
    (hl : s.holdsLease p = true) (he : s.engine.isPending = false) {k : Highway} (hk : highway.toNat = k.val)
    (hf : first.toNat ≤ 63) (hc : 1 ≤ count.toNat) (hc' : count.toNat ≤ 24) (ho : octets.length = 4 * count.toNat)
    (h : s.checkEntries k first.toNat 0 (rawEntries octets) = none) :
    runWriteEntries p highway first count octets s =
      (s.writeStandby k first.toNat ((rawEntries octets).map RawEntry.entry),
        .reply (okReply [bankOctet s.standbyBank, highway, first, count, engineOctet s.engine])) := by
  have hargs : ¬ (63 < first.toNat ∨ count.toNat = 0 ∨ 24 < count.toNat ∨ octets.length ≠ 4 * count.toNat) := by omega
  unfold runWriteEntries State.leased
  rw [if_pos hl]
  cases hg : s.engine with
  | pending r => simp [hg, Engine.isPending] at he
  | idle | syncing pos marks => simp only [highwayOf_of_toNat_eq hk, if_neg hargs, h]

theorem writtenBank_get (s : State) (k : Highway) (first : Nat) (es : List RawEntry) (j : Highway) (n : Slot) :
    if j = k ∧ first ≤ n.val ∧ n.val < first + es.length then
      es[n.val - first]?.map RawEntry.entry = some (s.writtenBank k first (es.map RawEntry.entry))[j][n]
    else (s.writtenBank k first (es.map RawEntry.entry))[j][n] = s.standbyEntry j n := by
  rw [State.writtenBank, bank_set_get, writeRow_get]
  by_cases hj : j = k
  · subst hj
    by_cases hf : first ≤ n.val
    · by_cases hn : n.val < first + es.length
      · have hlt : n.val - first < es.length := by omega
        rw [if_pos ⟨rfl, hf, hn⟩, if_pos rfl, if_pos hf]
        simp [List.getElem?_eq_getElem hlt]
      · have hge : es.length ≤ n.val - first := by omega
        rw [if_neg (by omega), if_pos rfl, if_pos hf, List.getElem?_eq_none (by simpa using hge)]
        rfl
    · rw [if_neg (by omega), if_pos rfl, if_neg hf]
      rfl
  · rw [if_neg (fun h => hj h.1), if_neg hj]
    rfl

theorem marking_get (marks : Marks) (k : Highway) (first count : Nat) (j : Highway) (n : Slot) :
    (marks.set k (markRow marks[k] first count))[j][n] =
      (marks[j][n] || decide (j = k ∧ first ≤ n.val ∧ n.val < first + count)) := by
  by_cases hj : j = k
  · subst hj
    rw [show (marks.set j (markRow marks[j] first count))[j] = markRow marks[j] first count by simp, markRow_get]
    simp [Bool.or_comm]
  · have h' : (k : Nat) ≠ j := fun e => hj (Fin.ext e.symm)
    simp [hj, Vector.getElem_set_ne _ _ h']

/-- Settles O15: `runWriteEntries_of_good` at the start of the command, and the bank and the marks slot by slot. -/
theorem writeEntriesReplacesTheRun : Obligations.WriteEntriesReplacesTheRun := by
  intro p tag highway first count octets k s hr hl he hk hf hc hc' ho hgood
  have hn := rawEntries_length ho
  have hchecks : (s.started p tag (.writeEntries highway first count octets)).checkEntries k first.toNat 0
      (rawEntries octets) = none := by
    rw [checkEntries_eq_none_iff]
    intro j e hj
    rw [checkEntry_congr (started_isProtected s p tag _), Nat.zero_add]
    exact hgood j e hj
  have hrun := runWriteEntries_of_good (s := s.started p tag (.writeEntries highway first count octets)) (p := p)
    (by simpa using hl) (by simpa using he) hk hf hc hc' ho hchecks
  rw [writeStandby_eq] at hrun
  simp only [State.writtenBank, started_standbyBank, started_bank, started_engine] at hrun
  refine ⟨s.writtenBank k first.toNat ((rawEntries octets).map RawEntry.entry),
    s.engine.marking k first.toNat ((rawEntries octets).map RawEntry.entry).length, ?_, fun j n => ?_, fun hi => ?_,
    fun pos marks hs => ?_⟩
  · have hexec : exec (.writeEntries p tag highway first count octets) s =
        .next (s.takeCommand p tag (.writeEntries highway first count octets)) := if_pos (by omega)
    rw [hexec]
    exact congrArg _ (takeCommand_of_commutes_setPort hr (.writeEntries highway first count octets)
      (fun t => (t.setBank s.standbyBank (s.writtenBank k first.toNat ((rawEntries octets).map RawEntry.entry))).setEngine
        (s.engine.marking k first.toNat ((rawEntries octets).map RawEntry.entry).length))
      (fun t x => by rw [setPort_setBank, setPort_setEngine]) hrun)
  · have := writtenBank_get s k first.toNat (rawEntries octets) j n
    rwa [hn] at this
  · rw [hi]
    rfl
  · refine ⟨_, by rw [hs]; rfl, fun j n => ?_⟩
    rw [marking_get, List.length_map, hn]

/-! ### COMMIT and RESYNC (R22, R33) -/

section
variable {s : State} {p : PortId}

/-- How the engine refuses a COMMIT or a RESYNC (R22, R33). -/
def Engine.refuses (e : Engine) (status : Status) : Prop :=
  (∃ r, e = .pending r) ∧ status = .commitPending ∨ (∃ pos marks, e = .syncing pos marks) ∧ status = .syncing

theorem runCommit_of_refused {tag : Octet} {cached : Bool} {status : Status} (hl : s.holdsLease p = true)
    (h : s.engine.refuses status) : runCommit p tag cached s = (s, .reply (refusal status)) := by
  obtain ⟨⟨r, he⟩, rfl⟩ | ⟨⟨pos, marks, he⟩, rfl⟩ := h <;> simp [runCommit, State.leased, hl, he]

theorem runResync_of_refused {status : Status} (hl : s.holdsLease p = true) (h : s.engine.refuses status) :
    runResync p s = (s, .reply (refusal status)) := by
  obtain ⟨⟨r, he⟩, rfl⟩ | ⟨⟨pos, marks, he⟩, rfl⟩ := h <;> simp [runResync, State.leased, hl, he]

theorem runCommit_of_idle {tag : Octet} {cached : Bool} (hl : s.holdsLease p = true) (he : s.engine = .idle) :
    runCommit p tag cached s = (s.setEngine (.pending { port := p, tag := tag, cached := cached }), .deferred) := by
  simp [runCommit, State.leased, hl, he]

theorem runResync_of_idle (hl : s.holdsLease p = true) (he : s.engine = .idle) :
    runResync p s = (s.setEngine (.syncing 0 noMarks), .reply (okReply [bankOctet s.activeBank])) := by
  simp [runResync, State.leased, hl, he]

end

/-- Settles O19: COMMIT and RESYNC at each engine state. -/
theorem commitAndResyncBegin : Obligations.CommitAndResyncBegin := by
  refine fun p tag s hr hl => ⟨fun he => ⟨?_, ?_⟩, fun c status hs => ⟨?_, ?_⟩⟩
  · have hrun : runCommand p (queuedCommand tag .commit) (s.started p tag .commit) = _ :=
      runCommit_of_idle (by simpa using hl) (by simpa using he)
    refine congrArg Host.Outcome.next ((takeCommand_of_ready hr .commit).trans ?_)
    rw [hrun]
    exact complete_deferred_of_started hr .commit
  · have hrun := runResync_of_idle (s := s.started p tag .resync) (p := p) (by simpa using hl) (by simpa using he)
    rw [started_activeBank] at hrun
    exact congrArg _ (takeCommand_of_commutes_setPort hr .resync (State.setEngine · _)
      (fun t x => setPort_setEngine t p x _) hrun)
  · rintro rfl
    exact congrArg _ (takeCommand_of_unchanged hr .commit
      (runCommit_of_refused (status := status) (by simpa using hl) (by simpa [Engine.refuses] using hs)))
  · rintro rfl
    exact congrArg _ (takeCommand_of_unchanged hr .resync
      (runResync_of_refused (status := status) (by simpa using hl) (by simpa [Engine.refuses] using hs)))

end Sys2Proof.Machine
end

section
/-! SUPPORT. The reports of a highway, of counters and of the signalling codes, and ARM_CAPTURE (R56, R58, R87, R102, R148,
R162). -/

namespace Sys2Proof.Machine

/-! ### READ_HIGHWAY (R56, R87) -/

theorem runReadHighway_of_good {s : State} {highway : Octet} {k : Highway} (hk : highway.toNat = k.val) :
    runReadHighway highway s = (s, .reply (okReply (highway :: (s.inputPart k ++ s.outputPart k)))) := by
  simp only [runReadHighway, highwayOf_of_toNat_eq hk]

theorem runReadHighway_of_bad {s : State} {highway : Octet} (hk : 7 < highway.toNat) :
    runReadHighway highway s = (s, .reply (refusal .badArgument)) := by
  simp only [runReadHighway, highwayOf_of_gt hk]

/-- The items of an alignment state in a READ_HIGHWAY (R56, R176). -/
theorem align_octets (a : Align) :
    [alignOctet a, flagOctet a.inService, a.expectedOctet, a.confirmOctet, a.guardOctet, a.badOctet] =
      match a with
      | .disabled => [0x00, 0x00, 0xFF, 0xFF, 0xFF, 0xFF]
      | .search _ => [0x01, 0x00, 0xFF, 0xFF, 0xFF, 0xFF]
      | .confirm e n _ => [0x02, 0x00, e.setWidth 8, octet n, 0xFF, 0xFF]
      | .guard e n => [0x03, 0x00, e.setWidth 8, 0xFF, octet n, 0xFF]
      | .aligned e => [0x04, 0x01, e.setWidth 8, 0xFF, 0xFF, 0xFF]
      | .flywheel e n => [0x05, 0x01, e.setWidth 8, 0xFF, 0xFF, octet n] := by
  cases a <;> rfl

theorem align_enabled_eq (a : Align) : a.enabled = decide (a ≠ .disabled) := by
  cases a <;> simp [Align.enabled]

/-- The input part of a READ_HIGHWAY, with the items of the alignment state together (R56). -/
theorem inputPart_eq (s : State) (k : Highway) :
    s.inputPart k =
      [flagOctet (decide ((s.receiver k).align ≠ .disabled)), octet (s.receiver k).persistence,
        octet (s.receiver k).guardLength] ++
      [alignOctet (s.receiver k).align, flagOctet (s.receiver k).align.inService, (s.receiver k).align.expectedOctet,
        (s.receiver k).align.confirmOctet, (s.receiver k).align.guardOctet, (s.receiver k).align.badOctet] ++
      [flagOctet (s.receiver k).receivedRA, flagOctet (s.output k).raSent, octet (s.queue k).frames.length,
        flagOctet (s.queue k).reading.isSome] := by
  rw [← align_enabled_eq]
  rfl

/-- The output part of a READ_HIGHWAY (R87). -/
theorem outputPart_eq (s : State) (k : Highway) :
    s.outputPart k =
      [flagOctet (s.output k).enabled, (s.output k).idleOctet, (s.output k).idleCode.setWidth 8,
        (match portOn s.straps k with
          | some q => portOctet q
          | none => 0xFF),
        s.timing.frame.setWidth 8] ++ pairOctets s.timing.stamp := by
  unfold State.outputPart
  cases portOn s.straps k <;> rfl

@[simp] theorem started_inputPart (s : State) (p : PortId) (tag : Octet) (c : Command) (k : Highway) :
    (s.started p tag c).inputPart k = s.inputPart k := by
  simp only [State.inputPart, started_receiver, started_queue, started_output]

@[simp] theorem started_outputPart (s : State) (p : PortId) (tag : Octet) (c : Command) (k : Highway) :
    (s.started p tag c).outputPart k = s.outputPart k := by
  simp only [State.outputPart, started_output, started_straps, started_timing]

/-- Settles O24: the two parts of a highway at the start of the command. -/
theorem readHighwayReports : Obligations.ReadHighwayReports := by
  refine fun p tag highway s hr => ⟨fun h => ?_, fun k hk => ?_⟩
  · exact congrArg _ (takeCommand_of_unchanged hr (.readHighway highway) (runReadHighway_of_bad h))
  · have hrun := runReadHighway_of_good (s := s.started p tag (.readHighway highway)) hk
    rw [started_inputPart, started_outputPart, inputPart_eq, align_octets, outputPart_eq] at hrun
    refine (congrArg Host.Outcome.next (takeCommand_of_unchanged hr (.readHighway highway) hrun)).trans ?_
    simp only [List.cons_append, List.nil_append, List.append_assoc] <;> rfl

/-! ### READ_COUNTERS (R58, R148) -/

theorem setReceiver_same (s : State) (k : Highway) : s.setReceiver k (s.receiver k) = s := by
  unfold State.setReceiver State.receiver
  rw [show s.receivers.set k s.receivers[k] = s.receivers from Vector.set_getElem_self _]

section
variable {s : State} {p : PortId} {number clear : Octet}

theorem runReadCounters_of_no_lease {group : Octet} (hc : clear = 1) (hl : s.holdsLease p = false) :
    runReadCounters p group number clear s = (s, .reply s.noLease) := if_pos ⟨hc, hl⟩

/-- With the lease that clear = 1 asks for, the group and the clear octet decide (R58, R148). -/
theorem runReadCounters_of_lease {group : Octet} (hl : clear = 1 → s.holdsLease p = true) :
    runReadCounters p group number clear s =
      (match flagOf group, flagOf clear with
      | some false, some c => runReadCountersHighway number c s
      | some true, some c => runReadCountersPort number c s
      | _, _ => (s, .reply (refusal .badArgument))) :=
  if_neg fun h => by simp [hl h.1] at h

theorem decide_ne_zero (h : clear.toNat ≤ 1) : decide (clear ≠ 0) = decide (clear = 1) :=
  decide_eq_decide.mpr (by bv_omega)

theorem runReadCounters_of_bad_clear {group : Octet} (hl : clear = 1 → s.holdsLease p = true) (h : 1 < clear.toNat) :
    runReadCounters p group number clear s = (s, .reply (refusal .badArgument)) := by
  rw [runReadCounters_of_lease hl, flagOf_of_gt_one h]
  split
  · rename_i h2
    cases h2
  · rename_i h2
    cases h2
  · rfl

/-- A READ_COUNTERS of a highway (R58). -/
theorem runReadCounters_highway {k : Highway} (hl : clear = 1 → s.holdsLease p = true) (hk : number.toNat = k.val)
    (hc : clear.toNat ≤ 1) :
    runReadCounters p 0 number clear s =
      (s.setReceiver k { s.receiver k with
          counters := if clear = 1 then zeroHighwayCounters else (s.receiver k).counters },
        .reply (okReply ([0x00, number] ++ (s.receiver k).counters.octets))) := by
  rw [runReadCounters_of_lease hl, flagOf_of_le_one hc, decide_ne_zero hc]
  refine (show _ = runReadCountersHighway number (decide (clear = 1)) s from rfl).trans ?_
  simp only [runReadCountersHighway, highwayOf_of_toNat_eq hk, decide_eq_true_eq]
  split
  · rfl
  · rw [setReceiver_same]

theorem flagOf_portOctet (q : PortId) :
    flagOf (portOctet q) = some (match q with
      | .a => false
      | .b => true) := by cases q <;> rfl

/-- A READ_COUNTERS of a port (R148). -/
theorem runReadCounters_port {q : PortId} (hl : clear = 1 → s.holdsLease p = true) (hc : clear.toNat ≤ 1) :
    runReadCounters p 1 (portOctet q) clear s =
      (s.setPort q { s.port q with
          counters := if clear = 1 then zeroPortCounters else (s.port q).counters },
        .reply (okReply ([0x01, portOctet q] ++ s.portGroup q))) := by
  rw [runReadCounters_of_lease hl, flagOf_of_le_one hc, decide_ne_zero hc]
  refine (show _ = runReadCountersPort (portOctet q) (decide (clear = 1)) s from rfl).trans ?_
  have hq : (if (match q with
      | .a => false
      | .b => true) = true then PortId.b else PortId.a) = q := by cases q <;> rfl
  simp only [runReadCountersPort, flagOf_portOctet, hq, decide_eq_true_eq]
  split
  · rfl
  · rw [setPort_same]

end

/-- The PORT group of a READ_COUNTERS (R148, R176). -/
theorem portGroup_eq (s : State) (q : PortId) :
    s.portGroup q = if s.portEnabled q then [0x01] ++ (s.port q).counters.octets ++ (s.port q).figures
      else 0x00 :: (List.replicate 10 0x00 ++ List.replicate 6 0xFF) := by
  unfold State.portGroup
  split <;> rfl

/-- The two ports are written in either order. -/
theorem setPort_comm (s : State) {p q : PortId} (h : q ≠ p) (x y : Port) :
    (s.setPort p x).setPort q y = (s.setPort q y).setPort p x :=
  match p, q, h with
  | .a, .b, _ => rfl
  | .b, .a, _ => rfl
  | .a, .a, h => absurd rfl h
  | .b, .b, h => absurd rfl h

/-- A command whose block writes the counters of a port leaves those, the renewal and the response. -/
theorem takeCommand_of_counters {s : State} {p : PortId} {tag : Octet} (h : s.ready p tag) (c : Command) {q : PortId}
    {x : PortCounters} {r : Reply}
    (hrun : runCommand p (queuedCommand tag c) (s.started p tag c) =
      ((s.started p tag c).setPort q { (s.started p tag c).port q with counters := x }, .reply r)) :
    s.takeCommand p tag c = ((s.renewLease p).setPort q { s.port q with counters := x }).answered p tag c r := by
  have hcommands := h.2.1
  rw [takeCommand_of_ready h, hrun]
  by_cases hq : q = p
  · subst hq
    rw [complete_reply_of_started h c r (more := []) (by simp [started_port]) (by simp [started_port])
      (by simp [started_port])]
    simp [started_eq, State.answered, State.cacheWith, hcommands]
  · rw [complete_reply_of_started h c r (more := []) (by simp [started_port, hq]) (by simp [started_port, hq])
      (by simp [started_port, hq]), started_port_other s hq]
    simp only [started_eq, fun t x y => setPort_comm t hq x y, setPort_setPort, State.answered, State.cacheWith, port_setPort, if_neg hq, if_true,
      renewLease_port]
    rw [← hcommands]

/-- Settles O25: the refusals and the two groups of `runReadCounters` at the start of the command. -/
theorem readCountersReportsAndClears : Obligations.ReadCountersReportsAndClears := by
  intro p tag number clear s hr
  have hstart := fun c => started_holdsLease s p tag c p
  refine ⟨fun hc hl => ?_, fun hl => ?_⟩
  · have hneeds : ∀ g, (Command.readCounters g number clear).needsLease = true := fun g => by
      simp [Command.needsLease, hc]
    exact ⟨exec_of_no_lease rfl (by simp [Command.body, Command.arguments]) (hneeds 0) hr hl,
      exec_of_no_lease rfl (by simp [Command.body, Command.arguments]) (hneeds 1) hr hl⟩
  have hl' : ∀ c, clear = 1 → (s.started p tag c).holdsLease p = true := fun c h => (hstart c).trans (hl h)
  refine ⟨fun hbad => ?_, fun hbad => ?_, fun k hk hc => ?_, fun q hq hc => ?_⟩
  · have hrun : runReadCounters p 0 number clear (s.started p tag (.readCounters 0 number clear)) =
        (s.started p tag (.readCounters 0 number clear), .reply (refusal .badArgument)) := by
      by_cases hc : 1 < clear.toNat
      · exact runReadCounters_of_bad_clear (hl' _) hc
      · rw [runReadCounters_of_lease (hl' _), flagOf_of_le_one (o := clear) (by omega)]
        simp only [flagOf, if_true, runReadCountersHighway, highwayOf_of_gt (hbad.resolve_right hc)]
    exact congrArg _ (takeCommand_of_unchanged hr (.readCounters 0 number clear) hrun)
  · have hrun : runReadCounters p 1 number clear (s.started p tag (.readCounters 1 number clear)) =
        (s.started p tag (.readCounters 1 number clear), .reply (refusal .badArgument)) := by
      by_cases hc : 1 < clear.toNat
      · exact runReadCounters_of_bad_clear (hl' _) hc
      · rw [runReadCounters_of_lease (hl' _), flagOf_of_le_one (o := clear) (by omega),
          flagOf_of_le_one (o := 1) (by decide)]
        exact (show _ = runReadCountersPort number _ _ from rfl).trans
          (by simp only [runReadCountersPort, flagOf_of_gt_one (hbad.resolve_right hc)])
    exact congrArg _ (takeCommand_of_unchanged hr (.readCounters 1 number clear) hrun)
  · have hrun := runReadCounters_highway (p := p) (hl' (.readCounters 0 number clear)) hk hc
    rw [started_receiver] at hrun
    refine (congrArg Host.Outcome.next (takeCommand_of_commutes_setPort hr (.readCounters 0 number clear)
      (State.setReceiver · k _) (fun t x => setPort_setReceiver t p x k _) hrun)).trans ?_
    simp only [HighwayCounters.octets, List.append_assoc]
  · subst hq
    have hrun := runReadCounters_port (p := p) (q := q) (hl' (.readCounters 1 (portOctet q) clear)) hc
    refine (congrArg Host.Outcome.next (takeCommand_of_counters hr (.readCounters 1 (portOctet q) clear) hrun)).trans ?_
    have hcounters : ((s.started p tag (.readCounters 1 (portOctet q) clear)).port q).counters = (s.port q).counters := by
      by_cases hq : q = p
      · subst hq; rw [started_port]
      · rw [started_port_other s hq]
    rw [portGroup_eq, started_portEnabled, hcounters]

/-! ### READ_SIGNALING (R102) -/

/-- The bits of a slot's octet (R102). -/
theorem slotBits : ∀ (w c p : Bool) (code : Code),
    ((((BitVec.ofBool false ++ BitVec.ofBool w) ++ BitVec.ofBool c) ++ BitVec.ofBool p) ++ code : Octet).getLsbD 7 = false ∧
    ((((BitVec.ofBool false ++ BitVec.ofBool w) ++ BitVec.ofBool c) ++ BitVec.ofBool p) ++ code : Octet).getLsbD 6 = w ∧
    ((((BitVec.ofBool false ++ BitVec.ofBool w) ++ BitVec.ofBool c) ++ BitVec.ofBool p) ++ code : Octet).getLsbD 5 = c ∧
    ((((BitVec.ofBool false ++ BitVec.ofBool w) ++ BitVec.ofBool c) ++ BitVec.ofBool p) ++ code : Octet).getLsbD 4 = p ∧
    lowCode ((((BitVec.ofBool false ++ BitVec.ofBool w) ++ BitVec.ofBool c) ++ BitVec.ofBool p) ++ code : Octet) = code := by
  decide

theorem runReadSignaling_of_bad {s : State} {highway : Octet} (hk : 7 < highway.toNat) :
    runReadSignaling highway s = (s, .reply (refusal .badArgument)) := by
  simp only [runReadSignaling, highwayOf_of_gt hk]

/-- The octets of the 64 slots of a highway (R102). -/
def State.slotOctets (s : State) (k : Highway) (draw : Nat) : Vector Octet 64 :=
  Vector.ofFn fun n : Slot => (s.slotState k n).octet (Config.unstated draw n.val)

theorem runReadSignaling_of_good {s : State} {highway : Octet} {k : Highway} (hk : highway.toNat = k.val) :
    runReadSignaling highway s = (s.useDraw, .reply (okReply
      ([highway, alignOctet (s.receiver k).align, octet (s.receiver k).persistence] ++
        (match (s.sup k).lastEvaluation with
         | some stamp => 0x01 :: pairOctets stamp
         | none => [0x00, 0x00, 0x00]) ++ (s.slotOctets k s.draws).toList))) := by
  have hname : highwayOctet k = highway := by
    rw [highwayOctet, ← hk, octet, BitVec.ofNat_toNat, BitVec.setWidth_eq]
  have hslots : (s.slotOctets k s.draws).toList =
      slots.map fun n => ((s.sup k).slots[n]).octet (Config.unstated s.draws n.val) := by
    rw [State.slotOctets, Vector.toList_ofFn, List.ofFn_eq_map]
    rfl
  simp only [runReadSignaling, highwayOf_of_toNat_eq hk, State.signallingData, hname, hslots]
  cases (s.sup k).lastEvaluation <;> rfl

/-- Settles O27: the data of a highway's supervisor, and the bits of each slot. -/
theorem readSignalingGivesEverySlot : Obligations.ReadSignalingGivesEverySlot := by
  refine fun p tag highway s hr => ⟨fun h => ?_, fun k hk => ?_⟩
  · exact congrArg _ (takeCommand_of_unchanged hr (.readSignaling highway) (runReadSignaling_of_bad h))
  · have hrun := runReadSignaling_of_good (s := s.started p tag (.readSignaling highway)) hk
    have hsame : (s.started p tag (.readSignaling highway)).slotOctets k s.draws = s.slotOctets k s.draws := by
      simp only [State.slotOctets, started_slotState]
    rw [started_receiver, started_sup, started_draws, hsame] at hrun
    refine ⟨s.slotOctets k s.draws, congrArg _ (takeCommand_of_commutes_setPort hr (.readSignaling highway)
      State.useDraw (setPort_useDraw · p) hrun), fun n => ?_⟩
    have hn : (s.slotOctets k s.draws)[n] = (s.slotState k n).octet (Config.unstated s.draws n.val) := by
      simp [State.slotOctets]
    rw [hn]
    obtain ⟨h7, h6, h5, h4, hcode⟩ := slotBits (s.slotState k n).watched (s.slotState k n).candidate.isSome
      (s.slotState k n).stable.isSome ((s.slotState k n).stable.getD (lowCode (Config.unstated s.draws n.val)))
    refine ⟨h7, h6, h5, h4, fun c hc => hcode.trans ?_⟩
    rw [hc]
    rfl

end Sys2Proof.Machine
end

section
/-! SUPPORT. ARM_CAPTURE (R162): the source, the trigger and the length that its octets name, and its refusals in order. -/

namespace Sys2Proof.Machine

section
variable {kind highway slot trigger a b c high low : Octet}

theorem slotOf_of_toNat_eq {o : Octet} {n : Slot} (h : o.toNat = n.val) : slotOf o = some n := by
  simp [slotOf, h]

theorem slotOf_of_gt {o : Octet} (h : 63 < o.toNat) : slotOf o = none := by
  simp [slotOf, Nat.not_lt.mpr h]

/-- The source that octets in range name. -/
theorem sourceOf_of_good {k : Highway} {n : Slot} (hk : kind.toNat ≤ 1) (hh : highway.toNat = k.val)
    (hn : slot.toNat = n.val) :
    sourceOf kind highway slot = some (if kind = 0 then .input k n else .output k n) := by
  unfold sourceOf
  rw [flagOf_of_le_one hk, highwayOf_of_toNat_eq hh, slotOf_of_toNat_eq hn]
  by_cases h0 : kind = 0
  · rw [if_pos h0, decide_eq_false (by simpa using h0)]
  · rw [if_neg h0, decide_eq_true h0]

theorem sourceOf_of_bad (h : 1 < kind.toNat ∨ 7 < highway.toNat ∨ 63 < slot.toNat) :
    sourceOf kind highway slot = none := by
  unfold sourceOf
  obtain h | h | h := h
  · rw [flagOf_of_gt_one h]
  · rw [highwayOf_of_gt h]
    cases flagOf kind with
    | none => rfl
    | some x => cases x <;> rfl
  · rw [slotOf_of_gt h]
    cases flagOf kind with
    | none => rfl
    | some x => cases x <;> cases highwayOf highway <;> rfl

/-- The octets of a trigger in range, with the trigger that they name (R162). -/
def namesTrigger (trigger a b c : Octet) (t : Trigger) : Prop :=
  trigger = 0 ∧ t = .now ∨ trigger = 1 ∧ t = .octet a ∨
    trigger = 2 ∧ ∃ (h : Highway) (m : Slot), a.toNat = h.val ∧ b.toNat = m.val ∧ c.toNat ≤ 15 ∧
      t = .code h m (BitVec.ofNat 4 c.toNat)

theorem lowCode_eq_ofNat (c : Octet) : lowCode c = BitVec.ofNat 4 c.toNat := by
  simp [lowCode, BitVec.extractLsb', BitVec.ofNat_toNat]

theorem triggerOf_of_good {t : Trigger} (h : namesTrigger trigger a b c t) : triggerOf trigger a b c = some t := by
  obtain ⟨rfl, rfl⟩ | ⟨rfl, rfl⟩ | ⟨rfl, k, m, hk, hm, hc, rfl⟩ := h
  · rfl
  · rfl
  · simp [triggerOf, highwayOf_of_toNat_eq hk, slotOf_of_toNat_eq hm, Nat.not_lt.mpr hc, lowCode_eq_ofNat]

theorem triggerOf_of_bad (h : 2 < trigger.toNat ∨ trigger = 2 ∧ (7 < a.toNat ∨ 63 < b.toNat ∨ 15 < c.toNat)) :
    triggerOf trigger a b c = none := by
  obtain h | ⟨rfl, h⟩ := h
  · have h0 : trigger ≠ 0 := by bv_omega
    have h1 : trigger ≠ 1 := by bv_omega
    have h2 : trigger ≠ 2 := by bv_omega
    exact (if_neg h0).trans ((if_neg h1).trans (if_neg h2))
  · refine (show _ = (match highwayOf a, slotOf b with
      | some k, some n => if 15 < c.toNat then none else some (Trigger.code k n (lowCode c))
      | _, _ => none) from rfl).trans ?_
    cases ha : highwayOf a with
    | none => rfl
    | some k =>
      cases hb : slotOf b with
      | none => rfl
      | some n =>
        have ha' : ¬ 7 < a.toNat := fun hgt => by rw [highwayOf_of_gt hgt] at ha; cases ha
        have hb' : ¬ 63 < b.toNat := fun hgt => by rw [slotOf_of_gt hgt] at hb; cases hb
        exact if_pos (by omega)

theorem lengthOf_of_good (h1 : 1 ≤ (high ++ low).toNat) (h2 : (high ++ low).toNat ≤ 1024) :
    lengthOf high low = some (high ++ low).toNat :=
  if_neg (show ¬ ((high ++ low).toNat = 0 ∨ 1024 < (high ++ low).toNat) by omega)

theorem lengthOf_of_bad (h : (high ++ low).toNat = 0 ∨ 1024 < (high ++ low).toNat) : lengthOf high low = none :=
  if_pos h

variable {s : State} {p : PortId}

theorem runArmCapture_of_bad_argument (hl : s.holdsLease p = true)
    (h : sourceOf kind highway slot = none ∨ triggerOf trigger a b c = none ∨ lengthOf high low = none) :
    runArmCapture p kind highway slot trigger a b c high low s = (s, .reply (refusal .badArgument)) := by
  refine (if_pos hl).trans ?_
  obtain h | h | h := h
  · rw [h]
  · rw [h]
    cases sourceOf kind highway slot <;> rfl
  · rw [h]
    cases sourceOf kind highway slot with
    | none => rfl
    | some x => cases triggerOf trigger a b c <;> rfl

variable {source : Source} {t : Trigger} {n : Nat} (hl : s.holdsLease p = true)
  (hs : sourceOf kind highway slot = some source) (ht : triggerOf trigger a b c = some t)
  (hn : lengthOf high low = some n)
include hl hs ht hn

theorem runArmCapture_of_busy (hb : s.capture.busy = true) :
    runArmCapture p kind highway slot trigger a b c high low s = (s, .reply (refusal .captureBusy)) := by
  refine (if_pos hl).trans ?_
  simp only [hs, ht, hn]
  exact if_pos hb

theorem runArmCapture_of_disabled_source (hb : s.capture.busy = false) (hd : s.sourceDisabled source = true) :
    runArmCapture p kind highway slot trigger a b c high low s = (s, .reply (refusal .badArgument)) := by
  refine (if_pos hl).trans ?_
  simp only [hs, ht, hn]
  exact (if_neg (by simp [hb])).trans (if_pos hd)

theorem runArmCapture_of_good (hb : s.capture.busy = false) (hd : s.sourceDisabled source = false) :
    runArmCapture p kind highway slot trigger a b c high low s =
      ((s.setCapture
          { phase := .armed { source := source, trigger := t, length := n }, filling := [], ready := []
            nextSequence := s.capture.nextSequence }).useDraw,
        .reply (okReply ([kind, highway, slot, trigger] ++ triggerOctets trigger a b c s.draws ++
          [high, low, s.capture.nextSequence]))) := by
  refine (if_pos hl).trans ?_
  simp only [hs, ht, hn]
  exact (if_neg (by simp [hb])).trans (if_neg (by simp [hd]))

end

/-- Of the trigger octets in the response, those that the kind uses are as received. -/
theorem triggerOctets_eq (kind a b c : Octet) (hk : kind = 0 ∨ kind = 1 ∨ kind = 2) (draw : Nat) : ∃ a' b' c' : Octet,
    triggerOctets kind a b c draw = [a', b', c'] ∧ (kind ≠ 0 → a' = a) ∧ (kind = 2 → b' = b ∧ c' = c) := by
  obtain rfl | rfl | rfl := hk
  · exact ⟨_, _, _, rfl, fun h => absurd rfl h, fun h => by cases h⟩
  · exact ⟨_, _, _, rfl, fun _ => rfl, fun h => by cases h⟩
  · exact ⟨_, _, _, rfl, fun _ => rfl, fun _ => ⟨rfl, rfl⟩⟩

theorem busy_of_job {u : Capture} (hj : u.phase.job ≠ none)
    (he : ∀ how job i st, u.phase = .ended how job i st → u.ready ≠ []) : u.busy = true := by
  unfold Capture.busy
  cases hp : u.phase with
  | idle => simp [hp, Phase.job] at hj
  | armed _ => rfl
  | running _ _ _ => rfl
  | ended how job i st => simpa using he how job i st hp

theorem not_busy_of_free {u : Capture}
    (h : u.phase = .idle ∨ ∃ how job i st, u.phase = .ended how job i st ∧ u.ready = []) : u.busy = false := by
  obtain h | ⟨how, job, i, st, h, hr⟩ := h
  · simp [Capture.busy, h]
  · simp [Capture.busy, h, hr]

/-- Settles O31: the refusals of `runArmCapture` in their order, and its arming. -/
theorem armCaptureArms : Obligations.ArmCaptureArms := by
  intro p tag kind highway slot trigger a b c high low s hr hl
  have hl' : (s.started p tag (.armCapture kind highway slot trigger a b c high low)).holdsLease p = true := by
    simpa using hl
  refine ⟨fun hbad => ?_, fun k n t hk hh hn ht h1 h2 => ⟨fun ⟨hj, he⟩ => ?_, fun hfree => ⟨fun hk1 hoff => ?_, fun hon => ?_⟩⟩⟩
  · refine congrArg _ (takeCommand_of_unchanged hr (.armCapture kind highway slot trigger a b c high low)
      (runArmCapture_of_bad_argument hl' ?_))
    rcases hbad with h | h | h | h | h | h
    · exact .inl (sourceOf_of_bad (.inl h))
    · exact .inl (sourceOf_of_bad (.inr (.inl h)))
    · exact .inl (sourceOf_of_bad (.inr (.inr h)))
    · exact .inr (.inl (triggerOf_of_bad (.inl h)))
    · exact .inr (.inl (triggerOf_of_bad (.inr h)))
    · exact .inr (.inr (lengthOf_of_bad h))
  all_goals
    have hsource := sourceOf_of_good hk hh hn
    have htrigger := triggerOf_of_good ht
    have hlength := lengthOf_of_good h1 h2
  · exact congrArg _ (takeCommand_of_unchanged hr (.armCapture kind highway slot trigger a b c high low)
      (runArmCapture_of_busy hl' hsource htrigger hlength (by simpa using busy_of_job hj he)))
  · refine congrArg _ (takeCommand_of_unchanged hr (.armCapture kind highway slot trigger a b c high low)
      (runArmCapture_of_disabled_source hl' hsource htrigger hlength (by simpa using not_busy_of_free hfree) ?_))
    have h0 : kind ≠ 0 := by rw [hk1]; decide
    rw [if_neg h0]
    simp [State.sourceDisabled, hoff]
  · obtain ⟨a', b', c', htrig, ha, hbc⟩ := triggerOctets_eq trigger a b c
      (by obtain ⟨h, -⟩ | ⟨h, -⟩ | ⟨h, -⟩ := ht <;> simp [h]) s.draws
    have hsrc : (s.started p tag (.armCapture kind highway slot trigger a b c high low)).sourceDisabled
        (if kind = 0 then .input k n else .output k n) = false := by
      by_cases h0 : kind = 0
      · rw [if_pos h0]; rfl
      · have hk1 : kind = 1 := by bv_omega
        rw [if_neg h0]
        simp [State.sourceDisabled, hon hk1]
    have hrun := runArmCapture_of_good hl' hsource htrigger hlength (by simpa using not_busy_of_free hfree) hsrc
    rw [started_capture, started_draws, htrig] at hrun
    exact ⟨a', b', c', congrArg _ (takeCommand_of_commutes_setPort hr
      (.armCapture kind highway slot trigger a b c high low)
      (fun u => (u.setCapture _).useDraw) (fun u x => by rw [setPort_setCapture, setPort_useDraw]) hrun), ha, hbc⟩

end Sys2Proof.Machine
end

section
/-! SUPPORT. What an event brings to the ports: a NOTICE at the tail, or a drop that is counted (R123, R125). The commands
that raise an event: CLEAR_STANDBY, SET_OUTPUT and ABORT_COMMIT. -/

namespace Sys2Proof.Machine

/-! ### A NOTICE at a port (R123, R125) -/

/-- A NOTICE as it waits to be sent: its lead, length, tag and code (R123). -/
def Place.isNotice (x : Place) : Prop :=
  ∃ notice : List Octet, x = .message notice none ∧ notice.take 4 = [0xB4, 0x08, 0x00, 0xC0] ∧ 7 ≤ notice.length

theorem notice_take (l : EventList) : l.notice.take 4 = [0xB4, 0x08, 0x00, 0xC0] := rfl

theorem notice_isNotice (l : EventList) : (Place.message l.notice none).isNotice :=
  ⟨_, rfl, notice_take l, of_decide_eq_true rfl⟩

/-- A port that drops a NOTICE counts it (R125). -/
def Port.dropping (x : Port) : Port := { x with counters := { x.counters with dropped := saturate x.counters.dropped } }

/-- A port after the offer of a NOTICE (R123, R125). -/
def Port.offered (x : Port) (enabled : Bool) (notice : List Octet) : Port :=
  if enabled then
    if x.hasPlace then { x with transmit := x.transmit ++ [.message notice none] } else x.dropping
  else x

theorem noticeDropped_port (s : State) (p q : PortId) :
    (s.noticeDropped p).port q = if p = q then (s.port p).dropping else s.port q := by
  simp [State.noticeDropped, State.takeOccurrence, State.countPort, Port.dropping]

theorem queueNotice_port (s : State) (p q : PortId) (n : List Octet) :
    (s.queueNotice p n).port q =
      if p = q ∧ s.portEnabled p = true ∧ (s.port p).hasPlace = true then
        { s.port p with transmit := (s.port p).transmit ++ [.message n none] }
      else s.port q := by
  unfold State.queueNotice
  by_cases h : s.portEnabled p = true ∧ (s.port p).hasPlace = true
  · simp [h]
  · rw [if_neg (by simpa using h), if_neg fun hc => h hc.2]

theorem queueNotice_straps (s : State) (p : PortId) (n : List Octet) : (s.queueNotice p n).straps = s.straps :=
  (sameButNews_queueNotice s p n).touches.straps (by simp)

theorem queueNotice_portEnabled (s : State) (p q : PortId) (n : List Octet) :
    (s.queueNotice p n).portEnabled q = s.portEnabled q :=
  (sameButNews_queueNotice s p n).touches.portEnabled q (by simp)

/-- Both queues after a NOTICE has entered where there is a place. -/
theorem queueNotices_port (s : State) (n : List Octet) (p : PortId) :
    ((s.queueNotice .a n).queueNotice .b n).port p =
      if s.portEnabled p = true ∧ (s.port p).hasPlace = true then
        { s.port p with transmit := (s.port p).transmit ++ [.message n none] }
      else s.port p := by
  cases p <;> simp [queueNotice_port, queueNotice_portEnabled]

/-- The drops of an offer are counted, in whichever order they are taken (R125). -/
theorem offerNotices_dropping (s : State) (p : PortId) :
    s.offerNotices.port p =
      if s.dropsNotice p then (((s.queueNotice .a s.events.notice).queueNotice .b s.events.notice).port p).dropping
      else ((s.queueNotice .a s.events.notice).queueNotice .b s.events.notice).port p := by
  unfold State.offerNotices
  simp only
  generalize (s.queueNotice .a s.events.notice).queueNotice .b s.events.notice = t
  cases ha : s.dropsNotice .a <;> cases hb : s.dropsNotice .b
  · cases p <;> simp [ha, hb]
  · cases p <;> simp [ha, hb, noticeDropped_port]
  · cases p <;> simp [ha, hb, noticeDropped_port]
  · cases p <;> cases Config.dropOrder t.draws <;> simp [ha, hb, noticeDropped_port, useDraw_port]

/-- Each port after the offers of a NOTICE, whatever the other does with its own (R123, R125). -/
theorem offerNotices_port (s : State) (p : PortId) :
    s.offerNotices.port p = (s.port p).offered (s.portEnabled p) s.events.notice := by
  rw [offerNotices_dropping, queueNotices_port]
  unfold Port.offered State.dropsNotice
  cases s.portEnabled p <;> cases (s.port p).hasPlace <;> rfl

/-! ### What news changes of a port -/

/-- Port `y` is port `x` after news: NOTICEs at the tail, as long as there is a place, and drops that are counted. -/
def Port.hears (x y : Port) : Prop :=
  ∃ more counters, y = { x with transmit := x.transmit ++ more, counters := counters } ∧
    (∀ z ∈ more, z.isNotice) ∧ (more ≠ [] → y.transmit.length ≤ 6)

theorem Port.hears.refl (x : Port) : x.hears x := ⟨[], x.counters, by simp, by simp, by simp⟩

theorem Port.hears.trans {x y z : Port} (h : x.hears y) (h' : y.hears z) : x.hears z := by
  obtain ⟨m, c, rfl, hm, hl⟩ := h
  obtain ⟨m', c', rfl, hm', hl'⟩ := h'
  refine ⟨m ++ m', c', by simp, fun z hz => (List.mem_append.mp hz).elim (hm z) (hm' z), fun hne => ?_⟩
  by_cases h' : m' = []
  · subst h'
    simpa using hl (by simpa using hne)
  · exact hl' h'

theorem hears_offered (x : Port) (enabled : Bool) (l : EventList) : x.hears (x.offered enabled l.notice) := by
  unfold Port.offered
  split
  · split
    · rename_i h
      refine ⟨[.message l.notice none], x.counters, rfl, by simpa using notice_isNotice l, fun _ => ?_⟩
      have hlt : x.transmit.length < 6 := of_decide_eq_true h
      simpa using hlt
    · exact ⟨[], { x.counters with dropped := saturate x.counters.dropped }, by simp [Port.dropping], by simp, by simp⟩
  · exact .refl x

/-- State `t` is state `s` after news: the list, the count of free values, and what each enabled port hears. -/
structure State.hears (s t : State) : Prop where
  same  : s.sameButNews t
  ports : ∀ p, (s.port p).hears (t.port p)
  off   : ∀ p, s.portEnabled p = false → t.port p = s.port p

theorem State.hears.refl (s : State) : s.hears s := ⟨sameButNews_refl s, fun _ => .refl _, fun _ _ => rfl⟩

theorem State.hears.trans {s t u : State} (h : s.hears t) (h' : t.hears u) : s.hears u :=
  ⟨sameButNews_trans h.same h'.same, fun p => (h.ports p).trans (h'.ports p), fun p hp =>
    (h'.off p ((h.same.touches.portEnabled p (by simp)).trans hp)).trans (h.off p hp)⟩

theorem hears_setEvents (s : State) (l : EventList) : s.hears (s.setEvents l) :=
  ⟨sameButNews_setEvents s l, fun p => by rw [setEvents_port]; exact .refl _, fun p _ => by rw [setEvents_port]⟩

theorem hears_offerNotices (s : State) : s.hears s.offerNotices :=
  ⟨sameButNews_offerNotices s, fun p => by rw [offerNotices_port]; exact hears_offered _ _ _, fun p hp => by
    rw [offerNotices_port, Port.offered, if_neg (by simp [hp])]⟩

theorem hears_settleAttention (s : State) : s.hears s.settleAttention := by
  unfold State.settleAttention
  split
  · exact .refl s
  · split
    · exact (hears_setEvents s _).trans (hears_offerNotices _)
    · exact hears_setEvents s _

theorem hears_raise (s : State) (key : EventKey) (v : EventValue) : s.hears (s.raise key v) :=
  (hears_setEvents s _).trans (hears_settleAttention _)

theorem hears_holdTick (s : State) : s.hears s.holdTick := by
  unfold State.holdTick
  split
  · exact .refl s
  · split
    · exact .refl s
    · exact (hears_setEvents s _).trans (hears_settleAttention _)

theorem hears_timerTick (s : State) (running : Option Octet) (delivered : Bool) :
    s.hears (s.timerTick running delivered) := by
  unfold State.timerTick
  split
  · exact .refl s
  · split
    · exact hears_setEvents s _
    · split
      · exact .refl s
      · exact (hears_setEvents s _).trans (hears_offerNotices _)

theorem hears_listTick (s : State) (timerFirst delivered : Bool) : s.hears (s.listTick timerFirst delivered) := by
  unfold State.listTick
  split
  · exact (hears_timerTick s _ _).trans (hears_holdTick _)
  · exact (hears_holdTick s).trans (hears_timerTick _ _ _)

/-! ### Commands that raise events -/

/-- A command whose block does `f`, which touches no port, and then spreads news: the response stands before what the
news has brought, and nothing else comes of it. -/
theorem takeCommand_of_news {s u : State} {p : PortId} {tag : Octet} (h : s.ready p tag) (c : Command) {r : Reply}
    (f : State → State) (hf : ∀ t x, f (t.setPort p x) = (f t).setPort p x)
    (hrun : runCommand p (queuedCommand tag c) (s.started p tag c) = (u, .reply r))
    (hu : (f (s.started p tag c)).hears u) :
    (f (s.renewLease p)).sameButNews (s.takeCommand p tag c) ∧ (s.takeCommand p tag c).events = u.events ∧
    (∀ q, q ≠ p → (s.takeCommand p tag c).port q = u.port q) ∧
    ∃ more counters, (u.port p).transmit = (s.port p).transmit ++ .reserved .command :: more ∧
      (s.takeCommand p tag c).port p =
      { s.port p with
        transmit := (s.port p).transmit ++ .message (responseMessage tag c.code r) none :: more
        cache := s.cacheWith p tag c (.done (responseMessage tag c.code r))
        counters := counters } := by
  have hport (t : State) : (f t).port p = t.port p := by
    have hself := hf t (t.port p)
    rw [setPort_same] at hself
    rw [hself]
    simp
  obtain ⟨more, counters, hp, -, -⟩ := hu.ports p
  rw [hport, started_port] at hp
  have hcommands := h.2.1
  have hreply := complete_reply_of_started (u := u) h c r (more := more) (by rw [hp]) (by rw [hp]; simp) (by rw [hp])
  have ht := (takeCommand_of_ready h c).trans (by rw [hrun, hreply])
  rw [ht]
  refine ⟨?_, by simp, fun q hq => by simp [hq.symm], more, counters, by rw [hp]; simp, by simp [hp, hcommands]⟩
  have hstart : (f (s.renewLease p)).sameButNews (f (s.started p tag c)) := by
    rw [started_eq, hf]
    exact sameButNews_setPort _ _ _
  exact sameButNews_trans (sameButNews_trans hstart hu.same) (sameButNews_setPort _ _ _)

/-! ### CLEAR_STANDBY (R17, R18, R32) -/

section
variable {s : State} {p : PortId}

theorem runClearStandby_of_pending (hl : s.holdsLease p = true) (he : s.engine.isPending = true) :
    runClearStandby p s = (s, .reply (refusal .commitPending)) := by
  cases hg : s.engine with
  | pending r => simp [runClearStandby, State.leased, hl, hg]
  | idle => simp [hg, Engine.isPending] at he
  | syncing pos marks => simp [hg, Engine.isPending] at he

theorem runClearStandby_of_idle (hl : s.holdsLease p = true) (he : s.engine = .idle) :
    runClearStandby p s = (s.clearStandbyBank, .reply (okReply [bankOctet s.standbyBank, 0x00])) := by
  simp only [runClearStandby, State.leased, hl, he, if_true]
  rfl

theorem runClearStandby_of_syncing (hl : s.holdsLease p = true) {pos : Highway} {marks : Marks}
    (he : s.engine = .syncing pos marks) :
    runClearStandby p s = ((s.clearStandbyBank.setEngine .idle).raise .commit .syncCancelled,
      .reply (okReply [bankOctet s.standbyBank, 0x01])) := by
  simp only [runClearStandby, State.leased, hl, he, if_true]
  rfl

end

theorem started_clearStandbyBank (s : State) (p : PortId) (tag : Octet) (c : Command) :
    (s.started p tag c).clearStandbyBank =
      (s.started p tag c).setBank s.standbyBank (clearedBank s.straps (s.bank s.standbyBank)) := by
  simp [State.clearStandbyBank]

/-- Settles O18: the three outcomes of `runClearStandby` at the start of the command. -/
theorem clearStandbyClears : Obligations.ClearStandbyClears := by
  intro p tag s hr hl
  have hl' : (s.started p tag .clearStandby).holdsLease p = true := by simpa using hl
  refine ⟨fun he => ?_, fun he => ⟨clearedBank s.straps (s.bank s.standbyBank), fun k n => ?_, fun hi => ?_, ?_⟩⟩
  · exact congrArg _ (takeCommand_of_unchanged hr .clearStandby
      (runClearStandby_of_pending hl' (by simpa using he)))
  · rw [clearedBank_get]
    rfl
  · have hrun := runClearStandby_of_idle hl' (by simpa using hi)
    rw [started_clearStandbyBank, started_standbyBank] at hrun
    exact congrArg _ (takeCommand_of_commutes_setPort hr .clearStandby (State.setBank · _ _)
      (fun t x => setPort_setBank t p x _ _) hrun)
  · rintro ⟨pos, marks, hs⟩
    have hrun := runClearStandby_of_syncing hl' (by simpa using hs)
    rw [started_clearStandbyBank, started_standbyBank] at hrun
    obtain ⟨hsame, hevents, -, more, counters, -, hport⟩ := takeCommand_of_news hr .clearStandby
      (fun t => (t.setBank s.standbyBank (clearedBank s.straps (s.bank s.standbyBank))).setEngine .idle)
      (fun t x => by rw [setPort_setBank, setPort_setEngine]) hrun (hears_raise _ _ _)
    refine ⟨_, rfl, hsame, fun hadmits => ?_, more, by rw [hport]; rfl⟩
    rw [hevents]
    exact raise_reports (by simpa using hadmits) (by simp) _

end Sys2Proof.Machine
end

section
/-! SUPPORT. SET_OUTPUT and ABORT_COMMIT (R27, R86, R168). -/

namespace Sys2Proof.Machine

/-! ### SET_OUTPUT (R86, R168) -/

section
variable {s : State} {p : PortId} {highway enable idleOctet idleCode : Octet}

theorem runSetOutput_of_bad_argument (hl : s.holdsLease p = true)
    (h : 7 < highway.toNat ∨ 1 < enable.toNat ∨ 15 < idleCode.toNat) :
    runSetOutput p highway enable idleOctet idleCode s = (s, .reply (refusal .badArgument)) := by
  refine (if_pos hl).trans ?_
  cases hk : highwayOf highway with
  | none => rfl
  | some k =>
    cases hv : flagOf enable with
    | none => rfl
    | some v =>
      have hhighway : ¬ 7 < highway.toNat := fun hgt => by simp [highwayOf_of_gt hgt] at hk
      have henable : ¬ 1 < enable.toNat := fun hgt => by simp [flagOf_of_gt_one hgt] at hv
      exact if_pos (by omega)

variable {k : Highway} (hl : s.holdsLease p = true) (hk : highway.toNat = k.val) (he : enable.toNat ≤ 1)
include hl hk he

theorem runSetOutput_of_protected (hc : idleCode.toNat ≤ 15) (h0 : enable = 0) (hm : s.isMgmtHighway k = true) :
    runSetOutput p highway enable idleOctet idleCode s = (s, .reply (refusal .protectedSlot)) := by
  refine (if_pos hl).trans ?_
  simp only [highwayOf_of_toNat_eq hk, flagOf_of_le_one he]
  exact (if_neg (by omega)).trans (if_pos (by simp [h0, hm]))

/-- The output assembler after a SET_OUTPUT (R86). -/
def State.withOutput (s : State) (k : Highway) (enable idleOctet idleCode : Octet) : State :=
  s.setOutput k { s.output k with
    enabled := enable == 1, idleOctet := idleOctet, idleCode := BitVec.ofNat 4 idleCode.toNat }

/-- An accepted SET_OUTPUT: the three items, and a capture of a highway that it disables (R86, R168). -/
theorem runSetOutput_of_good (hc : idleCode.toNat ≤ 15) (hm : enable = 1 ∨ s.isMgmtHighway k = false) :
    runSetOutput p highway enable idleOctet idleCode s =
      (if (s.output k).enabled = true ∧ enable = 0 then
          (s.withOutput k enable idleOctet idleCode).breakCapture (Source.onOutput k)
        else s.withOutput k enable idleOctet idleCode,
        .reply (okReply [highway, enable, idleOctet, idleCode])) := by
  have hflag : decide (enable ≠ 0) = (enable == 1) := by
    rw [beq_eq_decide]
    exact decide_eq_decide.mpr (by bv_omega)
  have hgo : ¬ (!(enable == 1) && s.isMgmtHighway k) = true := by
    obtain rfl | hm := hm
    · simp
    · simp [hm]
  have hoff : ((s.output k).enabled && !(enable == 1)) = true ↔ (s.output k).enabled = true ∧ enable = 0 := by
    rw [Bool.and_eq_true, Bool.not_eq_true', beq_eq_false_iff_ne]
    exact and_congr_right fun _ => by bv_omega
  refine (if_pos hl).trans ?_
  simp only [highwayOf_of_toNat_eq hk, flagOf_of_le_one he, hflag]
  refine (if_neg (by omega)).trans ((if_neg hgo).trans ?_)
  simp only [hoff, lowCode_eq_ofNat]
  rfl

end

/-- Of a capture that does not run on the highway that goes down, nothing breaks (R168). -/
theorem breakCapture_of_other {s : State} {down : Source → Bool}
    (h : ∀ job captured stamp, s.capture.phase = .running job captured stamp → down job.source = false) :
    s.breakCapture down = s := by
  unfold State.breakCapture
  cases hp : s.capture.phase with
  | running job captured stamp => exact if_neg (by simp [h job captured stamp hp])
  | idle | armed _ | ended _ _ _ _ => rfl

/-- A RUNNING capture of the highway that goes down is broken (R168). -/
theorem breakCapture_of_running {s : State} {down : Source → Bool} {job : Job} {captured : Nat} {stamp : Stamp}
    (h : s.capture.phase = .running job captured stamp) (hd : down job.source = true) :
    s.breakCapture down = (s.setCapture (s.capture.break job captured stamp)).raise .capture .broken := by
  unfold State.breakCapture
  rw [h]
  exact if_pos hd

/-- What a capture that breaks leaves (R168). -/
theorem break_eq (u : Capture) (job : Job) (captured : Nat) (stamp : Stamp) :
    u.break job captured stamp =
      { u with
        phase := .ended .broken job captured stamp, filling := []
        ready := u.ready ++
          (if u.filling = [] then [] else [{ sequence := u.nextSequence, final := true, octets := u.filling }])
        nextSequence := u.nextSequence + (if u.filling = [] then 0 else 1) } := by
  unfold Capture.break
  cases hf : u.filling with
  | nil => simp [hf]
  | cons o os => simp [Capture.makeReady]

theorem setPort_withOutput (t : State) (p : PortId) (x : Port) (k : Highway) (e o c : Octet) :
    (t.setPort p x).withOutput k e o c = (t.withOutput k e o c).setPort p x := by
  simp only [State.withOutput, setPort_output, setPort_setOutput]

/-- Settles O23: the refusals of `runSetOutput`, and its accepted case with and without a capture to break. -/
theorem setOutputStores : Obligations.SetOutputStores := by
  intro p tag highway enable idleOctet idleCode s hr hl
  have hl' : (s.started p tag (.setOutput highway enable idleOctet idleCode)).holdsLease p = true := by simpa using hl
  refine ⟨fun h => ?_, fun k hk he hc => ⟨fun h0 hm => ?_, fun hm hquiet => ?_,
    fun job captured stamp h0 hm hen hrun hsrc => ?_⟩⟩
  · exact congrArg _ (takeCommand_of_unchanged hr (.setOutput highway enable idleOctet idleCode)
      (runSetOutput_of_bad_argument hl' h))
  · exact congrArg _ (takeCommand_of_unchanged hr (.setOutput highway enable idleOctet idleCode)
      (runSetOutput_of_protected hl' hk he hc h0 (by simpa [State.isMgmtHighway] using hm)))
  · have hrun := runSetOutput_of_good (idleOctet := idleOctet) hl' hk he hc
      (hm.imp_right fun h => by simp [State.isMgmtHighway, h])
    have hsame : (if ((s.started p tag (.setOutput highway enable idleOctet idleCode)).output k).enabled = true ∧
        enable = 0 then
          ((s.started p tag (.setOutput highway enable idleOctet idleCode)).withOutput k enable idleOctet
            idleCode).breakCapture (Source.onOutput k)
        else (s.started p tag (.setOutput highway enable idleOctet idleCode)).withOutput k enable idleOctet idleCode) =
        (s.started p tag (.setOutput highway enable idleOctet idleCode)).withOutput k enable idleOctet idleCode := by
      split
      · rename_i hoff
        refine breakCapture_of_other fun job captured stamp hphase => ?_
        by_contra hsrc
        rcases hquiet job captured stamp (by simpa [State.withOutput] using hphase) (by simpa using hsrc) with h1 | h2
        · rw [h1] at hoff
          exact absurd hoff.2 (by decide)
        · rw [started_output, h2] at hoff
          cases hoff.1
      · rfl
    rw [hsame] at hrun
    refine (congrArg Host.Outcome.next (takeCommand_of_commutes_setPort hr
      (.setOutput highway enable idleOctet idleCode) (State.withOutput · k enable idleOctet idleCode)
      (fun t x => setPort_withOutput t p x _ _ _ _) hrun)).trans ?_
    simp [State.withOutput, (touches_renewLease s p).output k (by simp)]
  · have hrun' := runSetOutput_of_good (idleOctet := idleOctet) hl' hk he hc
      (.inr (by simp [State.isMgmtHighway, hm]))
    rw [if_pos ⟨by simpa using hen, h0⟩, breakCapture_of_running (job := job) (captured := captured) (stamp := stamp)
      (by simpa [State.withOutput] using hrun) hsrc] at hrun'
    obtain ⟨hsame, hevents, -, -⟩ := takeCommand_of_news hr (.setOutput highway enable idleOctet idleCode)
      (fun t => (t.withOutput k enable idleOctet idleCode).setCapture (s.capture.break job captured stamp))
      (fun t x => by rw [setPort_withOutput, setPort_setCapture]) hrun'
      (by simpa [State.withOutput] using hears_raise _ _ _)
    have hcapture := hsame.touches.capture (by simp)
    refine ⟨_, rfl, ?_, ?_, fun hadmits => ?_, ?_⟩
    · rw [hcapture]
      rfl
    · rw [hcapture]
      exact congrArg Capture.filling (break_eq s.capture job captured stamp)
    · rw [hevents]
      exact raise_reports (by simpa [State.withOutput] using hadmits) (by simp) _
    · rw [hcapture]
      have h1 : (enable == 1) = false := by rw [h0]; rfl
      simp only [State.withOutput, h1, (touches_renewLease s p).output k (by simp)] at hsame
      exact hsame

/-! ### The cache of a port (R135, R137, R140) -/

/-- An entry that becomes DONE is the one that stood under its tag (R140). -/
theorem find_completeEntry (tag : Octet) (m : List Octet) (cache : List CacheEntry) :
    (completeEntry tag m cache).find? (fun e => e.tag = tag) =
      (cache.find? fun e => e.tag = tag).map fun e => { e with state := .done m } := by
  induction cache with
  | nil => rfl
  | cons e es ih =>
    unfold completeEntry at ih ⊢
    by_cases h : e.tag = tag <;> simp [h, ih]

theorem find_completeEntry_other {tag tag' : Octet} (h : tag' ≠ tag) (m : List Octet) (cache : List CacheEntry) :
    (completeEntry tag m cache).find? (fun e => e.tag = tag') = cache.find? fun e => e.tag = tag' := by
  induction cache with
  | nil => rfl
  | cons e es ih =>
    unfold completeEntry at ih ⊢
    by_cases he : e.tag = tag
    · simp [he, h.symm, ih]
    · by_cases he' : e.tag = tag' <;> simp [he, he', h, ih]

/-- An IN_PROGRESS entry is not evicted (R137). -/
theorem find_evictDone {P : CacheEntry → Bool} {cache : List CacheEntry} {e : CacheEntry} (h : cache.find? P = some e)
    (he : e.state = .inProgress) : (evictDone cache).find? P = some e := by
  induction cache with
  | nil => cases h
  | cons a es ih =>
    rw [List.find?_cons] at h
    unfold evictDone
    cases hp : P a with
    | true =>
      obtain rfl : a = e := by simpa [hp] using h
      simp [he, CacheState.isDone, hp]
    | false =>
      have h' : es.find? P = some e := by simpa [hp] using h
      split
      · exact h'
      · simp [hp, ih h']

/-- A new entry leaves what an IN_PROGRESS one is found as (R137). -/
theorem find_insertEntry {P : CacheEntry → Bool} {cache : List CacheEntry} {e : CacheEntry} (h : cache.find? P = some e)
    (he : e.state = .inProgress) (x : CacheEntry) : (insertEntry x cache).find? P = some e := by
  unfold insertEntry
  rw [List.find?_append]
  split
  · rw [h]
    rfl
  · rw [find_evictDone h he]
    rfl

theorem find_cacheWith {s : State} {p : PortId} {t : Octet} {e : CacheEntry} (h : (s.port p).cached t = some e)
    (he : e.state = .inProgress) (tag : Octet) (c : Command) (x : CacheState) :
    (s.cacheWith p tag c x).find? (fun y => y.tag = t) = some e := by
  unfold State.cacheWith
  split
  · exact h
  · exact find_insertEntry h he _

/-! ### A response behind whatever its port holds (R140, R141) -/

/-- A response stands where its place was reserved, whatever stands before and behind it. -/
theorem complete_reply_of_place {u : State} {p : PortId} {q : Queued} {rest : List Queued} {tx more : List Place}
    (r : Reply) (hc : (u.port p).commands = q :: rest) (ht : (u.port p).transmit = tx ++ .reserved .command :: more)
    (hn : tx.any (Place.isReservedFor .command) = false) :
    u.complete p q (.reply r) = u.setPort p
      { u.port p with
        commands := rest
        transmit := tx ++ .message (responseMessage q.tag q.command.code r) none :: more
        cache :=
          if q.cached then completeEntry q.tag (responseMessage q.tag q.command.code r) (u.port p).cache
          else (u.port p).cache } := by
  simp [State.complete, State.dropHead, State.answerCommand, hc, ht, fillPlace_append _ _ _ _ _ hn]

/-! ### The deferred response of a COMMIT (R26, R27) -/

theorem answerCommit_of_taken {s : State} {r : PendingCommit} (reply : Reply)
    (h : (s.port r.port).transmit.any (Place.isReservedFor .commit) = false) : s.answerCommit r reply = s :=
  if_neg (by simp [h])

/-- The deferred response of a COMMIT stands in the place kept for it (R27, R141). -/
theorem answerCommit_of_kept {s : State} {r : PendingCommit} (reply : Reply) {before behind : List Place}
    (ht : (s.port r.port).transmit = before ++ .reserved .commit :: behind)
    (hn : before.any (Place.isReservedFor .commit) = false) :
    s.answerCommit r reply = s.setPort r.port
      { s.port r.port with
        transmit := before ++ .message (responseMessage r.tag 0x0C reply) none :: behind
        cache :=
          if r.cached then completeEntry r.tag (responseMessage r.tag 0x0C reply) (s.port r.port).cache
          else (s.port r.port).cache } := by
  have hany : (s.port r.port).transmit.any (Place.isReservedFor .commit) = true := by simp [ht, Place.isReservedFor]
  refine (if_pos hany).trans ?_
  simp only [ht, fillPlace_append _ _ _ _ _ hn]
  rfl

/-! ### ABORT_COMMIT (R27) -/

section
variable {s : State} {p : PortId}

theorem runAbortCommit_of_idle (hl : s.holdsLease p = true) (he : s.engine = .idle) :
    runAbortCommit p s = (s, .reply (refusal .notPending)) := by
  simp [runAbortCommit, State.leased, hl, he]

theorem runAbortCommit_of_syncing (hl : s.holdsLease p = true) {pos : Highway} {marks : Marks}
    (he : s.engine = .syncing pos marks) :
    runAbortCommit p s = (s, .reply { status := .tooLate, data := [bankOctet s.activeBank, highwayOctet pos] }) := by
  simp [runAbortCommit, State.leased, hl, he]

/-- The answer that a cancelled COMMIT gets (R27). -/
def State.abortedReply (s : State) : Reply :=
  { status := .aborted, data := bankOctet s.activeBank :: pairOctets s.timing.stamp }

theorem runAbortCommit_of_pending (hl : s.holdsLease p = true) {r : PendingCommit} (he : s.engine = .pending r) :
    runAbortCommit p s = (((s.setEngine .idle).answerCommit r s.abortedReply).raise .commit .aborted,
      .reply (okReply [portOctet r.port, r.tag])) := by
  simp only [runAbortCommit, State.leased, hl, he, if_true]
  rfl

end

@[simp] theorem started_abortedReply (s : State) (p : PortId) (tag : Octet) (c : Command) :
    (s.started p tag c).abortedReply = s.abortedReply := by
  simp [State.abortedReply]

/-- An ABORT_COMMIT of a PENDING commit, seen from its own port `p`, whose transmit queue before the command's place is
`tx` once the cancelled COMMIT has its response. -/
theorem abort_answered {s v : State} {p : PortId} {tag : Octet} {tx : List Place} {reply : Reply}
    (hr : s.ready p tag) (hv : (v.port p).commands = [queuedCommand tag .abortCommit])
    (ht : (v.port p).transmit = tx ++ [.reserved .command]) (hn : tx.any (Place.isReservedFor .command) = false)
    (hrun : runCommand p (queuedCommand tag .abortCommit) (s.started p tag .abortCommit) =
      (v.raise .commit .aborted, .reply reply)) :
    v.sameButNews (s.takeCommand p tag .abortCommit) ∧
    (s.takeCommand p tag .abortCommit).events = (v.raise .commit .aborted).events ∧
    (∀ q, q ≠ p → (v.port q).hears ((s.takeCommand p tag .abortCommit).port q)) ∧
    ∃ more, ((s.takeCommand p tag .abortCommit).port p).transmit =
        tx ++ .message (responseMessage tag 0x0D reply) none :: more ∧
      ((s.takeCommand p tag .abortCommit).port p).cache =
        if decide (tag ≠ 0) then completeEntry tag (responseMessage tag 0x0D reply) (v.port p).cache
        else (v.port p).cache := by
  have hu := hears_raise v .commit .aborted
  obtain ⟨more, counters, hp, -, -⟩ := hu.ports p
  have hreply := complete_reply_of_place (u := v.raise .commit .aborted) (p := p)
    (q := queuedCommand tag .abortCommit) (rest := []) (tx := tx) (more := more) reply (by rw [hp]; exact hv)
    (by rw [hp]; simp [ht]) hn
  have hexec := (takeCommand_of_ready hr .abortCommit).trans (by rw [hrun, hreply])
  rw [hexec]
  refine ⟨sameButNews_trans hu.same (sameButNews_setPort _ _ _), by simp, fun q hq => ?_, more, ?_, ?_⟩
  · simpa [hq.symm] using hu.ports q
  · rw [port_setPort, if_pos rfl]
    rfl
  · rw [port_setPort, if_pos rfl, hp]
    rfl

/-- A place that is kept stands behind places that are not (R22). -/
theorem exists_place_kept {r : Reservation} {places : List Place} (h : places.any (Place.isReservedFor r) = true) :
    ∃ before behind, places = before ++ .reserved r :: behind ∧ before.any (Place.isReservedFor r) = false := by
  induction places with
  | nil => cases h
  | cons x places ih =>
    cases hx : Place.isReservedFor r x with
    | true =>
      obtain rfl : x = .reserved r := by
        cases x with
        | reserved r' => simpa [Place.isReservedFor] using hx
        | message m y => cases hx
      exact ⟨[], places, rfl, rfl⟩
    | false =>
      obtain ⟨before, behind, rfl, hn⟩ := ih (by simpa [hx] using h)
      exact ⟨x :: before, behind, rfl, by simp [hx, hn]⟩

theorem tag_of_cached {x : Port} {tag : Octet} {e : CacheEntry} (h : x.cached tag = some e) :
    e ∈ x.cache ∧ e.tag = tag := by
  unfold Port.cached at h
  exact ⟨List.mem_of_find?_eq_some h, by simpa using List.find?_some h⟩

/-- The response of the cancelled COMMIT in the cache of its port, once the aborting command has its own (R27). -/
theorem cached_of_abort {s : State} {p : PortId} {tag tag' : Octet} {e : CacheEntry} {m m' : List Octet}
    (hr : s.ready p tag) (hc : (s.port p).cached tag' = some e) (he : e.state = .inProgress) :
    (if decide (tag ≠ 0) then
        completeEntry tag m' (completeEntry tag' m (s.cacheWith p tag .abortCommit .inProgress))
      else completeEntry tag' m (s.cacheWith p tag .abortCommit .inProgress)).find? (fun y => y.tag = tag') =
      some { e with state := .done m } := by
  have hfound : (completeEntry tag' m (s.cacheWith p tag .abortCommit .inProgress)).find? (fun y => y.tag = tag') =
      some { e with state := .done m } := by
    rw [find_completeEntry, find_cacheWith hc he]
    rfl
  split
  · rename_i h0
    obtain ⟨hmem, rfl⟩ := tag_of_cached hc
    rw [find_completeEntry_other (hr.2.2.2.2.resolve_left (of_decide_eq_true h0) e hmem), hfound]
  · exact hfound

/-- An ABORT_COMMIT that finds the place of the COMMIT kept (R27). -/
theorem abort_kept {s : State} {p : PortId} {tag : Octet} {r : PendingCommit} {reply : Reply} {before behind : List Place}
    {m : List Octet} (hr : s.ready p tag) (hm : m = responseMessage r.tag 0x0C s.abortedReply)
    (htr : (s.port r.port).transmit = before ++ .reserved .commit :: behind)
    (hn : before.any (Place.isReservedFor .commit) = false)
    (hrun : runCommand p (queuedCommand tag .abortCommit) (s.started p tag .abortCommit) =
      ((((s.started p tag .abortCommit).setEngine .idle).answerCommit r s.abortedReply).raise .commit .aborted,
        .reply reply)) :
    ((s.started p tag .abortCommit).setEngine .idle).sameButNews (s.takeCommand p tag .abortCommit) ∧
    (s.events.admits .commit → (s.takeCommand p tag .abortCommit).events.reports .commit .aborted) ∧
    (∃ more more',
      (r.port = p → ((s.takeCommand p tag .abortCommit).port p).transmit = before ++ .message m none :: behind ++
        .message (responseMessage tag 0x0D reply) none :: more) ∧
      (r.port ≠ p →
        ((s.takeCommand p tag .abortCommit).port r.port).transmit = before ++ .message m none :: behind ++ more' ∧
        ((s.takeCommand p tag .abortCommit).port p).transmit = (s.port p).transmit ++
          .message (responseMessage tag 0x0D reply) none :: more)) ∧
    ∀ e, r.cached = true → (s.port r.port).cached r.tag = some e → e.state = .inProgress →
      ((s.takeCommand p tag .abortCommit).port r.port).cached r.tag = some { e with state := .done m } := by
  have hsettled : (s.port p).transmit.any (Place.isReservedFor .command) = false := hr.2.2.2.1
  have hcommit := sameButNews_answerCommit ((s.started p tag .abortCommit).setEngine .idle) r s.abortedReply
  by_cases hp : r.port = p
  · rw [hp] at htr
    have hkept := answerCommit_of_kept (s := (s.started p tag .abortCommit).setEngine .idle) (r := r) s.abortedReply
      (before := before) (behind := behind ++ [.reserved .command]) (by simp [hp, started_port, htr]) hn
    rw [← hm, hp, setEngine_port, started_port] at hkept
    have hfree : (before ++ .message m none :: behind).any (Place.isReservedFor .command) = false := by
      simpa [htr, Place.isReservedFor] using hsettled
    obtain ⟨hsame, hevents, -, more, htx, hcache⟩ := abort_answered (tx := before ++ .message m none :: behind) hr
      (by rw [hkept]; simp) (by rw [hkept]; simp) hfree hrun
    refine ⟨sameButNews_trans hcommit hsame, fun hadmits => ?_, ⟨more, [], fun _ => htx, fun h => absurd hp h⟩,
      fun e hc hcached he => ?_⟩
    · rw [hevents]
      refine raise_reports ?_ (by simp) _
      rw [hkept]
      simpa using hadmits
    · rw [hp] at hcached ⊢
      rw [Port.cached, hcache, hkept]
      simp only [port_setPort, if_true, hc]
      exact cached_of_abort hr hcached he
  · have hkept := answerCommit_of_kept (s := (s.started p tag .abortCommit).setEngine .idle) (r := r) s.abortedReply
      (before := before) (behind := behind) (by simp [started_port_other s hp, htr]) hn
    rw [← hm, setEngine_port, started_port_other s hp] at hkept
    obtain ⟨hsame, hevents, hother, more, htx, -⟩ := abort_answered (tx := (s.port p).transmit) hr
      (by rw [hkept]; simp [hp, started_port]) (by rw [hkept]; simp [hp, started_port]) hsettled hrun
    obtain ⟨more', c, hheard, -, -⟩ := hother r.port hp
    rw [hkept, port_setPort, if_pos rfl] at hheard
    refine ⟨sameButNews_trans hcommit hsame, fun hadmits => ?_,
      ⟨more, more', fun h => absurd h hp, fun _ => ⟨by rw [hheard], htx⟩⟩, fun e hc hcached he => ?_⟩
    · rw [hevents]
      refine raise_reports ?_ (by simp) _
      rw [hkept]
      simpa using hadmits
    · rw [Port.cached, hheard]
      simp only [hc, if_true]
      rw [find_completeEntry, show (s.port r.port).cache.find? (fun y => y.tag = r.tag) = some e from hcached]
      rfl

/-- Settles O20: the outcomes of `runAbortCommit`; a cancelled commit is answered in the place kept for it, at the
aborting port or at the other. -/
theorem abortCancelsThePendingCommit : Obligations.AbortCancelsThePendingCommit := by
  intro p tag s hr hl
  have hl' : (s.started p tag .abortCommit).holdsLease p = true := by simpa using hl
  refine ⟨fun he => ?_, fun pos marks he => ?_, fun r he => ?_⟩
  · exact congrArg _ (takeCommand_of_unchanged hr .abortCommit (runAbortCommit_of_idle hl' (by simpa using he)))
  · have hrun := runAbortCommit_of_syncing hl' (by simpa using he)
    rw [started_activeBank] at hrun
    exact congrArg _ (takeCommand_of_unchanged hr .abortCommit hrun)
  have hrun := runAbortCommit_of_pending hl' (by simpa using he)
  rw [started_abortedReply] at hrun
  have hsettled : (s.port p).transmit.any (Place.isReservedFor .command) = false := hr.2.2.2.1
  have hstart : ((s.renewLease p).setEngine .idle).sameButNews ((s.started p tag .abortCommit).setEngine .idle) := by
    rw [started_eq, setPort_setEngine]
    exact sameButNews_setPort _ _ _
  have hport : ∀ q, ((s.started p tag .abortCommit).setEngine .idle).port q = (s.started p tag .abortCommit).port q :=
    fun q => by simp
  have hkind : ∀ q, ((s.started p tag .abortCommit).port q).transmit.any (Place.isReservedFor .commit) =
      (s.port q).transmit.any (Place.isReservedFor .commit) := fun q => by
    by_cases hq : q = p
    · subst hq
      simp [started_port, Place.isReservedFor]
    · rw [started_port_other s hq]
  refine ⟨_, rfl, ?_⟩
  by_cases hany : (s.port r.port).transmit.any (Place.isReservedFor .commit) = false
  · rw [answerCommit_of_taken _ (by rw [hport, hkind, hany])] at hrun
    obtain ⟨hsame, hevents, hother, more, htx, -⟩ := abort_answered (tx := (s.port p).transmit) hr
      (by rw [hport, started_port]) (by rw [hport, started_port]) hsettled hrun
    refine ⟨sameButNews_trans hstart hsame, fun hadmits => ?_, fun _ => ?_, fun before behind htr _ => ?_⟩
    · rw [hevents]
      exact raise_reports (by simpa using hadmits) (by simp) _
    · by_cases hp : r.port = p
      · exact ⟨more, [], htx, fun h => absurd hp h⟩
      · obtain ⟨more', c, hmore, -, -⟩ := hother r.port hp
        rw [hport, started_port_other s hp] at hmore
        exact ⟨more, more', htx, fun _ => by rw [hmore]⟩
    · simp [htr, Place.isReservedFor] at hany
  · obtain ⟨before, behind, htr, hn⟩ := exists_place_kept (Bool.eq_true_of_not_eq_false hany)
    obtain ⟨hsame, hreports, -, -⟩ := abort_kept hr rfl htr hn hrun
    refine ⟨sameButNews_trans hstart hsame, hreports, fun h => absurd h hany, fun before' behind' htr' hn' => ?_⟩
    obtain ⟨-, -, hplaces, hcached⟩ := abort_kept hr rfl htr' hn' hrun
    exact ⟨hplaces, hcached⟩

end Sys2Proof.Machine
end

section
/-! SUPPORT. SET_ATTENTION, and the three ways of an occurrence at the list (R109 to R113, R122 to R126). -/

namespace Sys2Proof.Machine

/-! ### The re-evaluation where the condition does not become true (R122, R124) -/

theorem startedTimer_eq (interval : Octet) :
    startedTimer interval = if interval ≠ 0 then some interval else none := by
  unfold startedTimer
  by_cases h : interval = 0
  · rw [if_pos h, if_neg (not_not_intro h)]
  · rw [if_neg h, if_pos h]

/-- Of the list, its occurrences change the entries and the losses alone. -/
theorem take_eq_with (l : EventList) (key : EventKey) (v : EventValue) (now : Stamp) :
    l.take key v now = { l with entries := (l.take key v now).entries, losses := (l.take key v now).losses } := by
  unfold EventList.take EventList.lose EventList.spill
  split
  · rfl
  · split
    · rfl
    · split
      · rfl
      · split <;> rfl

/-- No NOTICE is offered where the condition does not become true; ATTN follows it, and a delivery restarts the timer. -/
theorem settle_restart_of_not_rising {s : State} (h : s.events.condition = true → s.events.attn = true) :
    s.settleAttention.restartTimer = s.setEvents { s.events with
      attn := s.events.condition
      timer := if s.events.condition then startedTimer s.events.interval else none } := by
  unfold State.settleAttention
  by_cases he : s.events.condition = s.events.attn
  · rw [if_pos he, he]
    rfl
  · have hc : s.events.condition = false := by
      by_contra hc
      have hc := Bool.eq_true_of_not_eq_false hc
      exact he (hc.trans (h hc).symm)
    rw [if_neg he, if_neg (by simp [hc]), hc]
    rfl

/-- Where the condition becomes true, ATTN is asserted, the timer starts, and a NOTICE is offered (R122, R123). -/
theorem settle_of_rising {s : State} (hc : s.events.condition = true) (ha : s.events.attn = false) :
    s.settleAttention =
      (s.setEvents { s.events with attn := true, timer := startedTimer s.events.interval }).offerNotices := by
  unfold State.settleAttention
  rw [if_neg (by simp [hc, ha]), if_pos hc]

/-- List `m` is list `l` after occurrences: the entries and the losses may differ, and no DELIVERED entry does. -/
structure EventList.hears (l m : EventList) : Prop where
  same      : m = { l with entries := m.entries, losses := m.losses }
  delivered : m.deliveredEntries = l.deliveredEntries

theorem EventList.hears.refl (l : EventList) : l.hears l := ⟨rfl, rfl⟩

theorem EventList.hears.trans {l m n : EventList} (h : l.hears m) (h' : m.hears n) : l.hears n :=
  ⟨by rw [h'.same, h.same], h'.delivered.trans h.delivered⟩

theorem take_hears (l : EventList) (key : EventKey) (v : EventValue) (now : Stamp) : l.hears (l.take key v now) := by
  refine ⟨take_eq_with l key v now, ?_⟩
  unfold EventList.take EventList.deliveredEntries
  split
  · exact delivered_of_updates (mergeEntry_updates key v now _)
  · split
    · exact delivered_append _ rfl
    · unfold EventList.lose
      split
      · exact delivered_of_updates (map_updates (bumpOverflow_updates now) _)
      · unfold EventList.spill
        split
        · exact delivered_append _ rfl
        · rfl

/-- The offers of a NOTICE are occurrences at the list, if anything (R125). -/
theorem offerNotices_hears (s : State) : s.events.hears s.offerNotices.events := by
  have drop : ∀ {t : State} (p : PortId), s.events.hears t.events → s.events.hears (t.noticeDropped p).events :=
    fun {t} p h => by
      rw [noticeDropped_events]
      exact h.trans (take_hears _ _ _ _)
  have h0 : s.events.hears ((s.queueNotice .a s.events.notice).queueNotice .b s.events.notice).events := by
    rw [queueNotice_events, queueNotice_events]
    exact .refl _
  unfold State.offerNotices
  simp only
  split
  · exact h0
  · exact drop .a h0
  · exact drop .b h0
  · split
    · exact drop .a (drop .b h0)
    · exact drop .b (drop .a h0)

/-! ### SET_ATTENTION (R126) -/

theorem mask_eq (high low : Octet) : (pairOf high low).extractLsb' 0 9 = ((high ++ low).setWidth 9 : BitVec 9) :=
  BitVec.setWidth_eq_extractLsb' (by decide) |>.symm

/-- The two octets of a mask: the low bit of the first, and the second (R126). -/
theorem mask_octets (high low : Octet) :
    pairOctets (((high ++ low).setWidth 9 : BitVec 9).setWidth 16) = [high &&& 1, low] := by
  have hh : ((high ++ low : BitVec (8 + 8)).setWidth 9 : BitVec 9).toNat = (high.toNat % 2) * 256 + low.toNat := by
    rw [BitVec.toNat_setWidth, BitVec.toNat_append, Nat.shiftLeft_eq, ← Nat.shiftLeft_eq, ← Nat.shiftLeft_add_eq_or_of_lt low.isLt, Nat.shiftLeft_eq]
    have := low.isLt
    omega
  unfold pairOctets
  have e1 : (((high ++ low).setWidth 9 : BitVec 9).setWidth 16 : BitVec 16).toNat = (high.toNat % 2) * 256 + low.toNat := by
    rw [BitVec.toNat_setWidth, hh]
    have := low.isLt
    omega
  have l1 := low.isLt
  congr 1
  · apply BitVec.eq_of_toNat_eq
    rw [BitVec.extractLsb'_toNat, e1, BitVec.toNat_and, Nat.shiftRight_eq_div_pow]
    have : high.toNat &&& (1 : Octet).toNat = high.toNat % 2 := Nat.and_one_is_mod _
    rw [this]
    omega
  · congr 1
    apply BitVec.eq_of_toNat_eq
    rw [BitVec.extractLsb'_toNat, e1, Nat.shiftRight_zero]
    omega

section
variable {s : State} {p : PortId} {maskHigh maskLow interval hold : Octet}

theorem leased_of_holder (hl : s.holdsLease p = true) (run : State × Result) : s.leased p run = run := if_pos hl

/-- The list with the items of a SET_ATTENTION (R126). -/
def EventList.attention (l : EventList) (maskHigh maskLow interval hold : Octet) : EventList :=
  { l with mask := (maskHigh ++ maskLow).setWidth 9, interval := interval, holdTime := hold }

theorem runSetAttention_of_zero (hl : s.holdsLease p = true) :
    runSetAttention p maskHigh maskLow interval 0 s = (s, .reply (refusal .badArgument)) := by
  unfold runSetAttention
  rw [leased_of_holder hl, if_pos rfl]

theorem runSetAttention_of_ne {t : State} (hl : s.holdsLease p = true) (h : hold ≠ 0)
    (ht : (s.setEvents (s.events.attention maskHigh maskLow interval hold)).settleAttention.restartTimer = t) :
    runSetAttention p maskHigh maskLow interval hold s =
      (t, .reply (okReply [maskHigh &&& 1, maskLow, interval, hold, flagOctet t.events.attn])) := by
  unfold runSetAttention
  rw [leased_of_holder hl, if_neg h]
  simp only [mask_eq, mask_octets]
  unfold EventList.attention at ht
  rw [ht]
  rfl

end

/-- Whether the condition turns true decides what a SET_ATTENTION does (R122, R124). -/
theorem setAttention_stored {s : State} {p : PortId} {tag maskHigh maskLow interval hold : Octet} (hr : s.ready p tag)
    (hl : s.holdsLease p = true) (h : hold ≠ 0)
    (hrise : (s.events.attention maskHigh maskLow interval hold).condition = true → s.events.attn = true) :
    s.takeCommand p tag (.setAttention maskHigh maskLow interval hold) =
      ((s.renewLease p).setEvents { s.events.attention maskHigh maskLow interval hold with
          attn := (s.events.attention maskHigh maskLow interval hold).condition
          timer := if (s.events.attention maskHigh maskLow interval hold).condition then startedTimer interval else none
        }).answered p tag (.setAttention maskHigh maskLow interval hold)
        (okReply [maskHigh &&& 1, maskLow, interval, hold,
          flagOctet (s.events.attention maskHigh maskLow interval hold).condition]) := by
  refine takeCommand_of_commutes_setPort hr _ (fun t => t.setEvents _) (fun t x => setPort_setEvents _ _ _ _) ?_
  refine (runSetAttention_of_ne ((started_holdsLease s p tag _ p).trans hl) h
    (settle_restart_of_not_rising (s := (s.started p tag _).setEvents _) ?_)).trans ?_
  · simpa [EventList.attention] using hrise
  · simp [EventList.attention]; rfl

/-- The NOTICE names its length, tag, code and the number of waiting entries (R123). -/
theorem notice_take_five (l : EventList) : l.notice.take 5 = [0xB4, 0x08, 0x00, 0xC0, octet l.waiting.length] := rfl

/-- A port with a free place takes the NOTICE that is offered (R123). -/
theorem offered_of_place {x : Port} (h : x.hasPlace = true) (notice : List Octet) :
    x.offered true notice = { x with transmit := x.transmit ++ [.message notice none] } :=
  (if_pos rfl).trans (if_pos h)

theorem setAttention_rises {s : State} {p : PortId} {tag maskHigh maskLow interval hold : Octet} (hr : s.ready p tag)
    (hl : s.holdsLease p = true) (h : hold ≠ 0)
    (hc : (s.events.attention maskHigh maskLow interval hold).condition = true) (ha : s.events.attn = false) :
    ∃ t, s.takeCommand p tag (.setAttention maskHigh maskLow interval hold) = t ∧
      (s.renewLease p).sameButNews t ∧
      (∃ m, EventList.hears { s.events.attention maskHigh maskLow interval hold with
          attn := true, timer := startedTimer interval } m ∧
        t.events = { m with timer := startedTimer interval }) ∧
      ((s.port p).transmit.length < 5 →
        (t.port p).transmit = (s.port p).transmit ++
          [.message (responseMessage tag 0x19 (okReply [maskHigh &&& 1, maskLow, interval, hold, 0x01])) none,
            .message (s.events.attention maskHigh maskLow interval hold).notice none]) := by
  let c : Command := .setAttention maskHigh maskLow interval hold
  let v : State := (s.started p tag c).setEvents { s.events.attention maskHigh maskLow interval hold with
    attn := true, timer := startedTimer interval }
  have hu : ((s.started p tag c).setEvents
      ((s.started p tag c).events.attention maskHigh maskLow interval hold)).settleAttention.restartTimer =
      v.offerNotices.restartTimer := by
    rw [settle_of_rising (by simpa using hc) (by simpa [EventList.attention] using ha), started_events]
    rfl
  have hears := offerNotices_hears v
  have hattn : v.offerNotices.events.attn = true := by rw [hears.same]; rfl
  have hinterval : v.offerNotices.events.interval = interval := by rw [hears.same]; rfl
  have hevents : v.offerNotices.restartTimer.events = { v.offerNotices.events with timer := startedTimer interval } := by
    unfold State.restartTimer
    rw [hattn, if_pos rfl, hinterval]
    rfl
  have hrun := runSetAttention_of_ne ((started_holdsLease s p tag c p).trans hl) h hu
  rw [hevents, hattn] at hrun
  obtain ⟨hsame, hev, -, more, counters, hmore, hport⟩ := takeCommand_of_news hr c id (fun _ _ => rfl) hrun
    (((hears_setEvents _ _).trans (hears_offerNotices v)).trans (hears_setEvents _ _))
  refine ⟨_, rfl, hsame, ⟨_, hears, hev.trans hevents⟩, fun hlen => ?_⟩
  have hon : v.portEnabled p = true := by
    have henabled : s.portEnabled p = true := (Bool.and_eq_true_iff.mp hr.1).1
    simpa [v] using henabled
  have hoffer : (v.offerNotices.restartTimer.port p).transmit =
      (s.port p).transmit ++ .reserved .command ::
        [.message (s.events.attention maskHigh maskLow interval hold).notice none] := by
    have hplace : ((s.started p tag c).port p).hasPlace = true := by
      rw [started_port]
      simpa [Port.hasPlace, Config.transmitPlaces] using Nat.succ_lt_succ hlen
    have hv : v.port p = (s.started p tag c).port p := setEvents_port _ _ _
    have ho : v.offerNotices.restartTimer.port p = (v.port p).offered (v.portEnabled p) v.events.notice :=
      offerNotices_port v p
    rw [ho, hon, hv, offered_of_place hplace, started_port]
    simp [v]
    rfl
  have hm : more = [.message (s.events.attention maskHigh maskLow interval hold).notice none] := by
    have := hmore.symm.trans hoffer
    simpa using this
  rw [hport, hm]
  rfl

/-- Settles O30: the refusal of a hold time of 0, the quiet re-evaluation, and the one that asserts ATTN. -/
theorem setAttentionStores : Obligations.SetAttentionStores := by
  intro p tag maskHigh maskLow interval hold l s hr hl
  have hexec (h : Octet) : exec (.setAttention p tag maskHigh maskLow interval h) s =
      .next (s.takeCommand p tag (.setAttention maskHigh maskLow interval h)) := rfl
  refine ⟨fun h0 => ?_, fun h0 hl' => ?_⟩
  · subst h0
    rw [hexec]
    exact congrArg _ (takeCommand_of_unchanged hr _
      (runSetAttention_of_zero ((started_holdsLease s p tag _ p).trans hl)))
  have hl' : l = s.events.attention maskHigh maskLow interval hold := hl'
  subst hl'
  refine ⟨fun hq => ?_, fun hc ha => ?_⟩
  · rw [hexec, setAttention_stored hr hl h0 fun hc => hq.resolve_left (by simp [hc])]
    simp only [startedTimer_eq, ← ite_and]
  · obtain ⟨t, ht, hsame, ⟨m, hm, hev⟩, hport⟩ := setAttention_rises hr hl h0 hc ha
    refine ⟨t, congrArg _ ht, hsame, ?_, ?_, ?_, ?_, fun hi => ?_, fun hlen => ⟨_, hport hlen, notice_take_five _⟩⟩
    · rw [hev, hm.same]
    · rw [hev, hm.same]
    · rw [hev, hm.same]; rfl
    · rw [hev, hm.same]; rfl
    · rw [hev]
      exact if_neg hi

end Sys2Proof.Machine
end

section
/-! SUPPORT. The three ways of an occurrence at the list (R109 to R113). -/

namespace Sys2Proof.Machine

theorem accepts_of_passed {key : EventKey} {es : List Event}
    (h : ∀ x ∈ es, x.delivered = true ∨ x.hasKey key = false) : es.any (Event.accepts key) = false :=
  List.any_eq_false.mpr fun x hx => by
    rw [accepts_eq]
    rcases h x hx with hd | hk
    · simp [hd]
    · simp [hk]

/-- Entries that do not accept the occurrence are passed over (R110). -/
theorem mergeEntry_append {key : EventKey} {before : List Event} (h : before.any (Event.accepts key) = false)
    (v : EventValue) (now : Stamp) (es : List Event) :
    mergeEntry key v now (before ++ es) = before ++ mergeEntry key v now es := by
  induction before with
  | nil => rfl
  | cons e before ih =>
    rw [List.any_cons, Bool.or_eq_false_iff] at h
    rw [List.cons_append, mergeEntry, ih h.2]
    cases hb : e.body with
    | ordinary k first w count =>
      have hn : ¬(k = key ∧ e.delivered = false) := fun hc => by simp [Event.accepts, hb, hc] at h
      simp only [if_neg hn, List.cons_append]
    | overflow n => rfl

theorem mergeEntry_cons {key : EventKey} {e : Event} {first latest : EventValue} {count : Octet}
    (hb : e.body = .ordinary key first latest count) (hd : e.delivered = false) (v : EventValue) (now : Stamp)
    (es : List Event) :
    mergeEntry key v now (e :: es) =
      { e with body := .ordinary key first v (saturate count), updated := now } :: es := by
  rw [mergeEntry]
  simp [hb, hd]

theorem saturate_octet (count : Octet) : saturate count = if count = 255 then 255 else count + 1 := by
  rw [saturate, show BitVec.allOnes 8 = 255 from rfl]
  exact ite_congr rfl id fun _ => rfl

theorem saturate_pair (n : Pair) : saturate n = if n = 65535 then 65535 else n + 1 := by
  rw [saturate, show BitVec.allOnes 16 = 65535 from rfl]
  exact ite_congr rfl id fun _ => rfl

section
variable {l : EventList} {key : EventKey} (v : EventValue) (now : Stamp)

theorem take_of_accepted (h : l.entries.any (Event.accepts key) = true) :
    l.take key v now = { l with entries := mergeEntry key v now l.entries } := if_pos h

variable (h : l.entries.any (Event.accepts key) = false)
include h

theorem take_of_room (hroom : l.ordinaryCount < 63) :
    l.take key v now = { l with entries := l.entries ++ [newEntry key v now] } :=
  (if_neg (by simp [h])).trans (if_pos hroom)

theorem take_of_full (hfull : 63 ≤ l.ordinaryCount) : l.take key v now = l.lose now :=
  (if_neg (by simp [h])).trans (if_neg (by simpa [Config.ordinaryEntries] using hfull))

end

/-! ### A loss (R113) -/

theorem bumpOverflow_of_ordinary (now : Stamp) {e : Event} (h : e.isOverflow = false) : bumpOverflow now e = e := by
  unfold bumpOverflow
  cases hb : e.body with
  | ordinary k first latest count => rfl
  | overflow n => simp [Event.isOverflow, Event.isOrdinary, hb] at h

theorem map_bumpOverflow_of_ordinary (now : Stamp) {es : List Event} (h : ∀ x ∈ es, x.isOverflow = false) :
    es.map (bumpOverflow now) = es :=
  (List.map_congr_left fun x hx => bumpOverflow_of_ordinary now (h x hx)).trans es.map_id

/-- The loss is counted in the UNDELIVERED OVERFLOW entry. -/
theorem lose_of_undelivered {l : EventList} {before behind : List Event} {e : Event} {n : Pair} (now : Stamp)
    (hl : l.entries = before ++ e :: behind) (hb : e.body = .overflow n) (hd : e.delivered = false)
    (ho : ∀ x ∈ before ++ behind, x.isOverflow = false) :
    l.lose now = { l with
      entries := before ++ { e with body := .overflow (saturate n), updated := now } :: behind } := by
  have hany : l.entries.any (fun x => x.isOverflow && !x.delivered) = true :=
    List.any_eq_true.mpr ⟨e, by simp [hl], by simp [Event.isOverflow, Event.isOrdinary, hb, hd]⟩
  have hbump : bumpOverflow now e = { e with body := .overflow (saturate n), updated := now } := by
    simp [bumpOverflow, hb, hd]
  refine (if_pos hany).trans ?_
  rw [hl, List.map_append, List.map_cons, hbump,
    map_bumpOverflow_of_ordinary now fun x hx => ho x (List.mem_append_left _ hx),
    map_bumpOverflow_of_ordinary now fun x hx => ho x (List.mem_append_right _ hx)]

/-- Without an UNDELIVERED OVERFLOW entry the loss goes to L. -/
theorem lose_of_none {l : EventList} (now : Stamp) (h : ∀ e ∈ l.entries, e.isOverflow = true → e.delivered = true) :
    l.lose now = EventList.spill now { l with losses := saturate l.losses } :=
  if_neg fun hany => by
    obtain ⟨e, he, hx⟩ := List.any_eq_true.mp hany
    obtain ⟨ho, hd⟩ := Bool.and_eq_true_iff.mp hx
    simp [h e he ho] at hd

theorem spill_of_overflow {l : EventList} (now : Stamp) (h : ∃ e ∈ l.entries, e.isOverflow = true) : l.spill now = l :=
  if_neg fun hs => by
    obtain ⟨e, he, ho⟩ := h
    simp [Event.isOverflow, List.all_eq_true.mp hs.2 e he] at ho

theorem spill_of_ordinary {l : EventList} (now : Stamp) (h : ∀ e ∈ l.entries, e.isOverflow = false) (hl : l.losses ≠ 0) :
    l.spill now = { l with
      entries := l.entries ++ [{ body := .overflow l.losses, created := now, updated := now, delivered := false }]
      losses := 0 } :=
  if_pos ⟨hl, List.all_eq_true.mpr fun e he => by simpa [Event.isOverflow] using h e he⟩

/-! ### The change of RA as an occurrence (R54) -/

/-- While the condition holds and ATTN stands, an occurrence is taken and nothing else happens (R122). -/
theorem raise_of_attending {s : State} (hc : s.events.condition = true) (ha : s.events.attn = true) (key : EventKey)
    (v : EventValue) : s.raise key v = s.setEvents (s.events.take key v s.timing.stamp) :=
  if_pos ((condition_take hc key v s.timing.stamp).trans ((take_attn _ _ _ _).trans ha).symm)

theorem setReceiver_setReceiver (s : State) (k : Highway) (x y : Receiver) :
    (s.setReceiver k x).setReceiver k y = s.setReceiver k y := by
  simp [State.setReceiver]

theorem setAlign_receiver (s : State) (k : Highway) (a : Align) (inFrame : Bool) :
    (s.setAlign k a inFrame).receiver k = { s.receiver k with align := a, inFrame := inFrame } := by
  simp [State.setAlign]

theorem markerPosition_aligned_good {s : State} {k : Highway} {o : Octet} {e : FrameNumber}
    (hf : (s.receiver k).inFrame = false) (ha : (s.receiver k).align = .aligned e) (hg : goodMarker o e = true) :
    s.markerPosition k o = (s.setAlign k (.aligned (e + 1)) true).takeRA k (markerRA o) := by
  simp [State.markerPosition, hf, ha, hg]

/-- Settles O29: the merge, the new entry and the three ways of a loss, and an RA change while ATTN stands. -/
theorem occurrencesMergeOrAreCounted : Obligations.OccurrencesMergeOrAreCounted := by
  refine ⟨fun l key v now => ⟨fun before e behind first latest count hl hp hd hb => ?_, fun hp => ⟨fun hroom => ?_,
    fun hfull => ⟨fun before e behind n hl hb hd ho => ?_, fun hx hd => ?_, fun ho h0 => ?_⟩⟩⟩,
    fun k o e s hf ha hg hra hattn hc => ?_⟩
  · have hany : l.entries.any (Event.accepts key) = true :=
      List.any_eq_true.mpr ⟨e, by simp [hl], by simp [Event.accepts, hb, hd]⟩
    rw [take_of_accepted v now hany, hl, mergeEntry_append (accepts_of_passed hp), mergeEntry_cons hb hd, hd,
      saturate_octet]
  · exact take_of_room v now (accepts_of_passed hp) hroom
  · rw [take_of_full v now (accepts_of_passed hp) hfull, lose_of_undelivered now hl hb hd ho, hd, saturate_pair]
  · rw [take_of_full v now (accepts_of_passed hp) hfull, lose_of_none now hd, saturate_pair]
    exact spill_of_overflow (l := { l with losses := if l.losses = 65535 then 65535 else l.losses + 1 }) now hx
  · rw [take_of_full v now (accepts_of_passed hp) hfull,
      lose_of_none now (fun e he hov => absurd (ho e he) (by simp [hov])), h0]
    exact spill_of_ordinary (l := { l with losses := saturate 0 }) now ho (show saturate (0 : Pair) ≠ 0 by decide)
  · show Host.Outcome.next (s.markerPosition k o) = _
    rw [markerPosition_aligned_good hf ha hg, State.takeRA, setAlign_receiver, if_neg (fun h => hra h.symm),
      raise_of_attending (by simpa [State.setAlign] using hc) (by simpa [State.setAlign] using hattn)]
    simp [State.setAlign, setReceiver_setReceiver]

end Sys2Proof.Machine
end

section
/-! SUPPORT. FETCH_EVENTS (R114 to R120, R122, R124). -/

namespace Sys2Proof.Machine

theorem flagBits : ∀ bound outstanding former taken acknowledged : Bool,
    (((((0#3 ++ BitVec.ofBool bound) ++ BitVec.ofBool outstanding) ++ BitVec.ofBool former) ++ BitVec.ofBool taken) ++
      BitVec.ofBool acknowledged : Octet).getLsbD 0 = acknowledged ∧
    (((((0#3 ++ BitVec.ofBool bound) ++ BitVec.ofBool outstanding) ++ BitVec.ofBool former) ++ BitVec.ofBool taken) ++
      BitVec.ofBool acknowledged : Octet).getLsbD 1 = taken ∧
    (((((0#3 ++ BitVec.ofBool bound) ++ BitVec.ofBool outstanding) ++ BitVec.ofBool former) ++ BitVec.ofBool taken) ++
      BitVec.ofBool acknowledged : Octet).getLsbD 2 = former ∧
    (((((0#3 ++ BitVec.ofBool bound) ++ BitVec.ofBool outstanding) ++ BitVec.ofBool former) ++ BitVec.ofBool taken) ++
      BitVec.ofBool acknowledged : Octet).getLsbD 3 = outstanding ∧
    (((((0#3 ++ BitVec.ofBool bound) ++ BitVec.ofBool outstanding) ++ BitVec.ofBool former) ++ BitVec.ofBool taken) ++
      BitVec.ofBool acknowledged : Octet).getLsbD 4 = bound := by
  decide

/-- The port that a takeover takes the batch from (R118). -/
def FetchOutcome.former : FetchOutcome → Option PortId
  | .takenOver q => some q
  | .held | .acknowledged | .stale | .redelivered | .formed => none

/-- The flags octet of the fetch header, bit by bit (11.4). -/
theorem flags_bits (x : FetchOutcome) (l : EventList) (free : Octet) :
    (x.flags l free).getLsbD 0 = (x == .acknowledged) ∧ (x.flags l free).getLsbD 1 = x.former.isSome ∧
      (∀ q, x.former = some q → (x.flags l free).getLsbD 2 = (q == .b)) ∧
      (x.flags l free).getLsbD 3 = l.batch.isSome ∧
      (∀ b, l.batch = some b → (x.flags l free).getLsbD 4 = (b.port == .b)) := by
  let former : Option Bool := match x with
    | .takenOver p => some (p == PortId.b)
    | _ => none
  have hformer : former = x.former.map (· == .b) := by cases x <;> rfl
  obtain ⟨h0, h1, h2, h3, h4⟩ := flagBits ((l.batch.map fun b => b.port == PortId.b).getD (free.getLsbD 4))
    (l.batch.map fun b => b.port == PortId.b).isSome (former.getD (free.getLsbD 2)) former.isSome (x == .acknowledged)
  refine ⟨h0, h1.trans (by rw [hformer, Option.isSome_map]), fun q hq => h2.trans ?_, h3.trans Option.isSome_map,
    fun b hb => h4.trans ?_⟩
  · rw [hformer, hq]
    rfl
  · rw [hb]
    rfl

theorem portEq_decide (p q : PortId) : (p == q) = decide (p = q) := by cases p <;> cases q <;> rfl

/-! ### The outcome (R114) -/

section
variable {l : EventList} {p : PortId} {ack : Option Octet} {b : Batch}

theorem fetchOutcome_held (hb : l.batch = some b) (hp : b.port ≠ p) (hh : b.hold ≠ 0) :
    l.fetchOutcome p ack = .held := by
  simp only [EventList.fetchOutcome, hb, if_pos hp, if_neg hh]

theorem fetchOutcome_takenOver (hb : l.batch = some b) (hp : b.port ≠ p) (hh : b.hold = 0) :
    l.fetchOutcome p ack = .takenOver b.port := by
  simp only [EventList.fetchOutcome, hb, if_pos hp, if_pos hh]

theorem fetchOutcome_stale {n : Octet} (hb : l.batch = some b) (hp : b.port = p) (hn : n ≠ l.batchNumber) :
    l.fetchOutcome p (some n) = .stale := by
  simp only [EventList.fetchOutcome, hb, if_neg (not_not_intro hp), if_neg hn]

theorem fetchOutcome_acknowledged (hb : l.batch = some b) (hp : b.port = p) :
    l.fetchOutcome p (some l.batchNumber) = .acknowledged := by
  simp only [EventList.fetchOutcome, hb, if_neg (not_not_intro hp), if_true]

theorem fetchOutcome_redelivered (hb : l.batch = some b) (hp : b.port = p) : l.fetchOutcome p none = .redelivered := by
  simp only [EventList.fetchOutcome, hb, if_neg (not_not_intro hp)]

theorem fetchOutcome_none (hb : l.batch = none) :
    l.fetchOutcome p ack = if ack.isSome then .stale else .formed := by
  cases ack <;> simp [EventList.fetchOutcome, hb]

end

/-! ### The state after each outcome -/

theorem hears_useDraw (s : State) : s.hears s.useDraw :=
  ⟨sameButNews_useDraw s, fun p => by rw [useDraw_port]; exact .refl _, fun p _ => useDraw_port s p⟩

theorem settleAttention_of_settled {s : State} (h : s.events.attn = s.events.condition) : s.settleAttention = s :=
  if_pos h.symm

/-- A batch and its DELIVERED entries are not looked at by the re-evaluation (R122). -/
theorem settleAttention_batch (s : State) :
    s.settleAttention.events.batch = s.events.batch ∧
      s.settleAttention.events.deliveredEntries = s.events.deliveredEntries := by
  unfold State.settleAttention
  split
  · exact ⟨rfl, rfl⟩
  · split
    · have h := offerNotices_hears (s.setEvents { s.events with attn := true, timer := startedTimer s.events.interval })
      exact ⟨by rw [h.same]; rfl, h.delivered⟩
    · exact ⟨rfl, rfl⟩

theorem entries_congr (x : FetchOutcome) {l m : EventList} (hb : m.batch = l.batch)
    (hd : m.deliveredEntries = l.deliveredEntries) : x.entries m = x.entries l := by
  rw [FetchOutcome.entries, FetchOutcome.entries, hb, hd]

/-- The response does not tell ATTN and the timer (11.4). -/
theorem data_attn (x : FetchOutcome) (l : EventList) (free : Octet) (attn : Bool) (timer : Option Octet) :
    x.data { l with attn := attn, timer := timer } free = x.data l free := by
  have he : x.entries { l with attn := attn, timer := timer } = x.entries l := entries_congr x rfl rfl
  simp only [FetchOutcome.data, he]
  rfl

/-- The state and the response of a FETCH_EVENTS, from the outcome and the list that it leaves. -/
theorem runFetchEvents_eq (p : PortId) (ack : Option Octet) (s u : State) (x : FetchOutcome) (f : State)
    (hf : s.fetch p ack = (f, x)) (hu : (if s.fetchDelivers p ack then f.restartTimer else f) = u) :
    runFetchEvents p ack s =
      (u.useDraw, .reply { status := x.status, data := x.data u.events (Config.unstated s.draws 0) }) := by
  rw [runFetchEvents, hf]
  simp only
  rw [hu]

section
variable {s : State} {p : PortId} {ack : Option Octet} {x : FetchOutcome} {l : EventList}

theorem runFetchEvents_of_refused (hx : s.events.fetchOutcome p ack = x) (h : x = .held ∨ x = .stale)
    (hs : s.events.attn = s.events.condition) :
    runFetchEvents p ack s =
      (s.useDraw, .reply { status := x.status, data := x.data s.events (Config.unstated s.draws 0) }) := by
  have hf : s.fetch p ack = (s, x) := by
    have hl : s.events.fetched s.timing.stamp p x = s.events := by rcases h with rfl | rfl <;> rfl
    rw [State.fetch, hx, hl]
    exact Prod.ext (settleAttention_of_settled hs) rfl
  have he : s.fetchDelivers p ack = false := by
    rw [State.fetchDelivers, hf]
    rcases h with rfl | rfl <;> rfl
  exact runFetchEvents_eq p ack s s x s hf (if_neg (by simp [he]))

variable (hx : s.events.fetchOutcome p ack = x) (hl : s.events.fetched s.timing.stamp p x = l)
include hx hl

theorem fetch_eq : s.fetch p ack = ((s.setEvents l).settleAttention, x) := by rw [State.fetch, hx, hl]

theorem fetchDelivers_eq : s.fetchDelivers p ack = !(x.entries l).isEmpty := by
  obtain ⟨hb, hd⟩ := settleAttention_batch (s.setEvents l)
  rw [State.fetchDelivers, fetch_eq hx hl]
  simp only
  rw [entries_congr x hb hd]
  rfl

/-- A delivery at which the condition does not become true: the timer is restarted or stopped with it (R124). -/
theorem runFetchEvents_of_delivery (hd : x.entries l ≠ []) (hrise : l.condition = true → l.attn = true) :
    runFetchEvents p ack s =
      ((s.setEvents { l with
          attn := l.condition, timer := if l.condition then startedTimer l.interval else none }).useDraw,
        .reply { status := x.status, data := x.data l (Config.unstated s.draws 0) }) := by
  refine (runFetchEvents_eq p ack s _ x _ (fetch_eq hx hl) ((if_pos ?_).trans
    (settle_restart_of_not_rising (s := s.setEvents l) hrise))).trans ?_
  · rw [fetchDelivers_eq hx hl]
    simpa using hd
  · simp only [setEvents_events, data_attn]
    rfl

/-- A delivery that makes the condition true (R122 to R124). -/
theorem runFetchEvents_of_rising (hd : x.entries l ≠ []) (hc : l.condition = true) (ha : l.attn = false) :
    ∃ u r, runFetchEvents p ack s = (u, .reply r) ∧ s.hears u ∧ u.events.attn = true ∧
      u.events.timer = startedTimer l.interval ∧ u.events.batchNumber = l.batchNumber ∧
      u.events.batch = l.batch ∧ u.events.deliveredEntries = l.deliveredEntries := by
  let v := (s.setEvents l).setEvents { l with attn := true, timer := startedTimer l.interval }
  have hv := offerNotices_hears v
  have hu : v.offerNotices.events = { l with
      attn := true, timer := startedTimer l.interval
      entries := v.offerNotices.events.entries, losses := v.offerNotices.events.losses } := hv.same
  have hrun : runFetchEvents p ack s = (v.offerNotices.restartTimer.useDraw,
      .reply { status := x.status, data := x.data v.offerNotices.restartTimer.events (Config.unstated s.draws 0) }) := by
    refine runFetchEvents_eq p ack s _ x _ (fetch_eq hx hl) ((if_pos ?_).trans
      (congrArg State.restartTimer (settle_of_rising (s := s.setEvents l) hc ha)))
    rw [fetchDelivers_eq hx hl]
    simpa using hd
  have hears : s.hears v.offerNotices.restartTimer.useDraw :=
    ((hears_setEvents s _).trans ((hears_setEvents _ _).trans ((hears_offerNotices v).trans (hears_setEvents _ _)))).trans
      (hears_useDraw _)
  have hevents : v.offerNotices.restartTimer.useDraw.events = { v.offerNotices.events with
      timer := if v.offerNotices.events.attn then startedTimer v.offerNotices.events.interval else none } := rfl
  refine ⟨_, _, hrun, hears, ?_, ?_, ?_, ?_, ?_⟩
  · rw [hevents, hu]
  · rw [hevents, hu]
    rfl
  · rw [hevents, hu]
  · rw [hevents, hu]
  · exact hv.delivered

/-- An accepted fetch without a delivery, where the condition is false (R116, R122). -/
theorem runFetchEvents_of_empty (hd : x.entries l = []) (hc : l.condition = false) :
    runFetchEvents p ack s =
      ((s.setEvents { l with attn := false, timer := if l.attn then none else l.timer }).useDraw,
        .reply { status := x.status, data := x.data l (Config.unstated s.draws 0) }) := by
  have hs : (s.setEvents l).settleAttention =
      s.setEvents { l with attn := false, timer := if l.attn then none else l.timer } := by
    obtain ⟨es, losses, number, batch, mask, interval, hold, timer, attn⟩ := l
    cases attn with
    | false => exact settleAttention_of_settled (s := s.setEvents _) hc.symm
    | true =>
      refine (if_neg ?_).trans ((if_neg ?_).trans rfl)
      · simp [hc]
      · simp [hc]
  refine (runFetchEvents_eq p ack s _ x _ (fetch_eq hx hl) ((if_neg ?_).trans hs)).trans ?_
  · rw [fetchDelivers_eq hx hl]
    simp [hd]
  · simp only [setEvents_events, data_attn]

end

end Sys2Proof.Machine
end

section
/-! SUPPORT. FETCH_EVENTS, continued: the list that an acknowledgement and a new batch leave (R115, R116, R120). -/

namespace Sys2Proof.Machine

/-- The list without its DELIVERED entries, with an OVERFLOW entry for the losses that waited, and without a batch
(R113, R116). -/
def EventList.remaining (l : EventList) (now : Stamp) : List Event :=
  l.entries.filter (fun e => !e.delivered) ++
    (if l.losses = 0 then []
    else [{ body := .overflow l.losses, created := now, updated := now, delivered := false }])

/-- The list after a new batch of the entries `kept` (R115). -/
def EventList.batched (l : EventList) (kept : List Event) (p : PortId) : EventList :=
  { l with
    entries := (kept.take 12).map (fun e => { e with delivered := true }) ++ kept.drop 12
    losses := 0
    batchNumber := l.batchNumber + 1
    batch := some { port := p, hold := l.holdTime } }

section
variable {l : EventList} {now : Stamp}

theorem remaining_undelivered : ∀ e ∈ l.remaining now, e.delivered = false := by
  intro e he
  rcases List.mem_append.mp he with he | he
  · simpa using (List.mem_filter.mp he).2
  · split at he
    · cases he
    · rw [List.mem_singleton.mp he]

theorem remaining_filter : (l.remaining now).filter (·.delivered) = [] :=
  List.filter_eq_nil_iff.mpr fun e he => by simp [remaining_undelivered e he]

theorem acknowledge_eq (h : l.losses ≠ 0 → ∀ e ∈ l.entries, e.isOverflow = true → e.delivered = true) :
    l.acknowledge now = { l with entries := l.remaining now, losses := 0, batch := none } := by
  unfold EventList.acknowledge EventList.remaining
  by_cases hl : l.losses = 0
  · rw [EventList.spill, if_neg (fun hc => hc.1 hl), if_pos hl, hl, List.append_nil]
  · rw [if_neg hl]
    refine spill_of_ordinary (l := { l with entries := l.entries.filter fun e => !e.delivered, batch := none }) now
      (fun e he => ?_) hl
    obtain ⟨he, hd⟩ := List.mem_filter.mp he
    by_contra ho
    rw [h hl e he (by simpa using ho)] at hd
    cases hd

theorem remaining_of_quiet (hd : l.deliveredEntries = []) (hl : l.losses = 0) : l.remaining now = l.entries := by
  rw [EventList.remaining, if_pos hl, List.append_nil]
  refine List.filter_eq_self.mpr fun e he => ?_
  simpa using List.filter_eq_nil_iff.mp hd e he

theorem undeliveredCount_of_none (h : l.entries.filter (·.delivered) = []) : l.undeliveredCount = l.entries.length :=
  List.countP_eq_length.mpr fun e he => by simpa using List.filter_eq_nil_iff.mp h e he

theorem form_of_empty (p : PortId) (h : l.entries = []) : l.form p = { l with batch := none } :=
  if_pos (by simp [EventList.undeliveredCount, h])

/-- A batch formed of the remaining entries (R115). -/
theorem form_of_remaining (p : PortId) (hne : l.remaining now ≠ []) :
    EventList.form p { l with entries := l.remaining now, losses := 0, batch := none } =
      l.batched (l.remaining now) p := by
  unfold EventList.form
  rw [if_neg]
  · simp only [deliverFirst_delivered (remaining_filter (l := l) (now := now))]
    rfl
  · rw [undeliveredCount_of_none remaining_filter]
    simpa using hne

theorem batched_delivered (p : PortId) :
    (l.batched (l.remaining now) p).deliveredEntries =
      ((l.remaining now).take 12).map fun e => { e with delivered := true } :=
  filter_delivered_of_first remaining_filter 12

theorem batched_undelivered (p : PortId) :
    (l.batched (l.remaining now) p).undeliveredCount = ((l.remaining now).drop 12).length := by
  unfold EventList.undeliveredCount EventList.batched
  rw [List.countP_append]
  have h0 : (((l.remaining now).take 12).map fun e : Event => { e with delivered := true }).countP
      (fun e => !e.delivered) = 0 := List.countP_eq_zero.mpr fun e he => by
    obtain ⟨x, -, rfl⟩ := List.mem_map.mp he
    simp
  rw [h0, Nat.zero_add]
  exact List.countP_eq_length.mpr fun e he => by simp [remaining_undelivered e (List.mem_of_mem_drop he)]

/-- Beyond the batch, a waiting entry is one of before, or the OVERFLOW entry that the losses have made (R113, R122). -/
theorem condition_of_batched (p : PortId) (hh : l.holdTime ≠ 0)
    (hc : (l.batched (l.remaining now) p).condition = true) :
    l.condition = true ∨ l.losses ≠ 0 ∧ 12 < (l.remaining now).length ∧ l.mask.getLsbD 8 = true := by
  rw [condition_iff] at hc
  rcases hc with ⟨e, he, hd, hm⟩ | hlapsed
  · have hdrop : e ∈ (l.remaining now).drop 12 := by
      rcases List.mem_append.mp he with he | he
      · obtain ⟨x, -, rfl⟩ := List.mem_map.mp he
        cases hd
      · exact he
    have hlen : 12 < (l.remaining now).length := by
      by_contra hc
      rw [List.drop_eq_nil_of_le (by omega)] at hdrop
      cases hdrop
    rcases List.mem_append.mp (List.mem_of_mem_drop hdrop) with hmem | hmem
    · exact .inl ((condition_iff l).mpr (.inl ⟨e, List.mem_of_mem_filter hmem, hd, hm⟩))
    · by_cases hl : l.losses = 0
      · rw [if_pos hl] at hmem
        cases hmem
      · rw [if_neg hl] at hmem
        obtain rfl := List.mem_singleton.mp hmem
        exact .inr ⟨hl, hlen, hm⟩
  · exact absurd (by simpa [EventList.lapsed, EventList.batched] using hlapsed) hh

/-- The OVERFLOW entry that the losses have made waits behind a full batch (R113, R122). -/
theorem batched_rises (p : PortId) (hl : l.losses ≠ 0) (hlen : 12 < (l.remaining now).length)
    (hm : l.mask.getLsbD 8 = true) : (l.batched (l.remaining now) p).condition = true := by
  refine (condition_iff _).mpr (.inl
    ⟨{ body := .overflow l.losses, created := now, updated := now, delivered := false }, ?_, rfl, hm⟩)
  refine List.mem_append_right _ ?_
  rw [EventList.remaining, if_neg hl] at hlen ⊢
  rw [List.drop_append_of_le_length (by simpa [Nat.lt_succ_iff] using hlen)]
  simp

/-- The condition of a list whose batch has just got its hold time (R119, R122). -/
theorem condition_of_fresh {b : Batch} (hb : l.batch = some b) (hh : b.hold ≠ 0) :
    l.condition = !l.waiting.isEmpty := by
  have : l.lapsed = false := by simpa [EventList.lapsed, hb] using hh
  rw [EventList.condition, this, Bool.or_false]

end

theorem octets_delivered (e : Event) : Event.octets { e with delivered := true } = e.octets := rfl

theorem pairOctets_zero : pairOctets 0 = [0x00, 0x00] := rfl

/-! ### The cases -/

theorem exec_fetchEvents (p : PortId) (tag : Octet) (ack : Option Octet) (s : State) :
    exec (.fetchEvents p tag ack) s = .next (s.takeCommand p tag (.fetchEvents ack)) := rfl

section
variable {s : State} {p : PortId} {tag : Octet} {ack : Option Octet} (hr : s.ready p tag)
include hr

/-- A FETCH_EVENTS that is refused (R114). -/
theorem fetch_refused {x : FetchOutcome} (hs : s.events.attn = s.events.condition)
    (hx : s.events.fetchOutcome p ack = x) (h : x = .held ∨ x = .stale) :
    exec (.fetchEvents p tag ack) s = .next (((s.renewLease p).useDraw).answered p tag (.fetchEvents ack)
      { status := x.status, data := x.data s.events (Config.unstated s.draws 0) }) := by
  rw [exec_fetchEvents]
  refine congrArg _ (takeCommand_of_commutes_setPort hr _ State.useDraw (setPort_useDraw · p) ?_)
  have hrun := runFetchEvents_of_refused (s := s.started p tag (.fetchEvents ack)) (by rw [started_events]; exact hx) h
    (by simpa using hs)
  rwa [started_events, started_draws] at hrun

/-- A FETCH_EVENTS that delivers, where the condition does not become true (R114, R124). -/
theorem fetch_delivered {x : FetchOutcome} {l : EventList} (hx : s.events.fetchOutcome p ack = x)
    (hl : s.events.fetched s.timing.stamp p x = l) (hd : x.entries l ≠ [])
    (hrise : l.condition = true → l.attn = true) :
    exec (.fetchEvents p tag ack) s = .next ((((s.renewLease p).setEvents { l with
        attn := l.condition, timer := if l.condition then startedTimer l.interval else none }).useDraw).answered p tag
      (.fetchEvents ack) { status := x.status, data := x.data l (Config.unstated s.draws 0) }) := by
  rw [exec_fetchEvents]
  refine congrArg _ (takeCommand_of_commutes_setPort hr _ (fun t => (t.setEvents _).useDraw)
    (fun t y => by rw [setPort_setEvents, setPort_useDraw]) ?_)
  have hrun := runFetchEvents_of_delivery (s := s.started p tag (.fetchEvents ack)) (by rw [started_events]; exact hx)
    (by rw [started_events, started_timing]; exact hl) hd hrise
  rwa [started_draws] at hrun

theorem fetch_empty {x : FetchOutcome} {l : EventList} (hx : s.events.fetchOutcome p ack = x)
    (hl : s.events.fetched s.timing.stamp p x = l) (hd : x.entries l = []) (hc : l.condition = false) :
    exec (.fetchEvents p tag ack) s = .next ((((s.renewLease p).setEvents { l with
        attn := false, timer := if l.attn then none else l.timer }).useDraw).answered p tag
      (.fetchEvents ack) { status := x.status, data := x.data l (Config.unstated s.draws 0) }) := by
  rw [exec_fetchEvents]
  refine congrArg _ (takeCommand_of_commutes_setPort hr _ (fun t => (t.setEvents _).useDraw)
    (fun t y => by rw [setPort_setEvents, setPort_useDraw]) ?_)
  have hrun := runFetchEvents_of_empty (s := s.started p tag (.fetchEvents ack)) (by rw [started_events]; exact hx)
    (by rw [started_events, started_timing]; exact hl) hd hc
  rwa [started_draws] at hrun

theorem fetch_rising {x : FetchOutcome} {l : EventList} (hx : s.events.fetchOutcome p ack = x)
    (hl : s.events.fetched s.timing.stamp p x = l) (hd : x.entries l ≠ []) (hc : l.condition = true)
    (ha : l.attn = false) :
    ∃ t, exec (.fetchEvents p tag ack) s = .next t ∧ t.events.attn = true ∧
      t.events.timer = startedTimer l.interval ∧ t.events.batchNumber = l.batchNumber ∧
      t.events.batch = l.batch ∧ t.events.deliveredEntries = l.deliveredEntries := by
  obtain ⟨u, r, hrun, hears, hu⟩ := runFetchEvents_of_rising (s := s.started p tag (.fetchEvents ack))
    (by rw [started_events]; exact hx) (by rw [started_events, started_timing]; exact hl) hd hc ha
  obtain ⟨-, hev, -⟩ := takeCommand_of_news hr (.fetchEvents ack) id (fun _ _ => rfl) hrun hears
  exact ⟨_, exec_fetchEvents p tag ack s, by rw [hev]; exact hu⟩

/-- Re-delivery and takeover bind the batch anew (R117, R118). -/
theorem fetch_rebound {x : FetchOutcome} (hs : s.events.attn = s.events.condition) (hh : s.events.holdTime ≠ 0)
    (hx : s.events.fetchOutcome p ack = x) (hacc : x = .redelivered ∨ ∃ q, x = .takenOver q)
    (hne : s.events.deliveredEntries ≠ []) :
    exec (.fetchEvents p tag ack) s = .next ((((s.renewLease p).setEvents { s.events with
          batch := some { port := p, hold := s.events.holdTime }
          attn := !s.events.waiting.isEmpty
          timer := if s.events.waiting.isEmpty then none else startedTimer s.events.interval }).useDraw).answered p tag
        (.fetchEvents ack) (okReply
          ([x.flags (s.events.rebind p) (Config.unstated s.draws 0), s.events.batchNumber, s.events.holdTime,
            octet s.events.deliveredEntries.length, octet s.events.undeliveredCount] ++ pairOctets s.events.losses ++
            s.events.deliveredEntries.flatMap Event.octets))) := by
  have hl : s.events.fetched s.timing.stamp p x = s.events.rebind p := by
    obtain rfl | ⟨q, rfl⟩ := hacc <;> rfl
  have he : x.entries (s.events.rebind p) = s.events.deliveredEntries := by
    obtain rfl | ⟨q, rfl⟩ := hacc <;> rfl
  have hst : x.status = .ok := by
    obtain rfl | ⟨q, rfl⟩ := hacc <;> rfl
  have hc : (s.events.rebind p).condition = !s.events.waiting.isEmpty :=
    condition_of_fresh (l := s.events.rebind p) rfl hh
  have hrise : (s.events.rebind p).condition = true → (s.events.rebind p).attn = true := fun h => by
    show s.events.attn = true
    rw [hs, EventList.condition, ← hc, h, Bool.true_or]
  refine (fetch_delivered hr hx hl (by rwa [he]) hrise).trans ?_
  rw [hc, hst, FetchOutcome.data, he]
  cases s.events.waiting.isEmpty <;> rfl

end

/-- What an acknowledgement or a fresh request leaves to form a batch of (R115, R116). -/
theorem fetched_remaining {s : State} {p : PortId} {x : FetchOutcome}
    (h : x = .formed ∧ s.events.batch = none ∧ s.events.deliveredEntries = [] ∧ s.events.losses = 0 ∨
      x = .acknowledged ∧
        (s.events.losses ≠ 0 → ∀ e ∈ s.events.entries, e.isOverflow = true → e.delivered = true)) :
    s.events.fetched s.timing.stamp p x =
      EventList.form p { s.events with
        entries := s.events.remaining s.timing.stamp, losses := 0, batch := none } := by
  rcases h with ⟨rfl, hb, hd, hl⟩ | ⟨rfl, h⟩
  · rw [remaining_of_quiet hd hl, ← hb, ← hl]
    rfl
  · rw [← acknowledge_eq h]
    rfl

/-- The data of a batch that has just been formed (11.4). -/
theorem data_batched {l : EventList} {now : Stamp} {p : PortId} {x : FetchOutcome} {free : Octet}
    (he : x.entries (l.batched (l.remaining now) p) =
      ((l.remaining now).take 12).map fun e => { e with delivered := true }) :
    x.data (l.batched (l.remaining now) p) free =
      [x.flags (l.batched (l.remaining now) p) free, l.batchNumber + 1, l.holdTime,
        octet ((l.remaining now).take 12).length, octet ((l.remaining now).drop 12).length, 0x00, 0x00] ++
        ((l.remaining now).take 12).flatMap Event.octets := by
  have hlosses : (l.batched (l.remaining now) p).losses = 0 := rfl
  have hbatch : (l.batched (l.remaining now) p).batch = some { port := p, hold := l.holdTime } := rfl
  have hnumber : (l.batched (l.remaining now) p).batchNumber = l.batchNumber + 1 := rfl
  have hoctets : (fun e : Event => Event.octets { e with delivered := true }) = Event.octets :=
    funext octets_delivered
  rw [FetchOutcome.data, he, batched_undelivered, List.length_map, List.flatMap_map, hlosses, hbatch, hnumber,
    pairOctets_zero, hoctets]
  rfl

theorem without_losses {l : EventList} (h : l.losses = 0) :
    ({ l with entries := [], losses := 0, batch := none } : EventList) = { l with entries := [], batch := none } := by
  rw [← h]

/-- An accepted fetch that finds nothing to deliver (R115, R116). -/
theorem fetch_nothing {s : State} {p : PortId} {tag : Octet} {ack : Option Octet} (hr : s.ready p tag)
    {x : FetchOutcome} {l : EventList} (hl : l = { s.events with entries := [], batch := none })
    (hl0 : s.events.losses = 0) (hx : s.events.fetchOutcome p ack = x)
    (hf : s.events.fetched s.timing.stamp p x = l) (hst : x.status = .ok) :
    exec (.fetchEvents p tag ack) s = .next ((((s.renewLease p).setEvents { s.events with
        entries := [], batch := none, attn := false
        timer := if s.events.attn then none else s.events.timer }).useDraw).answered p tag (.fetchEvents ack)
      (okReply [x.flags l (Config.unstated s.draws 0), 0x00, 0x00, 0x00, 0x00, 0x00, 0x00])) := by
  have hd : x.entries l = [] := by
    rw [hl, FetchOutcome.entries, Option.isSome_none, Bool.and_false]
    rfl
  have hc : l.condition = false := by
    rw [hl]
    rfl
  have hdata : x.data l (Config.unstated s.draws 0) =
      [x.flags l (Config.unstated s.draws 0), 0x00, 0x00, 0x00, 0x00, 0x00, 0x00] := by
    have hu : l.undeliveredCount = 0 := by
      rw [hl]
      rfl
    have hb : l.batch = none := by rw [hl]
    have hlosses : l.losses = 0 := by rw [hl, hl0]
    simp only [FetchOutcome.data, hd, hu, hb, hlosses, pairOctets_zero]
    rfl
  rw [fetch_empty hr hx hf hd hc, hst, hdata, hl]
  rfl

/-- Settles O28: the outcomes of R114 in turn, and the list that each leaves. -/
theorem fetchEventsDelivers : Obligations.FetchEventsDelivers := by
  intro p tag ack s hr hs hh
  refine ⟨fun b hb hcase => ?_, fun b hb hcase hne => ?_, fun hb hack => ?_, fun kept hkept hcase => ?_⟩
  · have refused {x : FetchOutcome} (hx : s.events.fetchOutcome p ack = x) (h : x = .held ∨ x = .stale)
        (hst : x.status = if b.port ≠ p then .batchHeld else .staleBatch) : ∃ flags : Octet,
        exec (.fetchEvents p tag ack) s = .next
          (((s.renewLease p).useDraw).answered p tag (.fetchEvents ack)
            { status := if b.port ≠ p then .batchHeld else .staleBatch
              data := [flags, s.events.batchNumber, b.hold, 0x00, octet s.events.undeliveredCount] ++
                pairOctets s.events.losses }) ∧
        flags.getLsbD 0 = false ∧ flags.getLsbD 1 = false ∧ flags.getLsbD 3 = true ∧
        flags.getLsbD 4 = decide (b.port = .b) := by
      obtain ⟨h0, h1, -, h3, h4⟩ := flags_bits x s.events (Config.unstated s.draws 0)
      refine ⟨x.flags s.events (Config.unstated s.draws 0), (fetch_refused hr hs hx h).trans ?_, h0.trans ?_,
        h1.trans ?_, h3.trans (by rw [hb]; rfl), (h4 b hb).trans (portEq_decide _ _)⟩
      · rw [← hst]
        rcases h with rfl | rfl <;> simp [FetchOutcome.data, FetchOutcome.entries, FetchOutcome.accepted, hb] <;> rfl
      · rcases h with rfl | rfl <;> rfl
      · rcases h with rfl | rfl <;> rfl
    rcases hcase with ⟨hp, hhold⟩ | ⟨hp, n, rfl, hn⟩
    · exact refused (fetchOutcome_held hb hp hhold) (.inl rfl) (if_pos hp).symm
    · exact refused (fetchOutcome_stale hb hp hn) (.inr rfl) (if_neg (not_not_intro hp)).symm
  · rcases hcase with ⟨hp, hhold⟩ | ⟨hp, rfl⟩
    · obtain ⟨h0, h1, h2, h3, h4⟩ := flags_bits (.takenOver b.port) (s.events.rebind p) (Config.unstated s.draws 0)
      exact ⟨_, _, rfl, fetch_rebound hr hs hh (fetchOutcome_takenOver hb hp hhold) (.inr ⟨_, rfl⟩) hne, h0,
        h1.trans (decide_eq_true hp).symm, fun _ => (h2 _ rfl).trans (portEq_decide _ _), h3,
        (h4 _ rfl).trans (portEq_decide _ _)⟩
    · obtain ⟨h0, h1, -, h3, h4⟩ := flags_bits .redelivered (s.events.rebind p) (Config.unstated s.draws 0)
      exact ⟨_, _, rfl, fetch_rebound hr hs hh (fetchOutcome_redelivered hb hp) (.inl rfl) hne, h0,
        h1.trans (decide_eq_false (not_not_intro hp)).symm, fun hn => absurd hp hn, h3,
        (h4 _ rfl).trans (portEq_decide _ _)⟩
  · obtain ⟨h0, h1, -, h3, -⟩ := flags_bits .stale s.events (Config.unstated s.draws 0)
    have hx : s.events.fetchOutcome p ack = .stale := (fetchOutcome_none hb).trans (if_pos hack)
    refine ⟨_, (fetch_refused hr hs hx (.inr rfl)).trans ?_, h0, h1, h3.trans (by rw [hb]; rfl)⟩
    simp [FetchOutcome.data, FetchOutcome.entries, FetchOutcome.accepted, hb]; rfl
  · have hkept : kept = s.events.remaining s.timing.stamp := hkept
    subst hkept
    obtain ⟨x, hx, hxack, hxf⟩ : ∃ x, s.events.fetchOutcome p ack = x ∧ ((x == .acknowledged) = ack.isSome) ∧
        (x = .formed ∧ s.events.batch = none ∧ s.events.deliveredEntries = [] ∧ s.events.losses = 0 ∨
          x = .acknowledged ∧
            (s.events.losses ≠ 0 → ∀ e ∈ s.events.entries, e.isOverflow = true → e.delivered = true)) := by
      rcases hcase with ⟨hb, rfl, hd, hl⟩ | ⟨⟨b, hb, hp, rfl⟩, ho⟩
      · exact ⟨.formed, fetchOutcome_none hb, rfl, .inl ⟨rfl, hb, hd, hl⟩⟩
      · exact ⟨.acknowledged, fetchOutcome_acknowledged hb hp, rfl, .inr ⟨rfl, ho⟩⟩
    have hfetched := fetched_remaining (p := p) hxf
    have hformer : x.former = none := by
      rcases hxf with ⟨rfl, -⟩ | ⟨rfl, -⟩ <;> rfl
    have hst : x.status = .ok := by
      rcases hxf with ⟨rfl, -⟩ | ⟨rfl, -⟩ <;> rfl
    have hacc : x.accepted = true := by
      rcases hxf with ⟨rfl, -⟩ | ⟨rfl, -⟩ <;> rfl
    have hentries (hne : s.events.remaining s.timing.stamp ≠ []) :
        x.entries (s.events.batched (s.events.remaining s.timing.stamp) p) =
          ((s.events.remaining s.timing.stamp).take 12).map fun e => { e with delivered := true } := by
      rw [FetchOutcome.entries, hacc, ← batched_delivered p]
      rfl
    have hdelivers (hne : s.events.remaining s.timing.stamp ≠ []) :
        x.entries (s.events.batched (s.events.remaining s.timing.stamp) p) ≠ [] := by
      rw [hentries hne]
      simpa using hne
    refine ⟨fun h0 => ?_, fun hne hl ha hlen hm => ?_, fun hne hor => ?_⟩
    · have hl0 : s.events.losses = 0 := by
        by_contra hl
        rw [EventList.remaining, if_neg hl] at h0
        simp at h0
      rw [form_of_empty p h0, h0] at hfetched
      obtain ⟨f0, f1, -, f3, -⟩ := flags_bits x
        { s.events with entries := [], batch := none } (Config.unstated s.draws 0)
      exact ⟨_, _, fetch_nothing hr rfl hl0 hx (hfetched.trans (without_losses hl0)) hst, fun h => if_pos h,
        fun h => if_neg (by simp [h]), f0.trans hxack, f1.trans (by rw [hformer]; rfl), f3⟩
    · rw [form_of_remaining p hne] at hfetched
      obtain ⟨t, ht, hattn, htimer, hnumber, hbatch, hdel⟩ :=
        fetch_rising hr hx hfetched (hdelivers hne) (batched_rises p hl hlen hm) ha
      exact ⟨t, ht, hattn, htimer, hnumber, hbatch, hdel.trans (batched_delivered p)⟩
    · rw [form_of_remaining p hne] at hfetched
      have hrise : (s.events.batched (s.events.remaining s.timing.stamp) p).condition = true →
          s.events.attn = true := fun hc => by
        rcases condition_of_batched p hh hc with h | ⟨hl, hlen, hm⟩
        · exact hs.trans h
        · rcases hor hl with h | h | h
          · exact h
          · omega
          · rw [hm] at h
            cases h
      have hc := condition_of_fresh (l := s.events.batched (s.events.remaining s.timing.stamp) p) rfl hh
      obtain ⟨f0, f1, -, f3, f4⟩ := flags_bits x (s.events.batched (s.events.remaining s.timing.stamp) p)
        (Config.unstated s.draws 0)
      refine ⟨_, { s.events.batched (s.events.remaining s.timing.stamp) p with
          attn := !(s.events.batched (s.events.remaining s.timing.stamp) p).waiting.isEmpty
          timer := if (s.events.batched (s.events.remaining s.timing.stamp) p).waiting.isEmpty then none
            else startedTimer s.events.interval },
        rfl, rfl, (fetch_delivered hr hx hfetched (hdelivers hne) hrise).trans ?_, f0.trans hxack,
        f1.trans (by rw [hformer]; rfl), f3, (f4 _ rfl).trans (portEq_decide _ _)⟩
      rw [hc, hst, data_batched (hentries hne)]
      cases (s.events.batched (s.events.remaining s.timing.stamp) p).waiting.isEmpty <;> rfl

end Sys2Proof.Machine
end

section
/-! SUPPORT. The hunt (R43, R45) and the search of a failed confirmation's history. -/

namespace Sys2Proof.Machine

/-! ### Candidates (R43) -/

theorem isCandidate_iff (bits : List Bool) :
    isCandidate bits = true ↔ ∃ x rest, bits = true :: false :: true :: (x ++ rest) ∧ x.length = 5 := by
  constructor
  · intro h
    match bits, h with
    | true :: false :: true :: a :: b :: c :: d :: e :: rest, _ => exact ⟨[a, b, c, d, e], rest, rfl, rfl⟩
  · rintro ⟨x, rest, rfl, hx⟩
    match x, hx with
    | [_, _, _, _, _], _ => rfl

theorem isCandidate_of_short {bits : List Bool} (h : bits.length < 8) : isCandidate bits = false := by
  by_contra hc
  obtain ⟨x, rest, rfl, hx⟩ := (isCandidate_iff bits).mp (by simpa using hc)
  simp at h
  omega

/-- The first candidate of a run of bits is taken (R43). -/
theorem huntLive_of_first {bits pre c rest : List Bool} (hb : bits = pre ++ (c ++ rest)) (hc : isCandidate c = true)
    (hlen : c.length = 8) (hfirst : ∀ pre' tail, bits = pre' ++ tail → isCandidate tail = true → pre.length ≤ pre'.length) :
    huntLive bits = some c := by
  have hcr : isCandidate (c ++ rest) = true := by
    obtain ⟨x, r, hx, h5⟩ := (isCandidate_iff c).mp hc
    exact (isCandidate_iff _).mpr ⟨x, r ++ rest, by simp [hx], h5⟩
  induction pre generalizing bits with
  | nil =>
    rw [List.nil_append] at hb
    rw [← hb] at hcr
    cases bits with
    | nil => cases hcr
    | cons b bs =>
      rw [huntLive, if_pos hcr, hb]
      simp [hlen]
  | cons b pre ih =>
    subst hb
    have hn : isCandidate (b :: (pre ++ (c ++ rest))) = false := by
      by_contra hn
      have := hfirst [] _ rfl (by simpa using hn)
      simp at this
    rw [List.cons_append, huntLive, if_neg (by simp [hn])]
    exact ih rfl fun pre' tail h ht => by
      have := hfirst (b :: pre') tail (by rw [List.cons_append, List.cons_append, h]) ht
      simpa using this

theorem huntLive_of_none {bits : List Bool} (h : ∀ pre tail, bits = pre ++ tail → isCandidate tail = false) :
    huntLive bits = none := by
  induction bits with
  | nil => rfl
  | cons b rest ih =>
    rw [huntLive, if_neg (by simp [h [] _ rfl])]
    exact ih fun pre tail ht => h (b :: pre) tail (by rw [ht, List.cons_append])

theorem lastBits_length (n : Nat) (bits : List Bool) : (lastBits n bits).length = min n bits.length := by
  rw [lastBits, List.length_drop]
  omega

theorem exec_huntCandidate {s : State} {k : Highway} {history : List Bool} (ha : (s.receiver k).align = .search history)
    (bits : List Bool) :
    exec (.huntCandidate k bits) s = .next (match huntLive (history ++ bits) with
      | some c => s.setAlign k (.confirm (markerNumber (octetOfBits c) + 1) 0 c) true
      | none => s.setAlign k (.search (lastBits 7 (history ++ bits))) false) := by
  show Host.Outcome.next (s.huntBits k bits) = _
  rw [State.huntBits, ha] <;> rfl

/-- Settles O45: the hunt stops at the first candidate, and keeps seven bits where there is none. -/
theorem huntTakesTheFirstCandidate : Obligations.HuntTakesTheFirstCandidate := by
  intro k history bits s ha
  refine ⟨fun pre x rest hb hx hfirst => ?_, fun hnone => ?_⟩
  · have hc : isCandidate (true :: false :: true :: x) = true := (isCandidate_iff _).mpr ⟨x, [], by simp, hx⟩
    have hl := huntLive_of_first (bits := history ++ bits) (pre := pre) (c := true :: false :: true :: x) (rest := rest)
      (by rw [hb, List.append_assoc]) hc (by simp [hx]) fun pre' tail h ht => by
        obtain ⟨x', rest', rfl, hx'⟩ := (isCandidate_iff tail).mp ht
        exact hfirst pre' x' rest' (by simpa using h) hx'
    rw [exec_huntCandidate ha, hl]
    rfl
  · have hl : huntLive (history ++ bits) = none := huntLive_of_none fun pre tail h => by
      by_contra hc
      obtain ⟨x, rest, rfl, hx⟩ := (isCandidate_iff tail).mp (by simpa using hc)
      exact hnone pre x rest (by simpa using h) hx
    rw [exec_huntCandidate ha, hl]
    exact ⟨lastBits 7 (history ++ bits), rfl, List.drop_suffix _ _, lastBits_length 7 _⟩

/-! ### The search of a history (R45) -/

/-- The marker positions of a candidate, as far as the bits reach, hold no bad marker (R44, R45). -/
def passesHistory (tail : List Bool) : Prop :=
  ∀ i, 1 ≤ i → 536 * i + 8 ≤ tail.length →
    goodMarker (octetOfBits (tail.drop (536 * i))) (markerNumber (octetOfBits tail) + BitVec.ofNat 4 i) =
      true

theorem candidateAfter_iff (bits pre tail : List Bool) :
    candidateAfter bits pre tail ↔ bits = pre ++ tail ∧ isCandidate tail = true ∧ passesHistory tail := by
  rw [candidateAfter, isCandidate_iff]
  rfl

theorem confirmInHistory_eq (tail : List Bool) :
    confirmInHistory tail =
      if tail.length < 544 then some 0
      else if goodMarker (octetOfBits (tail.drop (536 * 1))) (markerNumber (octetOfBits tail) + BitVec.ofNat 4 1) then
        if tail.length < 1080 then some 1
        else if goodMarker (octetOfBits (tail.drop (536 * 2))) (markerNumber (octetOfBits tail) + BitVec.ofNat 4 2) then
          some 2
        else none
      else none := rfl

/-- A history of at most three frames and a marker holds two marker positions after its first bit (R45). -/
theorem confirmInHistory_of_passes {tail : List Bool} (hlen : tail.length ≤ 1615) (h8 : 8 ≤ tail.length)
    (h : passesHistory tail) : confirmInHistory tail = some ((tail.length - 8) / 536) := by
  rw [confirmInHistory_eq]
  split
  · exact congrArg some (by omega)
  · rw [if_pos (h 1 le_rfl (by omega))]
    split
    · exact congrArg some (by omega)
    · rw [if_pos (h 2 (by omega) (by omega))]
      exact congrArg some (by omega)

theorem confirmInHistory_of_fails {tail : List Bool} (hlen : tail.length ≤ 1615) (h : ¬passesHistory tail) :
    confirmInHistory tail = none := by
  have hex : ∃ i, 1 ≤ i ∧ 536 * i + 8 ≤ tail.length ∧
      goodMarker (octetOfBits (tail.drop (536 * i))) (markerNumber (octetOfBits tail) + BitVec.ofNat 4 i) = false := by
    by_contra hc
    refine h fun i h1 hi => ?_
    by_contra hg
    exact hc ⟨i, h1, hi, by simpa using hg⟩
  obtain ⟨i, hi1, hi, hg⟩ := hex
  rw [confirmInHistory_eq, if_neg (by omega)]
  rcases (show i = 1 ∨ i = 2 by omega) with rfl | rfl
  · rw [if_neg (by simp [hg])]
  · rw [if_neg (show ¬tail.length < 1080 by omega), hg, if_neg (show ¬false = true by decide), ite_self]

theorem number_after (tail : List Bool) (n : Nat) :
    markerNumber (octetOfBits tail) + BitVec.ofNat 4 (n + 1) =
      markerNumber (octetOfBits tail) + 1 + BitVec.ofNat 4 n := by
  rw [BitVec.ofNat_add]
  ac_rfl

theorem huntHistory_cons {b : Bool} {rest : List Bool} (h : 7 ≤ rest.length) :
    huntHistory (b :: rest) =
      if isCandidate (b :: rest) then
        match confirmInHistory (b :: rest) with
        | some count =>
          (.confirm (markerNumber (octetOfBits (b :: rest)) + BitVec.ofNat 4 (count + 1)) count (b :: rest),
            pastMarker (b :: rest))
        | none => huntHistory rest
      else huntHistory rest := by
  rw [huntHistory, if_neg (by omega)] <;> rfl

/-- A candidate that passes is taken where it stands first. -/
theorem huntHistory_of_passes {tail : List Bool} (hlen : tail.length ≤ 1615) (hc : isCandidate tail = true)
    (hp : passesHistory tail) :
    huntHistory tail =
      (.confirm (markerNumber (octetOfBits tail) + 1 + BitVec.ofNat 4 ((tail.length - 8) / 536))
        ((tail.length - 8) / 536) tail, decide (8 ≤ tail.length % 536)) := by
  have h8 : 8 ≤ tail.length := by
    by_contra h8
    rw [isCandidate_of_short (by omega)] at hc
    cases hc
  match tail with
  | [] => simp at h8
  | b :: rest =>
    rw [huntHistory_cons (by simpa using h8), if_pos hc, confirmInHistory_of_passes hlen h8 hp, ← number_after]
    rfl

/-- Bits before the first candidate that passes are left behind. -/
theorem huntHistory_of_not {b : Bool} {rest : List Bool} (hlen : (b :: rest).length ≤ 1615) (h7 : 7 ≤ rest.length)
    (h : ¬(isCandidate (b :: rest) = true ∧ passesHistory (b :: rest))) :
    huntHistory (b :: rest) = huntHistory rest := by
  rw [huntHistory_cons h7]
  by_cases hc : isCandidate (b :: rest) = true
  · rw [if_pos hc, confirmInHistory_of_fails hlen fun hp => h ⟨hc, hp⟩]
  · rw [if_neg hc]

theorem huntHistory_of_first {bits pre tail : List Bool} (hlen : bits.length ≤ 1615) (h : candidateAfter bits pre tail)
    (hfirst : ∀ pre' tail', candidateAfter bits pre' tail' → pre.length ≤ pre'.length) :
    huntHistory bits =
      (.confirm (markerNumber (octetOfBits tail) + 1 + BitVec.ofNat 4 ((tail.length - 8) / 536))
        ((tail.length - 8) / 536) tail, decide (8 ≤ tail.length % 536)) := by
  obtain ⟨rfl, hc, hp⟩ := (candidateAfter_iff _ _ _).mp h
  induction pre with
  | nil => exact huntHistory_of_passes (by simpa using hlen) hc hp
  | cons b pre ih =>
    have h8 : 8 ≤ tail.length := by
      by_contra h8
      rw [isCandidate_of_short (by omega)] at hc
      cases hc
    have hn : ¬(isCandidate (b :: (pre ++ tail)) = true ∧ passesHistory (b :: (pre ++ tail))) := fun hb => by
      have := hfirst [] _ ((candidateAfter_iff _ _ _).mpr ⟨rfl, hb⟩)
      simp at this
    rw [List.cons_append, huntHistory_of_not (by simpa using hlen) (by simp; omega) hn]
    refine ih (by simp at hlen ⊢; omega) ((candidateAfter_iff _ _ _).mpr ⟨rfl, hc, hp⟩) fun pre' tail' h' => ?_
    obtain ⟨he, hr⟩ := (candidateAfter_iff _ _ _).mp h'
    have := hfirst (b :: pre') tail' ((candidateAfter_iff _ _ _).mpr ⟨by rw [List.cons_append, he, List.cons_append], hr⟩)
    simpa using this

theorem huntHistory_of_none {bits : List Bool} (hlen : bits.length ≤ 1615)
    (h : ∀ pre tail, ¬candidateAfter bits pre tail) :
    huntHistory bits = (.search (bits.drop (bits.length - 7)), false) := by
  induction bits with
  | nil => rfl
  | cons b rest ih =>
    by_cases h7 : rest.length < 7
    · rw [huntHistory, if_pos h7, List.length_cons, show rest.length + 1 - 7 = 0 by omega]
      rfl
    · have hb := h [] (b :: rest)
      rw [candidateAfter_iff] at hb
      rw [huntHistory_of_not hlen (by omega) fun hc => hb ⟨rfl, hc⟩, List.length_cons,
        show rest.length + 1 - 7 = (rest.length - 7) + 1 by omega, List.drop_succ_cons]
      refine ih (by simp at hlen ⊢; omega) fun pre tail ht => h (b :: pre) tail ?_
      obtain ⟨he, hr⟩ := (candidateAfter_iff _ _ _).mp ht
      exact (candidateAfter_iff _ _ _).mpr ⟨by rw [List.cons_append, he], hr⟩

/-! ### Entry into SEARCH (R49) -/

/-- What an entry into SEARCH does to the input unit of its highway (R49, R68, R97). -/
theorem enterSearch_queue (s : State) (k j : Highway) (history : List Bool) :
    (s.enterSearch k history).queue j = if k = j then emptyQueue else s.queue j := by
  unfold State.enterSearch
  rw [(touches_breakCapture _ _).queue j (by simp), (touches_loseLink _ _).queue j (by simp),
    (touches_resetFramer _ _).queue j (by simp), leaveTraffic_queue]
  rfl

theorem slotState_eq_sup (s : State) (k : Highway) (n : Slot) : s.slotState k n = (s.sup k).slots[n] := rfl

theorem enterSearch_slotState (s : State) (k : Highway) (history : List Bool) (n : Slot) :
    (s.enterSearch k history).slotState k n = { s.slotState k n with candidate := none } := by
  rw [slotState_eq_sup, enterSearch_sup, if_pos rfl, frozen_slots]
  rfl

/-- Without the lease at its port and without a RUNNING capture of it, the entry into SEARCH raises nothing (R49). -/
theorem enterSearch_events {s : State} {k : Highway} (history : List Bool)
    (hl : ∀ p, portOn s.straps k = some p → s.leaseHolder ≠ some p)
    (hc : ∀ job captured stamp, s.capture.phase = .running job captured stamp → Source.onInput k job.source = false) :
    (s.enterSearch k history).events = s.events := by
  have ht := ((touches_setAlign s k (.search history) false).trans (touches_leaveTraffic _ k)).trans
    (touches_resetFramer _ k)
  have hlink : ((((s.setAlign k (.search history) false).leaveTraffic k).resetFramer k).loseLink k) =
      (((s.setAlign k (.search history) false).leaveTraffic k).resetFramer k) := by
    unfold State.loseLink
    rw [ht.straps (by simp)]
    cases hp : portOn s.straps k with
    | none => rfl
    | some p =>
      refine if_neg ?_
      rw [ht.holdsLease p (by simp), State.holdsLease, decide_eq_true_eq]
      exact hl p hp
  unfold State.enterSearch
  rw [hlink, breakCapture_of_other (by rwa [ht.capture (by simp)]), ht.events (by simp)]

/-! ### Marker positions (R41, R44 to R48) -/

theorem exec_markerPosition (k : Highway) (o : Octet) (s : State) :
    exec (.markerPosition k o) s = .next (s.markerPosition k o) := rfl

theorem heldMarkerBits_of_whole {history : List Bool} (h : history.length % 536 = 0) : heldMarkerBits history = [] := by
  rw [heldMarkerBits, lastBits, show history.length % Config.frameBits = 0 from h, Nat.sub_zero, List.drop_length]

theorem markerOctetAt_of_whole {history : List Bool} (h : history.length % 536 = 0) (o : Octet) :
    markerOctetAt history o = o := by
  rw [markerOctetAt, heldMarkerBits_of_whole h]

section
variable {s : State} {k : Highway} {o : Octet} {e : FrameNumber} (hf : (s.receiver k).inFrame = false)
include hf

theorem markerPosition_serving_good (ha : (s.receiver k).align = .aligned e ∨ ∃ n, (s.receiver k).align = .flywheel e n)
    (hg : goodMarker o e = true) :
    s.markerPosition k o = (s.setAlign k (.aligned (e + 1)) true).takeRA k (markerRA o) := by
  obtain ha | ⟨n, ha⟩ := ha <;> simp [State.markerPosition, hf, ha, hg]

theorem markerPosition_aligned_bad (ha : (s.receiver k).align = .aligned e) (hg : goodMarker o e = false) :
    s.markerPosition k o = (s.setAlign k (.flywheel (e + 1) 1) true).countMarkerError k := by
  simp [State.markerPosition, hf, ha, hg]

theorem markerPosition_flywheel_bad {n : Nat} (ha : (s.receiver k).align = .flywheel e n) (hg : goodMarker o e = false) :
    s.markerPosition k o =
      if n < 3 then (s.setAlign k (.flywheel (e + 1) (n + 1)) true).countMarkerError k else s.loseAlignment k := by
  simp only [State.markerPosition, hf, ha, hg, if_false, Bool.false_eq_true]
  exact if_congr (by omega) rfl rfl

theorem markerPosition_guard {n : Nat} (ha : (s.receiver k).align = .guard e n) :
    s.markerPosition k o = if goodMarker o e then s.setAlign k (.guard (e + 1) n) true else s.enterSearch k [] := by
  simp [State.markerPosition, hf, ha]

theorem markerPosition_confirm {n : Nat} {history : List Bool} (ha : (s.receiver k).align = .confirm e n history)
    (hh : history.length % 536 = 0) :
    s.markerPosition k o = s.markerInConfirm k e n (history ++ octetBits o) o := by
  simp [State.markerPosition, hf, ha, heldMarkerBits_of_whole hh, markerOctetAt_of_whole hh]

end

theorem takeRA_of_same {s : State} {k : Highway} {ra : Bool} (h : ra = (s.receiver k).receivedRA) :
    s.takeRA k ra = s := if_pos h.symm

theorem takeRA_of_other {s : State} {k : Highway} {ra : Bool} (h : ra ≠ (s.receiver k).receivedRA) :
    s.takeRA k ra = (s.setReceiver k { s.receiver k with receivedRA := ra }).raise (.remoteAlarm k) (.alarm ra) :=
  if_neg h.symm

theorem countMarkerError_setAlign (s : State) (k : Highway) (a : Align) (f : Bool) :
    (s.setAlign k a f).countMarkerError k = s.setReceiver k { s.receiver k with
      align := a, inFrame := f
      counters := { (s.receiver k).counters with
        markerErrors := saturate (s.receiver k).counters.markerErrors } } := by
  simp [State.countMarkerError, State.countHighway, State.setAlign, setReceiver_setReceiver]

/-- A failed confirmation leaves its input unit as an entry into SEARCH does, and its receiver where the history ends
(R45). -/
theorem failConfirmation_facts (s : State) (k : Highway) (history : List Bool) :
    (s.failConfirmation k history).receiver k = { s.receiver k with
        align := (huntHistory (history.drop 1)).1, inFrame := (huntHistory (history.drop 1)).2 } ∧
      (s.failConfirmation k history).queue k = emptyQueue ∧
      (s.failConfirmation k history).sup k = (s.sup k).frozen ∧
      (s.failConfirmation k history).events = (s.enterSearch k []).events := by
  unfold State.failConfirmation
  refine ⟨?_, ?_, ?_, ?_⟩
  · rw [setAlign_receiver, enterSearch_receiver, if_pos rfl]
  · rw [(touches_setAlign _ k _ _).queue k (by simp), enterSearch_queue, if_pos rfl]
  · rw [(touches_setAlign _ k _ _).sup k (by simp), enterSearch_sup, if_pos rfl]
  · exact (touches_setAlign _ k _ _).events (by simp)

/-- Settles O46: the branches of the marker position. -/
theorem markersMoveTheReceiver : Obligations.MarkersMoveTheReceiver := by
  intro k o e s hf
  refine ⟨fun ha hg => ?_, fun ha hg => ?_, fun n ha hn hg => ?_, fun n ha hg => ?_, fun n ha hg => ?_,
    fun n history ha hh hn hg => ?_, fun n history bits ha hh hlen hg hbits => ?_⟩
  · rw [exec_markerPosition, markerPosition_serving_good hf ha hg]
    have hr := setAlign_receiver s k (.aligned (e + 1)) true
    refine ⟨fun hra => ?_, fun hra => ?_⟩
    · rw [takeRA_of_same (by rw [hr]; exact hra)]
      rfl
    · rw [takeRA_of_other (by rw [hr]; exact hra), hr, State.setAlign, setReceiver_setReceiver]
  · rw [exec_markerPosition, markerPosition_aligned_bad hf ha hg, countMarkerError_setAlign]
  · rw [exec_markerPosition, markerPosition_flywheel_bad hf ha hg, if_pos hn, countMarkerError_setAlign]
  · rw [exec_markerPosition, markerPosition_guard hf ha, if_pos hg]
    rfl
  · rw [exec_markerPosition, markerPosition_guard hf ha, if_neg (by simp [hg])]
    refine ⟨_, rfl, ?_, ?_, ?_, enterSearch_slotState s k []⟩
    · rw [enterSearch_receiver, if_pos rfl]
    · rw [enterSearch_queue, if_pos rfl]
      rfl
    · rw [enterSearch_sup, if_pos rfl]
      rfl
  · rw [exec_markerPosition, markerPosition_confirm hf ha hh, State.markerInConfirm, if_pos hg,
      if_pos (show n + 1 < 3 by omega)]
    rfl
  · subst hbits
    have hb : ((history ++ octetBits o).drop 1).length ≤ 1615 := by
      rw [List.length_drop, List.length_append, show (octetBits o).length = 8 from rfl]
      omega
    obtain ⟨hr, hq, hs, hev⟩ := failConfirmation_facts s k (history ++ octetBits o)
    rw [exec_markerPosition, markerPosition_confirm hf ha hh, State.markerInConfirm, if_neg (by simp [hg])]
    refine ⟨_, _, _, rfl, hr, fun pre tail hc hfirst => ?_, fun hnone => ?_, hq, by rw [hs]; rfl, fun m => ?_,
      fun hl hc => hev.trans (enterSearch_events [] hl hc)⟩
    · rw [huntHistory_of_first hb hc hfirst]
      exact ⟨rfl, rfl⟩
    · rw [huntHistory_of_none hb hnone]
      exact ⟨rfl, rfl⟩
    · rw [slotState_eq_sup, hs, frozen_slots]
      rfl

end Sys2Proof.Machine
end

section
/-! SUPPORT. Confirmation, alignment loss and the effects of an entry into SEARCH or DISABLED on the rest (R44, R48 to R50). -/

namespace Sys2Proof.Machine

/-! ### The third good marker (R44) -/

theorem exec_confirmationComplete {s : State} {k : Highway} {o : Octet} {e : FrameNumber} {history : List Bool}
    (hf : (s.receiver k).inFrame = false) (ha : (s.receiver k).align = .confirm e 2 history)
    (hh : history.length % 536 = 0) (hg : goodMarker o e = true) :
    exec (.confirmationComplete k o) s = .next
      (if (s.receiver k).guardLength = 0 then (s.enterService k (e + 1) true).takeRA k (markerRA o)
      else s.setAlign k (.guard (e + 1) (s.receiver k).guardLength) true) := by
  have hthird : s.thirdGoodMarker k o = true := by
    rw [State.thirdGoodMarker, ha]
    simp [hf, markerOctetAt_of_whole hh, hg]
  refine (if_pos hthird).trans (congrArg _ ?_)
  rw [markerPosition_confirm hf ha hh, State.markerInConfirm, if_pos hg, if_neg (by omega)]

theorem sameButNews_setReceiver {s t : State} (h : s.sameButNews t) (k : Highway) (x : Receiver) :
    (s.setReceiver k x).sameButNews (t.setReceiver k x) := congrArg (fun u => State.setReceiver u k x) h

/-- A list with room has still room after a few occurrences. -/
theorem admits_of_count {l : EventList} {n : Nat} (h : l.ordinaryCount ≤ n) (hn : n < 63) (key : EventKey) :
    l.admits key := .inr (h.trans_lt hn)

/-- What a highway's entry into service and its RA leave of the state and tell the list (R52, R54). -/
theorem enterService_takeRA (s : State) (k : Highway) (e : FrameNumber) (ra : Bool) :
    (s.setReceiver k { s.receiver k with align := .aligned e, inFrame := true, receivedRA := ra }).sameButNews
        ((s.enterService k e true).takeRA k ra) ∧
      (s.events.admits (.alignState k) →
        ((s.enterService k e true).takeRA k ra).events.reports (.alignState k) .inService) ∧
      (ra ≠ (s.receiver k).receivedRA → s.events.roomy →
        ((s.enterService k e true).takeRA k ra).events.reports (.remoteAlarm k) (.alarm ra)) := by
  have hr : (s.enterService k e true).receiver k = { s.receiver k with align := .aligned e, inFrame := true } := by
    rw [State.enterService, raise_receiver, setAlign_receiver]
  have hin : s.events.admits (.alignState k) →
      (s.enterService k e true).events.reports (.alignState k) .inService := fun h =>
    raise_reports (s := s.setAlign k (.aligned e) true) h (fun _ hc => by cases hc) _
  have hsame := sameButNews_raise (s.setAlign k (.aligned e) true) (.alignState k) .inService
  by_cases hra : ra = (s.receiver k).receivedRA
  · rw [takeRA_of_same (by rw [hr]; exact hra), hra]
    exact ⟨hsame, hin, fun hn => absurd rfl hn⟩
  · rw [takeRA_of_other (by rw [hr]; exact hra), hr]
    refine ⟨?_, fun h => raise_reports_other (by simp) (fun _ hc => by cases hc) (hin h), fun _ hroom => ?_⟩
    · refine sameButNews_trans ?_ (sameButNews_raise _ _ _)
      have := sameButNews_setReceiver hsame k
        { s.receiver k with align := .aligned e, inFrame := true, receivedRA := ra }
      rwa [State.setAlign, setReceiver_setReceiver] at this
    · refine raise_reports (admits_of_count (n := 35) ?_ (by decide) _) (fun _ hc => by cases hc) _
      have := raise_ordinaryCount_le (s.setAlign k (.aligned e) true) (.alignState k) .inService
      exact this.trans (Nat.add_le_add_right hroom 3)

/-- Settles O47: the third good marker with a guard and without one. -/
theorem confirmationEndsInGuardOrService : Obligations.ConfirmationEndsInGuardOrService := by
  intro k o e history s hf ha hh hg
  rw [exec_confirmationComplete hf ha hh hg]
  refine ⟨fun h0 => ?_, fun h0 => ?_⟩
  · rw [if_neg h0]
    rfl
  · rw [if_pos h0]
    exact ⟨_, rfl, enterService_takeRA s k (e + 1) (markerRA o)⟩

/-! ### What a lost link and a broken capture tell the list and the ports (R155, R168) -/

theorem ports_of_touches {bs : List Block} {s t : State} (h : s.touches bs t) (ha : Block.portA ∉ bs)
    (hb : Block.portB ∉ bs) (p : PortId) : (s.port p).hears (t.port p) := by
  rw [h.port p ha hb]
  exact .refl _

section
variable (s : State) (k : Highway)

theorem loseLink_ports (p : PortId) : (s.port p).hears ((s.loseLink k).port p) := by
  unfold State.loseLink
  split
  · exact .refl _
  · split
    · exact (ports_of_touches (touches_setLease s _) (by simp) (by simp) p).trans ((hears_raise _ _ _).ports p)
    · exact .refl _

theorem breakCapture_ports (down : Source → Bool) (p : PortId) : (s.port p).hears ((s.breakCapture down).port p) := by
  unfold State.breakCapture
  split
  · split
    · exact (ports_of_touches (touches_setCapture s _) (by simp) (by simp) p).trans ((hears_raise _ _ _).ports p)
    · exact .refl _
  · exact .refl _
  · exact .refl _
  · exact .refl _

theorem loseLink_count : (s.loseLink k).events.ordinaryCount ≤ s.events.ordinaryCount + 3 := by
  unfold State.loseLink
  split
  · exact Nat.le_add_right _ _
  · split
    · exact raise_ordinaryCount_le (s.setLease s.lease.freed) _ _
    · exact Nat.le_add_right _ _

variable {s} {key : EventKey} {v : EventValue} (hm : ∀ p, key ≠ .mgmtError p)
include hm

theorem loseLink_reports (hl : ∀ p, key ≠ .lease p) (h : s.events.reports key v) :
    (s.loseLink k).events.reports key v := by
  unfold State.loseLink
  split
  · exact h
  · split
    · exact raise_reports_other (s := s.setLease s.lease.freed) (hl _) hm h
    · exact h

theorem breakCapture_reports (down : Source → Bool) (hc : key ≠ .capture) (h : s.events.reports key v) :
    (s.breakCapture down).events.reports key v := by
  unfold State.breakCapture
  split
  · split
    · exact raise_reports_other (s := s.setCapture _) hc hm h
    · exact h
  · exact h
  · exact h
  · exact h

end

/-! ### The entry into SEARCH and the rest of the part (R49, R155, R168) -/

/-- The state in which an entry into SEARCH frees the lease of its port: its own input unit has been left (R49). -/
def State.leftForSearch (s : State) (k : Highway) (history : List Bool) : State :=
  ((s.setAlign k (.search history) false).leaveTraffic k).resetFramer k

theorem enterSearch_eq (s : State) (k : Highway) (history : List Bool) :
    s.enterSearch k history = ((s.leftForSearch k history).loseLink k).breakCapture (Source.onInput k) := rfl

section
variable (s : State) (k : Highway) (history : List Bool)

theorem touches_leftForSearch :
    s.touches [.receivers, .queues, .sups, .portA, .portB] (s.leftForSearch k history) :=
  ((touches_setAlign s k (.search history) false).trans (touches_leaveTraffic _ k)).trans (touches_resetFramer _ k)
    |>.mono (by simp)

theorem leftForSearch_port {p : PortId} (h : portOn s.straps k = some p) :
    (s.leftForSearch k history).port p = { s.port p with framer := .hunt } := by
  have ht := (touches_setAlign s k (.search history) false).trans (touches_leaveTraffic _ k)
  unfold State.leftForSearch State.resetFramer
  rw [ht.straps (by simp), h]
  simp [State.setFramer, ht.port p (by simp) (by simp)]

theorem leftForSearch_port_other {p : PortId} (h : portOn s.straps k ≠ some p) :
    (s.leftForSearch k history).port p = s.port p := by
  have ht := (touches_setAlign s k (.search history) false).trans (touches_leaveTraffic _ k)
  unfold State.leftForSearch State.resetFramer
  rw [ht.straps (by simp)]
  cases hq : portOn s.straps k with
  | none => exact ht.port p (by simp) (by simp)
  | some q =>
    have hne : q ≠ p := fun hqp => h (hqp ▸ hq)
    simp [State.setFramer, hne, ht.port p (by simp) (by simp)]

/-- The ports after an entry into SEARCH: the framer of its own port hunts, and news may be heard (R49). -/
theorem enterSearch_port {p : PortId} (h : portOn s.straps k = some p) :
    Port.hears { s.port p with framer := .hunt } ((s.enterSearch k history).port p) := by
  rw [← leftForSearch_port s k history h]
  exact (loseLink_ports _ k p).trans (breakCapture_ports _ _ p)

theorem enterSearch_port_other {p : PortId} (h : portOn s.straps k ≠ some p) :
    (s.port p).hears ((s.enterSearch k history).port p) := by
  rw [← leftForSearch_port_other s k history h]
  exact (loseLink_ports _ k p).trans (breakCapture_ports _ _ p)

theorem leftForSearch_events : (s.leftForSearch k history).events = s.events :=
  (touches_leftForSearch s k history).events (by simp)

theorem enterSearch_reports {key : EventKey} {v : EventValue} (hm : ∀ p, key ≠ .mgmtError p)
    (hl : ∀ p, key ≠ .lease p) (hc : key ≠ .capture) (h : s.events.reports key v) :
    (s.enterSearch k history).events.reports key v := by
  rw [enterSearch_eq]
  refine breakCapture_reports hm _ hc (loseLink_reports k hm hl ?_)
  rwa [leftForSearch_events]

/-- The holder whose link goes down loses the lease, and the list hears of it (R155). -/
theorem enterSearch_linkLost {p : PortId} (hp : portOn s.straps k = some p) (hl : s.leaseHolder = some p)
    (ha : s.events.admits (.lease p)) : (s.enterSearch k history).events.reports (.lease p) .linkLost := by
  have ht := touches_leftForSearch s k history
  rw [enterSearch_eq]
  refine breakCapture_reports (by simp) _ (by simp) ?_
  unfold State.loseLink
  rw [ht.straps (by simp), hp]
  simp only
  rw [if_pos (by rw [ht.holdsLease p (by simp)]; exact decide_eq_true hl)]
  exact raise_reports (s := (s.leftForSearch k history).setLease _) (by simpa [leftForSearch_events] using ha) (by simp) _

theorem enterSearch_capture_of_other
    (h : ∀ job captured stamp, s.capture.phase = .running job captured stamp → Source.onInput k job.source = false) :
    (s.enterSearch k history).capture = s.capture := by
  have ht := (touches_leftForSearch s k history).trans (touches_loseLink _ k)
  have hc := ht.capture (by simp)
  rw [enterSearch_eq, breakCapture_of_other (by rwa [hc]), hc]

/-- A RUNNING capture of the highway breaks, and the list hears of it where there is room (R168). -/
theorem enterSearch_capture_of_running {job : Job} {captured : Nat} {stamp : Stamp}
    (h : s.capture.phase = .running job captured stamp) (hk : Source.onInput k job.source = true) :
    (s.enterSearch k history).capture = s.capture.break job captured stamp ∧
      (s.events.ordinaryCount < 60 → (s.enterSearch k history).events.reports .capture .broken) := by
  have ht := (touches_leftForSearch s k history).trans (touches_loseLink _ k)
  have hc := ht.capture (by simp)
  rw [enterSearch_eq, breakCapture_of_running (by rwa [hc]) hk, hc]
  refine ⟨by rw [raise_capture, setCapture_capture], fun hn => raise_reports (.inr ?_) (by simp) _⟩
  have := loseLink_count (s.leftForSearch k history) k
  rw [leftForSearch_events] at this
  rw [setCapture_events]
  omega

end

/-! ### The input units after an entry into SEARCH -/

theorem frozen_kept (x : Supervisor) :
    x.frozen.received = emptyRecord ∧ x.frozen.spoiled = false ∧ x.frozen.lastEvaluation = x.lastEvaluation := by
  simp only [Supervisor.frozen, and_self]

theorem enterSearch_own (s : State) (k : Highway) (history : List Bool) :
    (s.enterSearch k history).receiver k = { s.receiver k with align := .search history, inFrame := false } ∧
      (s.enterSearch k history).queue k = emptyQueue ∧ (s.enterSearch k history).sup k = (s.sup k).frozen :=
  ⟨(enterSearch_receiver s k k history).trans (if_pos rfl), (enterSearch_queue s k k history).trans (if_pos rfl),
    (enterSearch_sup s k k history).trans (if_pos rfl)⟩

theorem enterSearch_others (s : State) {j k : Highway} (h : j ≠ k) (history : List Bool) :
    (s.enterSearch k history).receiver j = s.receiver j ∧ (s.enterSearch k history).queue j = s.queue j ∧
      (s.enterSearch k history).sup j = s.sup j :=
  ⟨(enterSearch_receiver s k j history).trans (if_neg h.symm), (enterSearch_queue s k j history).trans (if_neg h.symm),
    (enterSearch_sup s k j history).trans (if_neg h.symm)⟩

/-! ### The fourth bad marker (R48) -/

/-- The state in which a lost alignment enters SEARCH: the counters are up and OUT_OF_SERVICE has been raised (R48). -/
def State.alignmentLost (s : State) (k : Highway) : State :=
  ((s.countMarkerError k).countHighway k
    fun c => { c with alignmentLosses := saturate c.alignmentLosses }).raise (.alignState k) .outOfService

theorem touches_alignmentLost (s : State) (k : Highway) :
    s.touches [.receivers, .events, .portA, .portB, .draws] (s.alignmentLost k) :=
  ((touches_countHighway s k _).trans (touches_countHighway _ k _)).trans (touches_raise _ _ _) |>.mono (by simp)

theorem alignmentLost_receiver (s : State) (k : Highway) :
    (s.alignmentLost k).receiver k = { s.receiver k with
      counters := { (s.receiver k).counters with
        markerErrors := saturate (s.receiver k).counters.markerErrors
        alignmentLosses := saturate (s.receiver k).counters.alignmentLosses } } := by
  simp [State.alignmentLost, State.countMarkerError, State.countHighway]

theorem alignmentLost_receiver_other (s : State) {j k : Highway} (h : j ≠ k) :
    (s.alignmentLost k).receiver j = s.receiver j := by
  simp [State.alignmentLost, State.countMarkerError, State.countHighway, h.symm]

/-- The state in which OUT_OF_SERVICE is raised (R48). -/
theorem alignmentLost_events (s : State) (k : Highway) :
    (s.alignmentLost k).events.ordinaryCount ≤ s.events.ordinaryCount + 3 ∧
      (s.events.admits (.alignState k) → (s.alignmentLost k).events.reports (.alignState k) .outOfService) := by
  have ht := (touches_countHighway s k fun c => { c with markerErrors := saturate c.markerErrors }).trans
    (touches_countHighway _ k fun c => { c with alignmentLosses := saturate c.alignmentLosses })
  have he := ht.events (by simp)
  refine ⟨(raise_ordinaryCount_le _ _ _).trans_eq (congrArg (EventList.ordinaryCount · + 3) he),
    fun h => raise_reports ?_ (by simp) _⟩
  exact he ▸ h

theorem alignmentLost_port (s : State) (k : Highway) (p : PortId) : (s.port p).hears ((s.alignmentLost k).port p) :=
  (ports_of_touches ((touches_countHighway s k _).trans (touches_countHighway _ k _)) (by simp) (by simp) p).trans
    ((hears_raise _ _ _).ports p)

/-- News leaves the framer, the commands and the cache of a port. -/
theorem Port.hears.kept {x y : Port} (h : x.hears y) :
    y.framer = x.framer ∧ y.commands = x.commands ∧ y.cache = x.cache := by
  obtain ⟨more, counters, rfl, -⟩ := h
  exact ⟨rfl, rfl, rfl⟩

theorem exec_alignmentLoss {s : State} {k : Highway} {o : Octet} {e : FrameNumber}
    (hf : (s.receiver k).inFrame = false) (ha : (s.receiver k).align = .flywheel e 3) (hg : goodMarker o e = false) :
    exec (.alignmentLoss k o) s = .next ((s.alignmentLost k).enterSearch k []) := by
  have h4 : s.fourthBadMarker k o = true := by
    rw [State.fourthBadMarker, ha]
    simp [hf, hg]
  refine (if_pos h4).trans (congrArg _ ?_)
  rw [markerPosition_flywheel_bad hf ha hg, if_neg (by omega)]
  rfl

/-- Settles O48: the counters and the news, and then what every entry into SEARCH does. -/
theorem alignmentLossEntersSearch : Obligations.AlignmentLossEntersSearch := by
  intro k o e s hf ha hg hroom
  have ht := touches_alignmentLost s k
  have hte := ht.trans (touches_enterSearch (s.alignmentLost k) k [])
  have hcount : (s.alignmentLost k).events.ordinaryCount ≤ 35 :=
    (alignmentLost_events s k).1.trans (Nat.add_le_add_right hroom 3)
  have hout : (s.alignmentLost k).events.reports (.alignState k) .outOfService :=
    (alignmentLost_events s k).2 (admits_of_roomy hroom _)
  obtain ⟨hrec, hqueue, hsup⟩ := enterSearch_own (s.alignmentLost k) k []
  obtain ⟨hreceived, hspoiled, hlast⟩ := frozen_kept ((s.alignmentLost k).sup k)
  have hsk := ht.sup k (by simp)
  refine ⟨_, exec_alignmentLoss hf ha hg, hrec.trans ?_, enterSearch_reports _ k [] (by simp) (by simp) (by simp) hout,
    hqueue, fun n => ?_, (congrArg _ hsup).trans hreceived, (congrArg _ hsup).trans hspoiled,
    (congrArg _ hsup).trans (hlast.trans (congrArg _ hsk)), fun j hj => ?_, fun p hp => ?_, fun hl => ?_,
    fun job captured stamp hr hk => ?_, fun job hj => ?_, hte.bank0 (by simp), hte.bank1 (by simp),
    hte.activeBank (by simp), hte.engine (by simp), hte.outputs (by simp), hte.timing (by simp), hte.straps (by simp)⟩
  · rw [alignmentLost_receiver]
  · rw [enterSearch_slotState, ht.slotState k n (by simp)]
  · obtain ⟨hrj, hqj, hsj⟩ := enterSearch_others (s.alignmentLost k) hj []
    exact ⟨hrj.trans (alignmentLost_receiver_other s hj), hqj.trans (ht.queue j (by simp)),
      hsj.trans (ht.sup j (by simp))⟩
  · have hp' : portOn (s.alignmentLost k).straps k = some p := by rwa [ht.straps (by simp)]
    obtain ⟨-, hcommands, hcache⟩ := (alignmentLost_port s k p).kept
    obtain ⟨hframer, hcommands', hcache'⟩ := (enterSearch_port (s.alignmentLost k) k [] hp').kept
    have hold : (s.alignmentLost k).leaseHolder = s.leaseHolder := ht.leaseHolder (by simp)
    refine ⟨hframer, hcommands'.trans hcommands, hcache'.trans hcache, fun hl => ⟨?_, ?_⟩⟩
    · rw [enterSearch_lease, if_pos ⟨p, hp', decide_eq_true (hold.trans hl)⟩, ht.lease (by simp)]
      rfl
    · exact enterSearch_linkLost _ k [] hp' (hold.trans hl) (admits_of_count hcount (by decide) _)
  · rw [enterSearch_lease, if_neg, ht.lease (by simp)]
    rintro ⟨p, hp, hh⟩
    rw [ht.straps (by simp)] at hp
    rw [ht.holdsLease p (by simp), State.holdsLease, decide_eq_true_eq] at hh
    exact hl p hp hh
  · have hc := ht.capture (by simp)
    obtain ⟨hcap, hrep⟩ := enterSearch_capture_of_running (s.alignmentLost k) k [] (by rw [hc]; exact hr) hk
    rw [hcap, break_eq]
    exact ⟨rfl, rfl, hrep (by omega)⟩
  · have hc := ht.capture (by simp)
    rw [enterSearch_capture_of_other _ k [] (by rw [hc, hj]; simp), hc]

end Sys2Proof.Machine
end

section
/-! SUPPORT. SET_INPUT (R50, R55, R68, R97, R168). -/

namespace Sys2Proof.Machine

/-! ### A highway that leaves the traffic (R49, R50) -/

/-- State `t` is state `s` after highway `k` has left the traffic and stands in alignment state `a`: by an entry into
SEARCH or DISABLED (R49, R50, R68, R97, R168). -/
structure State.leaves (s : State) (k : Highway) (a : Align) (t : State) : Prop where
  receiver : t.receiver k = { s.receiver k with align := a, inFrame := false }
  queue    : t.queue k = emptyQueue
  sup      : t.sup k = (s.sup k).frozen
  others   : ∀ j, j ≠ k → t.receiver j = s.receiver j ∧ t.queue j = s.queue j ∧ t.sup j = s.sup j
  port     : ∀ p, portOn s.straps k ≠ some p → (s.port p).hears (t.port p)
  service  : s.inService k = true → s.events.admits (.alignState k) → t.events.reports (.alignState k) .outOfService
  broken   : ∀ job captured stamp, s.capture.phase = .running job captured stamp →
    Source.onInput k job.source = true → t.capture = s.capture.break job captured stamp ∧
      (s.events.ordinaryCount < 60 → t.events.reports .capture .broken)
  spared   : (∀ job captured stamp, s.capture.phase = .running job captured stamp →
    Source.onInput k job.source = false) → t.capture = s.capture
  touches  : s.touches [.receivers, .queues, .sups, .lease, .capture, .events, .portA, .portB, .draws] t

theorem leaves_enterSearch {s : State} {k : Highway} (h : s.inService k = false) :
    s.leaves k (.search []) (s.enterSearch k []) := by
  obtain ⟨hr, hq, hs⟩ := enterSearch_own s k []
  exact ⟨hr, hq, hs, fun j hj => enterSearch_others s hj [], fun p hp => enterSearch_port_other s k [] hp,
    fun hin => by simp [h] at hin, fun job captured stamp => enterSearch_capture_of_running s k [],
    enterSearch_capture_of_other s k [], touches_enterSearch s k []⟩

/-- The state in which an entry into DISABLED breaks a capture: the highway has left the traffic, and an exit from
service has been raised (R50). -/
def State.leftForDisabled (s : State) (k : Highway) : State :=
  if s.inService k then ((s.setAlign k .disabled false).leaveTraffic k).raise (.alignState k) .outOfService
  else (s.setAlign k .disabled false).leaveTraffic k

theorem enterDisabled_eq (s : State) (k : Highway) :
    s.enterDisabled k = (s.leftForDisabled k).breakCapture (Source.onInput k) := rfl

theorem leftForDisabled_news (s : State) (k : Highway) :
    (s.leftForDisabled k).events.ordinaryCount ≤ s.events.ordinaryCount + 3 ∧
      (∀ p, (s.port p).hears ((s.leftForDisabled k).port p)) ∧
      (s.leftForDisabled k).capture = s.capture ∧
      (s.inService k = true → s.events.admits (.alignState k) →
        (s.leftForDisabled k).events.reports (.alignState k) .outOfService) := by
  have ht := (touches_setAlign s k .disabled false).trans (touches_leaveTraffic _ k)
  have he := ht.events (by simp)
  unfold State.leftForDisabled
  split
  · refine ⟨?_, fun p => ?_, ?_, fun _ ha => raise_reports (by rwa [he]) (by simp) _⟩
    · have := raise_ordinaryCount_le ((s.setAlign k .disabled false).leaveTraffic k) (.alignState k) .outOfService
      rwa [he] at this
    · exact (ports_of_touches ht (by simp) (by simp) p).trans ((hears_raise _ _ _).ports p)
    · rw [raise_capture, ht.capture (by simp)]
  · rename_i h
    refine ⟨by rw [he]; exact Nat.le_add_right _ _, ports_of_touches ht (by simp) (by simp), ht.capture (by simp),
      fun hin => absurd hin h⟩

theorem enterDisabled_queue (s : State) (k j : Highway) :
    (s.enterDisabled k).queue j = if k = j then emptyQueue else s.queue j := by
  have hq : (s.leftForDisabled k).queue j = if k = j then emptyQueue else s.queue j := by
    unfold State.leftForDisabled
    split
    · rw [raise_queue, leaveTraffic_queue]
      rfl
    · rw [leaveTraffic_queue]
      rfl
  rw [enterDisabled_eq, (touches_breakCapture _ _).queue j (by simp), hq]

theorem leaves_enterDisabled (s : State) (k : Highway) : s.leaves k .disabled (s.enterDisabled k) := by
  obtain ⟨hcount, hports, hcapture, hservice⟩ := leftForDisabled_news s k
  refine ⟨(enterDisabled_receiver s k k).trans (if_pos rfl), (enterDisabled_queue s k k).trans (if_pos rfl),
    (enterDisabled_sup s k k).trans (if_pos rfl), fun j hj => ⟨(enterDisabled_receiver s k j).trans (if_neg hj.symm),
      (enterDisabled_queue s k j).trans (if_neg hj.symm), (enterDisabled_sup s k j).trans (if_neg hj.symm)⟩,
    fun p _ => (hports p).trans (breakCapture_ports _ _ p), fun hin ha => ?_, fun job captured stamp hr hk => ?_,
    fun h => ?_, (touches_enterDisabled s k).mono (by simp)⟩
  · rw [enterDisabled_eq]
    exact breakCapture_reports (by simp) _ (by simp) (hservice hin ha)
  · rw [enterDisabled_eq, breakCapture_of_running (by rwa [hcapture]) hk, hcapture, raise_capture, setCapture_capture]
    refine ⟨rfl, fun hn => raise_reports (.inr ?_) (by simp) _⟩
    rw [setCapture_events]
    omega
  · rw [enterDisabled_eq, breakCapture_of_other (by rwa [hcapture]), hcapture]

/-! ### The command (R55) -/

section
variable {s : State} {p : PortId} {highway enable persistence guard : Octet}

theorem runSetInput_of_bad_argument (hl : s.holdsLease p = true)
    (h : 7 < highway.toNat ∨ 1 < enable.toNat ∨ persistence.toNat = 0 ∨ 7 < persistence.toNat ∨ 15 < guard.toNat) :
    runSetInput p highway enable persistence guard s = (s, .reply (refusal .badArgument)) := by
  refine (if_pos hl).trans ?_
  cases hk : highwayOf highway with
  | none => rfl
  | some k =>
    cases hv : flagOf enable with
    | none => rfl
    | some v =>
      have hhighway : ¬ 7 < highway.toNat := fun hgt => by simp [highwayOf_of_gt hgt] at hk
      have henable : ¬ 1 < enable.toNat := fun hgt => by simp [flagOf_of_gt_one hgt] at hv
      exact if_pos (by omega)

/-- The receiver's settings after a SET_INPUT (R55). -/
def State.withInput (s : State) (k : Highway) (persistence guard : Octet) : State :=
  s.setReceiver k { s.receiver k with persistence := persistence.toNat, guardLength := guard.toNat }

variable {k : Highway} (hl : s.holdsLease p = true) (hk : highway.toNat = k.val) (he : enable.toNat ≤ 1)
  (hp1 : 1 ≤ persistence.toNat) (hp7 : persistence.toNat ≤ 7) (hg : guard.toNat ≤ 15)
include hl hk he hp1 hp7 hg

theorem runSetInput_of_protected (h0 : enable = 0) (hm : s.isMgmtHighway k = true) :
    runSetInput p highway enable persistence guard s = (s, .reply (refusal .protectedSlot)) := by
  refine (if_pos hl).trans ?_
  simp only [highwayOf_of_toNat_eq hk, flagOf_of_le_one he]
  exact (if_neg (by omega)).trans (if_pos (by simp [h0, hm]))

theorem runSetInput_of_good (hm : enable = 1 ∨ s.isMgmtHighway k = false) :
    runSetInput p highway enable persistence guard s =
      ((s.withInput k persistence guard).setInputEnable k (enable == 1),
        .reply (okReply [highway, enable, persistence, guard,
          alignOctet (((s.withInput k persistence guard).setInputEnable k (enable == 1)).receiver k).align])) := by
  have hflag : decide (enable ≠ 0) = (enable == 1) := by
    rw [beq_eq_decide]
    exact decide_eq_decide.mpr (by bv_omega)
  have hgo : ¬ (!(enable == 1) && s.isMgmtHighway k) = true := by
    obtain rfl | hm := hm
    · simp
    · simp [hm]
  refine (if_pos hl).trans ?_
  simp only [highwayOf_of_toNat_eq hk, flagOf_of_le_one he, hflag]
  exact (if_neg (by omega)).trans (if_neg hgo)

end

theorem setPort_withInput (t : State) (p : PortId) (x : Port) (k : Highway) (a b : Octet) :
    (t.setPort p x).withInput k a b = (t.withInput k a b).setPort p x := by
  simp only [State.withInput, setPort_receiver, setPort_setReceiver]

theorem withInput_align (s : State) (k : Highway) (a b : Octet) :
    ((s.withInput k a b).receiver k).align = (s.receiver k).align := by
  simp [State.withInput]

/-- The receiver enters what the enable asks for, where it differs (R50, R55). -/
theorem setInputEnable_leaves {s : State} {k : Highway} {enable : Octet} {a : Align}
    (h : enable = 1 ∧ (s.receiver k).align = .disabled ∧ a = .search [] ∨
      enable = 0 ∧ (s.receiver k).align ≠ .disabled ∧ a = .disabled) :
    s.leaves k a (s.setInputEnable k (enable == 1)) := by
  unfold State.setInputEnable
  rw [align_enabled_eq]
  rcases h with ⟨rfl, hd, rfl⟩ | ⟨rfl, hd, rfl⟩
  · rw [if_neg (by simp [hd]), if_pos (by decide)]
    exact leaves_enterSearch (by simp [State.inService, hd, Align.inService])
  · rw [if_neg (by simp [hd]), if_neg (by decide)]
    exact leaves_enterDisabled s k

theorem setInputEnable_of_same {s : State} {k : Highway} {enable : Octet}
    (h : enable = 1 ∧ (s.receiver k).align ≠ .disabled ∨ enable = 0 ∧ (s.receiver k).align = .disabled) :
    s.setInputEnable k (enable == 1) = s := by
  unfold State.setInputEnable
  rw [align_enabled_eq]
  rcases h with ⟨rfl, hd⟩ | ⟨rfl, hd⟩
  · exact if_pos (by simp [hd])
  · exact if_pos (by simp [hd])

/-- A command whose block leaves its own port as news leaves it: the response stands before what the news has brought. -/
theorem takeCommand_of_heard {s u : State} {p : PortId} {tag : Octet} (h : s.ready p tag) (c : Command) {r : Reply}
    (hrun : runCommand p (queuedCommand tag c) (s.started p tag c) = (u, .reply r))
    (hp : ((s.started p tag c).port p).hears (u.port p)) :
    ∃ x more, s.takeCommand p tag c = u.setPort p x ∧
      x.transmit = (s.port p).transmit ++ .message (responseMessage tag c.code r) none :: more := by
  obtain ⟨more, counters, hu, -, -⟩ := hp
  rw [started_port] at hu
  have hreply := complete_reply_of_started (u := u) h c r (more := more) (by rw [hu]) (by rw [hu]; simp) (by rw [hu])
  exact ⟨_, more, (takeCommand_of_ready h c).trans (by rw [hrun, hreply]), rfl⟩

/-- A port whose highway hands frames over is not on one that is DISABLED (R51). -/
theorem portOn_ne_of_disabled {s : State} {p : PortId} {k : Highway} (hr : s.portReceives p = true)
    (hk : (s.receiver k).align = .disabled) : portOn s.straps k ≠ some p := fun hp => by
  have hpair : s.portPair p = k := ((portOn_eq_some_iff s.straps k p).mp hp).2
  rw [State.portReceives, Bool.and_eq_true, hpair, hk] at hr
  exact absurd hr.2 (by decide)

/-- The state in which a SET_INPUT lets the receiver enter what the enable asks for. -/
theorem started_withInput (s : State) (p : PortId) (tag : Octet) (c : Command) (k : Highway) (a b : Octet) :
    s.touches [.receivers, .lease, .portA, .portB] ((s.started p tag c).withInput k a b) ∧
      ((s.started p tag c).withInput k a b).receiver k =
        { s.receiver k with persistence := a.toNat, guardLength := b.toNat } ∧
      ∀ j, j ≠ k → ((s.started p tag c).withInput k a b).receiver j = s.receiver j :=
  ⟨((touches_started s p tag c).trans (touches_setReceiver _ k _)).mono (by simp), by simp [State.withInput],
    fun j hj => by simp [State.withInput, hj.symm]⟩

/-- Settles O22: the refusals, the settings alone, and the two entries. -/
theorem setInputStoresAndEnters : Obligations.SetInputStoresAndEnters := by
  intro p tag highway enable persistence guard s hr hl
  have hl' : (s.started p tag (.setInput highway enable persistence guard)).holdsLease p = true := by simpa using hl
  have hexec : exec (.setInput p tag highway enable persistence guard) s =
      .next (s.takeCommand p tag (.setInput highway enable persistence guard)) := rfl
  rw [hexec]
  refine ⟨fun h => ?_, fun k hk he hp1 hp7 hg => ⟨fun h0 hm => ?_, fun hsame => ?_, fun a hcase => ?_⟩⟩
  · exact congrArg _ (takeCommand_of_unchanged hr _ (runSetInput_of_bad_argument hl' h))
  · exact congrArg _ (takeCommand_of_unchanged hr _
      (runSetInput_of_protected hl' hk he hp1 hp7 hg h0 (by simpa [State.isMgmtHighway] using hm)))
  · have hm : enable = 1 ∨ s.isMgmtHighway k = false :=
      hsame.imp And.left fun ⟨_, _, h⟩ => by simp [State.isMgmtHighway, h]
    have hrun := runSetInput_of_good hl' hk he hp1 hp7 hg (by simpa using hm)
    rw [setInputEnable_of_same (by rw [withInput_align]; simpa using hsame.imp_right fun ⟨h0, hd, _⟩ => ⟨h0, hd⟩),
      withInput_align, started_receiver] at hrun
    rw [takeCommand_of_commutes_setPort hr (.setInput highway enable persistence guard) (State.withInput · k persistence guard)
      (fun t x => setPort_withInput t p x _ _ _) hrun, State.withInput,
      (touches_renewLease s p).receiver k (by simp)]
  · have hm : enable = 1 ∨ s.isMgmtHighway k = false :=
      hcase.imp And.left fun ⟨_, _, h, _⟩ => by simp [State.isMgmtHighway, h]
    have hoff : portOn s.straps k ≠ some p := by
      rcases hcase with ⟨_, hd, _⟩ | ⟨_, _, hn, _⟩
      · exact portOn_ne_of_disabled hr.1 hd
      · simp [hn]
    have hrun := runSetInput_of_good hl' hk he hp1 hp7 hg (by simpa using hm)
    obtain ⟨ht, hrk, hrj⟩ :=
      started_withInput s p tag (.setInput highway enable persistence guard) k persistence guard
    have hp := ports_of_touches (touches_setReceiver (s.started p tag (.setInput highway enable persistence guard)) k
      { (s.started p tag (.setInput highway enable persistence guard)).receiver k with
        persistence := persistence.toNat, guardLength := guard.toNat }) (by simp) (by simp) p
    change ((s.started p tag (.setInput highway enable persistence guard)).port p).hears
      (((s.started p tag (.setInput highway enable persistence guard)).withInput k persistence guard).port p) at hp
    generalize (s.started p tag (.setInput highway enable persistence guard)).withInput k persistence guard = v at *
    have hv : v.leaves k a (v.setInputEnable k (enable == 1)) := setInputEnable_leaves (by
      rw [hrk]
      exact hcase.imp_right fun ⟨h0, hd, _, ha⟩ => ⟨h0, hd, ha⟩)
    generalize v.setInputEnable k (enable == 1) = u at *
    have hpu := hp.trans (hv.port p (by rwa [ht.straps (by simp)]))
    rw [hv.receiver] at hrun
    obtain ⟨x, more, htake, hx⟩ := takeCommand_of_heard hr (.setInput highway enable persistence guard) hrun hpu
    have hc := ht.capture (by simp)
    have hev := ht.events (by simp)
    have htu := (ht.trans hv.touches).trans (touches_setPort u p x)
    obtain ⟨hreceived, -, hlast⟩ := frozen_kept (v.sup k)
    rw [htake]
    refine ⟨_, rfl, ?_, ?_, fun n => ?_, ?_, ?_, fun j hj => ?_, ⟨more, by rw [port_setPort, if_pos rfl, hx]; rfl⟩, ?_,
      fun job captured stamp hrunning hsrc => ?_, fun hother => ?_, ?_⟩
    · rw [setPort_receiver, hv.receiver, hrk]
    · rw [setPort_queue, hv.queue]
      rfl
    · rw [setPort_slotState, slotState_eq_sup, hv.sup, frozen_slots, ← slotState_eq_sup, ht.slotState k n (by simp)]
      rfl
    · rw [setPort_sup, hv.sup, hreceived]
    · rw [setPort_sup, hv.sup, hlast, ht.sup k (by simp)]
    · obtain ⟨hj1, hj2, hj3⟩ := hv.others j hj
      rw [setPort_receiver, setPort_queue, setPort_sup, hj1, hj2, hj3]
      exact ⟨hrj j hj, ht.queue j (by simp), ht.sup j (by simp)⟩
    · rw [setPort_events]
      refine fun hin hadmits => hv.service ?_ (by rwa [hev])
      rw [State.inService, hrk]
      exact hin
    · obtain ⟨hbreak, hrep⟩ := hv.broken job captured stamp (by rwa [hc]) hsrc
      rw [setPort_capture, setPort_events, hbreak, hc, break_eq]
      refine ⟨rfl, fun hroom => hrep ?_⟩
      rw [hev]
      exact Nat.lt_of_le_of_lt hroom (by decide)
    · rw [setPort_capture, hv.spared (by rwa [hc]), hc]
    · exact ⟨htu.bank0 (by simp), htu.bank1 (by simp), htu.activeBank (by simp), htu.engine (by simp),
        htu.outputs (by simp), htu.timing (by simp), htu.straps (by simp)⟩

end Sys2Proof.Machine
end

section
/-! SUPPORT. What a run of occurrences makes of the event list: room, reports and entries of other keys (R109 to R113). -/

namespace Sys2Proof.Machine

/-! ### The load of the list: its ordinary entries, and those that drops of a NOTICE can still make (R112, R125) -/

def EventKey.isDrop : EventKey → Bool
  | .mgmtError _ => true
  | _ => false

/-- The entries that a drop at this port can still make: none while one of its key is UNDELIVERED (R109). -/
def EventList.unmade (l : EventList) (p : PortId) : Nat :=
  if l.entries.any (Event.accepts (.mgmtError p)) then 0 else 1

/-- The ordinary entries, and those that drops can still make. -/
def EventList.load (l : EventList) : Nat := l.ordinaryCount + l.unmade .a + l.unmade .b

theorem unmade_le_one (l : EventList) (p : PortId) : l.unmade p ≤ 1 := by
  unfold EventList.unmade
  split <;> omega

theorem ordinaryCount_le_load (l : EventList) : l.ordinaryCount ≤ l.load := by
  unfold EventList.load
  omega

theorem load_le (l : EventList) : l.load ≤ l.ordinaryCount + 2 := by
  have ha := unmade_le_one l .a
  have hb := unmade_le_one l .b
  unfold EventList.load
  omega

theorem accepts_of_updates {key : EventKey} {es es' : List Event} (h : List.Forall₂ Event.updates es es')
    (ha : es.any (Event.accepts key) = true) : es'.any (Event.accepts key) = true := by
  obtain ⟨e, he, hx⟩ := List.any_eq_true.mp ha
  obtain ⟨e', he', hx'⟩ := exists_of_updates h (P := fun e => e.accepts key = true)
    (fun a b hab hac => by rwa [accepts_eq, hab.hasKey, hab.delivered, ← accepts_eq]) ⟨e, he, hx⟩
  exact List.any_eq_true.mpr ⟨e', he', hx'⟩

/-- An entry that stays UNDELIVERED goes on accepting its key (R109). -/
theorem accepts_take {l : EventList} {key key' : EventKey} (h : l.entries.any (Event.accepts key') = true)
    (v : EventValue) (now : Stamp) : (l.take key v now).entries.any (Event.accepts key') = true := by
  unfold EventList.take
  split
  · exact accepts_of_updates (mergeEntry_updates key v now _) h
  · split
    · simp [List.any_append, h]
    · unfold EventList.lose
      split
      · exact accepts_of_updates (map_updates (bumpOverflow_updates now) _) h
      · unfold EventList.spill
        split
        · simp [List.any_append, h]
        · exact h

theorem unmade_take_le (l : EventList) (key : EventKey) (v : EventValue) (now : Stamp) (p : PortId) :
    (l.take key v now).unmade p ≤ l.unmade p := by
  unfold EventList.unmade
  by_cases h : l.entries.any (Event.accepts (.mgmtError p)) = true
  · rw [if_pos h, if_pos (accepts_take h v now)]
  · rw [if_neg h]
    split <;> omega

theorem load_take_le (l : EventList) (key : EventKey) (v : EventValue) (now : Stamp) :
    (l.take key v now).load ≤ l.load + 1 := by
  have hc := take_ordinaryCount_le l key v now
  have ha := unmade_take_le l key v now .a
  have hb := unmade_take_le l key v now .b
  unfold EventList.load
  omega

theorem lose_ordinaryCount (l : EventList) (now : Stamp) : (l.lose now).ordinaryCount = l.ordinaryCount := by
  unfold EventList.lose EventList.ordinaryCount
  split
  · exact countP_of_updates (map_updates (bumpOverflow_updates now) l.entries) fun _ _ h => h.ordinary
  · unfold EventList.spill
    split
    · simp [List.countP_append, Event.isOrdinary]
    · rfl

/-- An occurrence that makes no entry leaves the count of the ordinary ones. -/
theorem take_count_of_kept (l : EventList) (key : EventKey) (v : EventValue) (now : Stamp)
    (h : l.entries.any (Event.accepts key) = true ∨ 63 ≤ l.ordinaryCount) :
    (l.take key v now).ordinaryCount = l.ordinaryCount := by
  by_cases ha : l.entries.any (Event.accepts key) = true
  · rw [take_of_accepted v now ha]
    exact ordinaryCount_mergeEntry key v now l.entries
  · rw [take_of_full v now (by simpa using ha) (h.resolve_left ha), lose_ordinaryCount]

/-- A drop makes an entry only where none of its key is UNDELIVERED, and then there is one (R109). -/
theorem load_take_drop_le (l : EventList) (p : PortId) (v : EventValue) (now : Stamp) :
    (l.take (.mgmtError p) v now).load ≤ l.load := by
  have hua := unmade_take_le l (.mgmtError p) v now .a
  have hub := unmade_take_le l (.mgmtError p) v now .b
  by_cases hk : l.entries.any (Event.accepts (.mgmtError p)) = true ∨ 63 ≤ l.ordinaryCount
  · have hc := take_count_of_kept l (.mgmtError p) v now hk
    unfold EventList.load
    omega
  · rw [not_or] at hk
    obtain ⟨hn, hroom⟩ := hk
    have hc := take_ordinaryCount_le l (.mgmtError p) v now
    have h1 : l.unmade p = 1 := if_neg hn
    have h0 : (l.take (.mgmtError p) v now).unmade p = 0 := by
      rw [take_of_room v now (by simpa using hn) (by omega)]
      exact if_pos (by simp [newEntry, Event.accepts])
    unfold EventList.load
    cases p <;> omega

/-! ### Entries of other keys -/

theorem mem_mergeEntry_of_hasKey {key key' : EventKey} {v : EventValue} {now : Stamp} {es : List Event} {e : Event}
    (hk : key' ≠ key) (he : e ∈ mergeEntry key v now es) (hb : e.hasKey key' = true) : e ∈ es := by
  induction es with
  | nil => exact he
  | cons x es ih =>
    unfold mergeEntry at he
    cases hx : x.body with
    | ordinary k first w count =>
      rw [hx] at he
      simp only at he
      split at he
      · rcases List.mem_cons.mp he with rfl | he
        · rename_i hkey
          obtain ⟨rfl, -⟩ := hkey
          simp [Event.hasKey, hk.symm] at hb
        · exact List.mem_cons_of_mem _ he
      · rcases List.mem_cons.mp he with rfl | he
        · exact List.mem_cons_self
        · exact List.mem_cons_of_mem _ (ih he)
    | overflow n =>
      rw [hx] at he
      rcases List.mem_cons.mp he with rfl | he
      · exact List.mem_cons_self
      · exact List.mem_cons_of_mem _ (ih he)

/-- An occurrence of one key neither makes nor touches an entry of another. -/
theorem mem_take_of_hasKey {l : EventList} {key key' : EventKey} {v : EventValue} {now : Stamp} {e : Event}
    (hk : key' ≠ key) (he : e ∈ (l.take key v now).entries) (hb : e.hasKey key' = true) : e ∈ l.entries := by
  have overflow : ∀ n : Pair, e ∈ l.entries ++
      [{ body := .overflow n, created := now, updated := now, delivered := false }] → e ∈ l.entries := fun n h => by
    rcases List.mem_append.mp h with h | h
    · exact h
    · rw [List.mem_singleton.mp h] at hb
      cases hb
  unfold EventList.take at he
  split at he
  · exact mem_mergeEntry_of_hasKey hk he hb
  · split at he
    · rcases List.mem_append.mp he with he | he
      · exact he
      · rw [List.mem_singleton.mp he] at hb
        simp [newEntry, Event.hasKey, hk.symm] at hb
    · unfold EventList.lose at he
      split at he
      · obtain ⟨x, hx, rfl⟩ := List.mem_map.mp he
        rw [(bumpOverflow_updates now x).hasKey] at hb
        rw [bumpOverflow_of_ordinary now]
        · exact hx
        · unfold Event.hasKey at hb
          cases hbody : x.body with
          | ordinary k first w count => simp [Event.isOverflow, Event.isOrdinary, hbody]
          | overflow n => simp [hbody] at hb
      · unfold EventList.spill at he
        split at he
        · exact overflow _ he
        · exact he

/-! ### A run of occurrences -/

/-- List `m` is list `l` after at most `n` occurrences of the keys named, and drops of a NOTICE with them. -/
structure EventList.grows (keys : EventKey → Prop) (n : Nat) (l m : EventList) : Prop where
  load : m.load ≤ l.load + n
  kept : ∀ key v, key.isDrop = false → ¬keys key → l.reports key v → m.reports key v
  old  : ∀ key, key.isDrop = false → ¬keys key → ∀ e ∈ m.entries, e.hasKey key = true → e ∈ l.entries

theorem EventList.grows.refl (keys : EventKey → Prop) (n : Nat) (l : EventList) : l.grows keys n l :=
  ⟨Nat.le_add_right _ _, fun _ _ _ _ h => h, fun _ _ _ _ h _ => h⟩

theorem EventList.grows.mono {keys keys' : EventKey → Prop} {n n' : Nat} {l m : EventList} (h : l.grows keys n m)
    (hk : ∀ key, keys key → keys' key) (hn : n ≤ n') : l.grows keys' n' m :=
  ⟨h.load.trans (Nat.add_le_add_left hn _), fun key v hd hk' => h.kept key v hd fun hx => hk' (hk key hx),
    fun key hd hk' => h.old key hd fun hx => hk' (hk key hx)⟩

theorem EventList.grows.trans {keys : EventKey → Prop} {n n' : Nat} {l m o : EventList} (h : l.grows keys n m)
    (h' : m.grows keys n' o) : l.grows keys (n + n') o := by
  refine ⟨?_, fun key v hd hk hr => h'.kept key v hd hk (h.kept key v hd hk hr),
    fun key hd hk e he hb => h.old key hd hk e (h'.old key hd hk e he hb) hb⟩
  have h1 := h.load
  have h2 := h'.load
  omega

theorem grows_take (l : EventList) (key : EventKey) (v : EventValue) (now : Stamp) :
    l.grows (· = key) (if key.isDrop then 0 else 1) (l.take key v now) := by
  refine ⟨?_, fun key' v' _ hk hr => take_reports_other hk hr now, fun key' _ hk e => mem_take_of_hasKey hk⟩
  cases key with
  | mgmtError p => exact load_take_drop_le l p v now
  | _ => exact load_take_le l _ v now

theorem grows_drop (l : EventList) (p : PortId) (v : EventValue) (now : Stamp) :
    l.grows (fun _ => False) 0 (l.take (.mgmtError p) v now) := by
  have h := grows_take l (.mgmtError p) v now
  refine ⟨h.load, fun key v hd _ => h.kept key v hd ?_, fun key hd _ => h.old key hd ?_⟩
  · rintro rfl
    cases hd
  · rintro rfl
    cases hd

theorem grows_offerNotices (s : State) : s.events.grows (fun _ => False) 0 s.offerNotices.events := by
  have drop : ∀ {t : State} (p : PortId), s.events.grows (fun _ => False) 0 t.events →
      s.events.grows (fun _ => False) 0 (t.noticeDropped p).events := fun {t} p h => by
    rw [noticeDropped_events]
    exact h.trans (grows_drop _ _ _ _)
  have h0 : s.events.grows (fun _ => False) 0
      ((s.queueNotice .a s.events.notice).queueNotice .b s.events.notice).events := by
    rw [queueNotice_events, queueNotice_events]
    exact .refl _ _ _
  unfold State.offerNotices
  simp only
  split
  · exact h0
  · exact drop .a h0
  · exact drop .b h0
  · split
    · exact drop .a (drop .b h0)
    · exact drop .b (drop .a h0)

theorem grows_attn (l : EventList) (attn : Bool) (timer : Option Octet) :
    l.grows (fun _ => False) 0 { l with attn := attn, timer := timer } :=
  ⟨le_rfl, fun _ _ _ _ h => h, fun _ _ _ _ h _ => h⟩

theorem grows_settleAttention (s : State) : s.events.grows (fun _ => False) 0 s.settleAttention.events := by
  unfold State.settleAttention
  split
  · exact .refl _ _ _
  · split
    · exact (grows_attn s.events true (startedTimer s.events.interval)).trans (grows_offerNotices (s.setEvents _))
    · exact grows_attn s.events false none

theorem grows_raise (s : State) (key : EventKey) (v : EventValue) :
    s.events.grows (· = key) (if key.isDrop then 0 else 1) (s.raise key v).events :=
  (grows_take s.events key v s.timing.stamp).trans
    ((grows_settleAttention (s.takeOccurrence key v)).mono (fun _ h => h.elim) le_rfl)

/-- A list that the load leaves room in admits every key (R112). -/
theorem admits_of_load {l : EventList} (h : l.load < 63) (key : EventKey) : l.admits key :=
  .inr ((ordinaryCount_le_load l).trans_lt h)

end Sys2Proof.Machine
end

section
/-! SUPPORT. The shares of a completed frame one by one, where its management octets complete nothing (R51). -/

namespace Sys2Proof.Machine

/-! ### What a share does to the ports and to the list -/

/-- The keys of the occurrences that a share can bring about. -/
def taskRaises (k : Highway) (watched : Slot → Bool) (key : EventKey) : CompletionTask → Prop
  | .queue => key = .slip k
  | .supervisor => ∃ n, watched n = true ∧ key = .sigChange k n
  | .framer => False
  | .capture => key = .capture
  | .guard => key = .alignState k

/-- How many entries they can make. -/
def taskCost (watchedCount : Nat) : CompletionTask → Nat
  | .queue => 1
  | .supervisor => watchedCount
  | .framer => 0
  | .capture => 1
  | .guard => 1

section
variable (s : State) (k : Highway)

theorem raised_ports {t : State} {bs : List Block} (h : s.touches bs t) (ha : Block.portA ∉ bs) (hb : Block.portB ∉ bs)
    (key : EventKey) (v : EventValue) (p : PortId) : (s.port p).hears ((t.raise key v).port p) :=
  (ports_of_touches h ha hb p).trans ((hears_raise t key v).ports p)

theorem raised_grows {t : State} {bs : List Block} (h : s.touches bs t) (he : Block.events ∉ bs) (key : EventKey)
    (v : EventValue) : s.events.grows (· = key) 1 (t.raise key v).events := by
  rw [← h.events he]
  exact (grows_raise t key v).mono (fun _ h => h) (by split <;> omega)

theorem grows_of_touches {t : State} {bs : List Block} (h : s.touches bs t) (he : Block.events ∉ bs)
    (keys : EventKey → Prop) (n : Nat) : s.events.grows keys n t.events := by
  rw [h.events he]
  exact .refl _ _ _

/-- A share that raises nothing, or one event of key `key`. -/
def State.raisesOnce (s t : State) (key : EventKey) : Prop :=
  (∀ p, (s.port p).hears (t.port p)) ∧ s.events.grows (· = key) 1 t.events

theorem raisesOnce_of_touches {t : State} {bs : List Block} (h : s.touches bs t) (ha : Block.portA ∉ bs)
    (hb : Block.portB ∉ bs) (he : Block.events ∉ bs) (key : EventKey) : s.raisesOnce t key :=
  ⟨ports_of_touches h ha hb, grows_of_touches s h he _ _⟩

theorem raisesOnce_raise {t : State} {bs : List Block} (h : s.touches bs t) (ha : Block.portA ∉ bs)
    (hb : Block.portB ∉ bs) (he : Block.events ∉ bs) (key : EventKey) (v : EventValue) :
    s.raisesOnce (t.raise key v) key :=
  ⟨raised_ports s h ha hb key v, raised_grows s h he key v⟩

theorem raisesOnce_refl (key : EventKey) : s.raisesOnce s key := ⟨fun _ => .refl _, .refl _ _ _⟩

theorem appendFrame_raisesOnce (f : Payload) : s.raisesOnce (s.appendFrame k f) (.slip k) := by
  unfold State.appendFrame
  simp only
  split
  · exact raisesOnce_of_touches s (touches_setQueue s k _) (by simp) (by simp) (by simp) _
  · exact raisesOnce_raise s ((touches_setQueue s k _).trans (touches_countHighway _ k _)) (by simp) (by simp) (by simp) _ _

theorem guardTick_raisesOnce (n : FrameNumber) : s.raisesOnce (s.guardTick k n) (.alignState k) := by
  unfold State.guardTick
  split
  · split
    · split
      · exact raisesOnce_raise s (touches_setAlign s k _ _) (by simp) (by simp) (by simp) _ _
      · exact raisesOnce_of_touches s (touches_setAlign s k _ _) (by simp) (by simp) (by simp) _
    · exact raisesOnce_refl s _
  all_goals exact raisesOnce_refl s _

theorem captureOctet_raisesOnce (o : Octet) : s.raisesOnce (s.captureOctet o) .capture := by
  unfold State.captureOctet
  split
  · exact raisesOnce_of_touches s (touches_setCapture s _) (by simp) (by simp) (by simp) _
  · exact raisesOnce_raise s (touches_setCapture s _) (by simp) (by simp) (by simp) _ _

theorem captureTask_raisesOnce (a : Align) (f : InFrame) : s.raisesOnce (s.completionTask k a f .capture) .capture := by
  unfold State.completionTask
  simp only
  split
  · split
    · split
      · exact captureOctet_raisesOnce s _
      · exact raisesOnce_refl s _
    all_goals exact raisesOnce_refl s _
  · exact raisesOnce_refl s _

/-! ### The acceptances (R95) -/

/-- One acceptance raises SIG_CHANGE for a watched slot, and nothing else (R95, R103). -/
theorem handAcceptance_raises (x : Slot × Code × Bool) :
    (∀ p, (s.port p).hears ((s.handAcceptance k x).port p)) ∧
      s.events.grows (fun key => x.2.2 = true ∧ key = .sigChange k x.1) (if x.2.2 then 1 else 0)
        (s.handAcceptance k x).events := by
  have ht := touches_setCapture s (s.capture.acceptance s.timing.stamp k x.1 x.2.1)
  unfold State.handAcceptance
  cases hx : x.2.2 with
  | true =>
    rw [if_pos rfl, if_pos rfl]
    exact ⟨raised_ports s ht (by simp) (by simp) _ _, (raised_grows s ht (by simp) _ _).mono (fun _ h => ⟨rfl, h⟩) le_rfl⟩
  | false =>
    exact ⟨ports_of_touches ht (by simp) (by simp), grows_of_touches s ht (by simp) _ _⟩

/-- The acceptances one after another. -/
theorem handAcceptances_raise (l : List (Slot × Code × Bool)) :
    (∀ p, (s.port p).hears ((l.foldl (fun t x => t.handAcceptance k x) s).port p)) ∧
      s.events.grows (fun key => ∃ x ∈ l, x.2.2 = true ∧ key = .sigChange k x.1) (l.countP (·.2.2))
        (l.foldl (fun t x => t.handAcceptance k x) s).events := by
  induction l generalizing s with
  | nil => exact ⟨fun _ => .refl _, .refl _ _ _⟩
  | cons x l ih =>
    obtain ⟨hp, hg⟩ := handAcceptance_raises s k x
    obtain ⟨hp', hg'⟩ := ih (s.handAcceptance k x)
    refine ⟨fun p => (hp p).trans (hp' p), ?_⟩
    have h := (hg.mono (n' := if x.2.2 then 1 else 0)
      (keys' := fun key => ∃ y ∈ x :: l, y.2.2 = true ∧ key = .sigChange k y.1)
      (fun key h => ⟨x, List.mem_cons_self, h⟩) le_rfl).trans
      (hg'.mono (fun key ⟨y, hy, h⟩ => ⟨y, List.mem_cons_of_mem _ hy, h⟩) le_rfl)
    refine h.mono (fun _ h => h) (le_of_eq ?_)
    rw [List.countP_cons, Nat.add_comm]

end

/-! ### The acceptances of an evaluation (R93, R95) -/

theorem mem_acceptances {x : Supervisor} {p : Nat} {n : Slot} {c : Code} {w : Bool} :
    (n, c, w) ∈ x.acceptances p ↔
      x.received[n] = some c ∧ (x.slots[n].filter p c).2 = true ∧ w = x.slots[n].watched := by
  unfold Supervisor.acceptances
  rw [List.mem_filterMap]
  constructor
  · rintro ⟨m, -, hm⟩
    split at hm
    · rename_i d hd
      split at hm
      · cases hm
        exact ⟨hd, ‹_›, rfl⟩
      · cases hm
    · cases hm
  · rintro ⟨hr, hf, rfl⟩
    exact ⟨n, List.mem_finRange n, by simp only [hr, hf, if_true]⟩

/-- Each slot is accepted at most once (R93). -/
theorem acceptances_nodup (x : Supervisor) (p : Nat) : ((x.acceptances p).map (·.1)).Nodup := by
  unfold Supervisor.acceptances
  refine (List.Nodup.filterMap ?_ (List.nodup_finRange 64)).map_on ?_
  · intro n m b hn hm
    have key : ∀ n : Slot, b ∈ (match x.received[n] with
        | some c => if (x.slots[n].filter p c).2 then some (n, c, x.slots[n].watched) else none
        | none => none) → b.1 = n := fun n hn => by
      split at hn
      · split at hn
        · cases hn
          rfl
        · cases hn
      · cases hn
    exact (key n hn).symm.trans (key m hm)
  · rintro ⟨n, c, w⟩ hn ⟨m, d, v⟩ hm (rfl : n = m)
    obtain ⟨h1, -, h3⟩ := mem_acceptances.mp hn
    obtain ⟨h1', -, h3'⟩ := mem_acceptances.mp hm
    rw [h1] at h1'
    cases h1'
    rw [h3, h3']

theorem toList_eq_map {α : Type} {n : Nat} (v : Vector α n) : v.toList = (List.finRange n).map fun i => v[i] :=
  List.ext_getElem (by simp) fun i h1 h2 => by simp

theorem watchedCount_eq (x : Supervisor) :
    x.watchedCount = ((List.finRange 64).filter fun n : Slot => x.slots[n].watched).length := by
  rw [Supervisor.watchedCount, toList_eq_map, List.countP_map, List.countP_eq_length_filter]
  rfl

/-- As many SIG_CHANGE as slots are watched, at most (R95, R100). -/
theorem watched_acceptances_le (x : Supervisor) (p : Nat) : (x.acceptances p).countP (·.2.2) ≤ x.watchedCount := by
  rw [watchedCount_eq, List.countP_eq_length_filter, ← List.length_map (f := Prod.fst)]
  refine (List.subperm_of_subset ?_ ?_).length_le
  · exact (List.filter_sublist.map _).nodup (acceptances_nodup x p)
  · intro n hn
    obtain ⟨⟨m, c, w⟩, hm, rfl⟩ := List.mem_map.mp hn
    obtain ⟨hmem, hw⟩ := List.mem_filter.mp hm
    obtain ⟨-, -, rfl⟩ := mem_acceptances.mp hmem
    exact List.mem_filter.mpr ⟨List.mem_finRange _, hw⟩

/-! ### The supervisor's share -/

theorem collect_kept (x : Supervisor) (n : FrameNumber) (f : InFrame) (flywheel : Bool) :
    (x.collect n f flywheel).slots = x.slots ∧ (x.collect n f flywheel).lastEvaluation = x.lastEvaluation ∧
      (x.collect n f flywheel).spoiled = (x.spoiled || flywheel) := ⟨rfl, rfl, rfl⟩

theorem watchedCount_congr {x y : Supervisor} (h : x.slots = y.slots) : x.watchedCount = y.watchedCount := by
  rw [Supervisor.watchedCount, h, Supervisor.watchedCount]

/-- The state before the acceptances of an evaluation are handed on (R92). -/
theorem endMultiframe_eq (s : State) (k : Highway) :
    s.endMultiframe k =
      if (s.sup k).complete then
        ((s.sup k).acceptances (s.receiver k).persistence).foldl (fun t x => t.handAcceptance k x)
          (s.setSup k (((s.sup k).evaluated (s.receiver k).persistence s.timing.stamp).emptied))
      else s.setSup k (s.sup k).emptied := rfl

theorem endMultiframe_raises (s : State) (k : Highway) :
    (∀ p, (s.port p).hears ((s.endMultiframe k).port p)) ∧
      s.events.grows (fun key => ∃ n : Slot, (s.sup k).slots[n].watched = true ∧ key = .sigChange k n)
        (s.sup k).watchedCount (s.endMultiframe k).events := by
  rw [endMultiframe_eq]
  split
  · have ht := touches_setSup s k (((s.sup k).evaluated (s.receiver k).persistence s.timing.stamp).emptied)
    obtain ⟨hp, hg⟩ := handAcceptances_raise
      (s.setSup k (((s.sup k).evaluated (s.receiver k).persistence s.timing.stamp).emptied)) k
      ((s.sup k).acceptances (s.receiver k).persistence)
    refine ⟨fun p => (ports_of_touches ht (by simp) (by simp) p).trans (hp p), ?_⟩
    rw [ht.events (by simp)] at hg
    refine hg.mono ?_ (watched_acceptances_le _ _)
    rintro key ⟨⟨n, c, w⟩, hx, hw, rfl⟩
    obtain ⟨-, -, rfl⟩ := mem_acceptances.mp hx
    exact ⟨n, hw, rfl⟩
  · have ht := touches_setSup s k (s.sup k).emptied
    exact ⟨ports_of_touches ht (by simp) (by simp), grows_of_touches s ht (by simp) _ _⟩

theorem superviseFrame_raises (s : State) (k : Highway) (n : FrameNumber) (f : InFrame) (flywheel : Bool) :
    (∀ p, (s.port p).hears ((s.superviseFrame k n f flywheel).port p)) ∧
      s.events.grows (fun key => ∃ n : Slot, (s.sup k).slots[n].watched = true ∧ key = .sigChange k n)
        (s.sup k).watchedCount (s.superviseFrame k n f flywheel).events := by
  have ht := touches_setSup s k ((s.sup k).collect n f flywheel)
  unfold State.superviseFrame
  simp only
  split
  · obtain ⟨hp, hg⟩ := endMultiframe_raises (s.setSup k ((s.sup k).collect n f flywheel)) k
    rw [ht.events (by simp), sup_setSup, if_pos rfl, (collect_kept _ _ _ _).1,
      watchedCount_congr (collect_kept (s.sup k) n f flywheel).1] at hg
    exact ⟨fun p => (ports_of_touches ht (by simp) (by simp) p).trans (hp p), hg⟩
  · exact ⟨ports_of_touches ht (by simp) (by simp), grows_of_touches s ht (by simp) _ _⟩

end Sys2Proof.Machine
end

section
/-! SUPPORT. A completed frame whose management octets complete nothing: its shares, and what each leaves alone (R51). -/

namespace Sys2Proof.Machine

/-! ### The framer's share where nothing is completed (R132) -/

/-- The framer of the port on highway `k` after the management octets of the frame (R132). -/
def State.framerAfter (s : State) (k : Highway) (f : InFrame) : Framer :=
  match portOn s.straps k with
  | some p => (Framer.takeAll (s.port p).framer (mgmtOctetsOf s.straps f.payload)).1
  | none => .hunt

/-- The state with the framer of the port on highway `k` as given. -/
def State.framed (s : State) (k : Highway) (after : Framer) : State :=
  match portOn s.straps k with
  | some p => s.setFramer p after
  | none => s

/-- A share of a frame that completes nothing at the port: the framer is left as it will be. -/
def State.quietTask (s : State) (k : Highway) (a : Align) (f : InFrame) (after : Framer) : CompletionTask → State
  | .framer => if a.handsOver then s.framed k after else s
  | x => s.completionTask k a f x

theorem quietTask_of_ne {x : CompletionTask} (hx : x ≠ .framer) (s : State) (k : Highway) (a : Align) (f : InFrame)
    (after : Framer) : s.quietTask k a f after x = s.completionTask k a f x := by
  cases x <;> first | rfl | exact absurd rfl hx

theorem touches_framed (s : State) (k : Highway) (after : Framer) : s.touches [.portA, .portB] (s.framed k after) := by
  unfold State.framed
  split
  · exact touches_setPort s _ _
  · exact touches_refl _ s

theorem framerFrame_framed {s : State} {k : Highway} {f : InFrame} (h : s.framerQuiet k f) :
    s.framerFrame k f.payload = s.framed k (s.framerAfter k f) := by
  rw [framerFrame_quiet h, State.framed, State.framerAfter]
  cases portOn s.straps k <;> rfl

theorem framerQuiet_congr {s t : State} {k : Highway} (hs : t.straps = s.straps)
    (hp : ∀ p, (t.port p).framer = (s.port p).framer) (f : InFrame) :
    (s.framerQuiet k f → t.framerQuiet k f) ∧ t.framerAfter k f = s.framerAfter k f := by
  unfold State.framerQuiet State.framerAfter
  rw [hs]
  refine ⟨fun h p hk => by rw [hp]; exact h p hk, ?_⟩
  cases portOn s.straps k with
  | none => rfl
  | some p => simp only [hp]

/-! ### The other shares -/

/-- The blocks that a completed frame may touch. -/
def completionBlocks : List Block := [.receivers, .queues, .sups, .capture, .events, .portA, .portB, .draws]

section
variable (s : State) (k : Highway) (a : Align) (f : InFrame)

theorem supervisorTask_eq : s.completionTask k a f .supervisor =
    if a.handsOver then s.superviseFrame k a.frameNumber f a.isFlywheel else s := rfl

theorem queueTask_eq : s.completionTask k a f .queue = if a.inService then s.appendFrame k f.payload else s := rfl

theorem guardTask_eq : s.completionTask k a f .guard = s.guardTick k a.frameNumber := rfl

theorem touches_completionTask {x : CompletionTask} (hx : x ≠ .framer) :
    s.touches completionBlocks (s.completionTask k a f x) := by
  cases x with
  | framer => exact absurd rfl hx
  | queue =>
    rw [queueTask_eq]
    split
    · exact (touches_appendFrame s k _).mono (by simp [completionBlocks])
    · exact touches_refl _ s
  | supervisor =>
    rw [supervisorTask_eq]
    split
    · exact (touches_superviseFrame s k _ f _).mono (by simp [completionBlocks])
    · exact touches_refl _ s
  | capture => exact (touches_captureTask s k a f).mono (by simp [completionBlocks])
  | guard => exact (touches_guardTick s k _).mono (by simp [completionBlocks])

/-- A share but the framer's: news at the ports, and its own occurrences at the list. -/
theorem completionTask_raises {x : CompletionTask} (hx : x ≠ .framer) :
    (∀ p, (s.port p).hears ((s.completionTask k a f x).port p)) ∧
      s.events.grows (fun key => taskRaises k (fun n => (s.slotState k n).watched) key x) (taskCost (s.sup k).watchedCount x)
        (s.completionTask k a f x).events := by
  have once : ∀ {t : State} {key : EventKey}, s.raisesOnce t key → (∀ key', key' = key → taskRaises k
      (fun n => (s.slotState k n).watched) key' x) → 1 ≤ taskCost (s.sup k).watchedCount x →
      (∀ p, (s.port p).hears (t.port p)) ∧
        s.events.grows (fun key => taskRaises k (fun n => (s.slotState k n).watched) key x) (taskCost (s.sup k).watchedCount x)
          t.events := fun h hk hc => ⟨h.1, h.2.mono hk hc⟩
  cases x with
  | framer => exact absurd rfl hx
  | queue =>
    rw [queueTask_eq]
    split
    · exact once (appendFrame_raisesOnce s k _) (fun _ h => h) le_rfl
    · exact once (raisesOnce_refl s _) (fun _ h => h) le_rfl
  | supervisor =>
    rw [supervisorTask_eq]
    split
    · exact superviseFrame_raises s k _ f _
    · exact ⟨fun _ => .refl _, .refl _ _ _⟩
  | capture => exact once (captureTask_raisesOnce s k a f) (fun _ h => h) le_rfl
  | guard => exact once (guardTick_raisesOnce s k _) (fun _ h => h) le_rfl

end

/-- Shares one after another, none of them the framer's, leave the framers, the straps and the watch flags. -/
theorem completionTasks_leave (s : State) (k : Highway) (a : Align) (f : InFrame) {l : List CompletionTask}
    (hl : .framer ∉ l) :
    s.touches completionBlocks (l.foldl (fun t x => t.completionTask k a f x) s) ∧
      ∀ p, (s.port p).hears ((l.foldl (fun t x => t.completionTask k a f x) s).port p) :=
  foldl_keeps (fun t => s.touches completionBlocks t ∧ ∀ p, (s.port p).hears (t.port p)) _ l s
    ⟨touches_refl _ s, fun _ => .refl _⟩ fun t x hx ⟨h1, h2⟩ => by
      have hne : x ≠ .framer := fun e => hl (e ▸ hx)
      exact ⟨(h1.trans (touches_completionTask t k a f hne)).mono (by simp),
        fun p => (h2 p).trans ((completionTask_raises t k a f hne).1 p)⟩

theorem foldl_congr_of_mem {α σ : Type} {g h : σ → α → σ} {l : List α} (hl : ∀ t, ∀ x ∈ l, g t x = h t x) (s : σ) :
    l.foldl g s = l.foldl h s := by
  induction l generalizing s with
  | nil => rfl
  | cons x l ih =>
    rw [List.foldl_cons, List.foldl_cons, hl s x List.mem_cons_self]
    exact ih (fun t y hy => hl t y (List.mem_cons_of_mem _ hy)) _

/-- Where the management octets complete nothing, the shares are those of `quietTask`. -/
theorem handOver_quiet {s : State} {k : Highway} {f : InFrame} (hq : s.framerQuiet k f) (a : Align)
    (order : CompletionOrder) :
    s.handOver k a f order =
      (firstMentions (order ++ completionTasks)).foldl
        (fun t x => t.quietTask k a f (s.framerAfter k f) x) s := by
  obtain ⟨before, after, hl, hb, ha⟩ := completionOrder_split order .framer
  have same : ∀ {l : List CompletionTask}, .framer ∉ l → ∀ t : State,
      l.foldl (fun t x => t.completionTask k a f x) t =
        l.foldl (fun t x => t.quietTask k a f (s.framerAfter k f) x) t := fun h t =>
    foldl_congr_of_mem (fun u x hx => (quietTask_of_ne (fun e => h (e ▸ hx)) u k a f _).symm) t
  obtain ⟨ht, hp⟩ := completionTasks_leave s k a f hb
  rw [State.handOver, hl, List.foldl_append, List.foldl_append, List.foldl_cons, List.foldl_cons, ← same hb, ← same ha]
  congr 1
  generalize before.foldl (fun t x => t.completionTask k a f x) s = t at *
  obtain ⟨hquiet, hafter⟩ := framerQuiet_congr (k := k) (ht.straps (by simp [completionBlocks]))
    (fun p => (hp p).kept.1) f
  show (if a.handsOver then t.framerFrame k f.payload else t) = if a.handsOver then t.framed k _ else t
  rw [framerFrame_framed (hquiet hq), hafter]

/-! ### A run of quiet shares -/

section
variable (s : State) (k : Highway) (a : Align) (f : InFrame) (after : Framer)

theorem touches_quietTask (x : CompletionTask) : s.touches completionBlocks (s.quietTask k a f after x) := by
  by_cases hx : x = .framer
  · subst hx
    unfold State.quietTask
    simp only
    split
    · exact (touches_framed s k after).mono (by simp [completionBlocks])
    · exact touches_refl _ s
  · rw [quietTask_of_ne hx]
    exact touches_completionTask s k a f hx

theorem framerTask_events : (s.quietTask k a f after .framer).events = s.events := by
  unfold State.quietTask
  simp only
  split
  · exact (touches_framed s k after).events (by simp)
  · rfl

theorem quietTask_grows (x : CompletionTask) :
    s.events.grows (fun key => taskRaises k (fun n => (s.slotState k n).watched) key x) (taskCost (s.sup k).watchedCount x)
      (s.quietTask k a f after x).events := by
  by_cases hx : x = .framer
  · subst hx
    rw [framerTask_events]
    exact .refl _ _ _
  · rw [quietTask_of_ne hx]
    exact (completionTask_raises s k a f hx).2

/-! ### What each share leaves alone -/

theorem quietTask_queue_other {x : CompletionTask} (hx : x ≠ .queue) (j : Highway) :
    (s.quietTask k a f after x).queue j = s.queue j := by
  cases x with
  | queue => exact absurd rfl hx
  | framer =>
    unfold State.quietTask
    simp only
    split
    · exact (touches_framed s k after).queue j (by simp)
    · rfl
  | supervisor =>
    rw [quietTask_of_ne (by simp), supervisorTask_eq]
    split
    · exact (touches_superviseFrame s k _ f _).queue j (by simp)
    · rfl
  | capture => exact (touches_captureTask s k a f).queue j (by simp)
  | guard => exact (touches_guardTick s k _).queue j (by simp)

theorem quietTask_sup_other {x : CompletionTask} (hx : x ≠ .supervisor) (j : Highway) :
    (s.quietTask k a f after x).sup j = s.sup j := by
  cases x with
  | supervisor => exact absurd rfl hx
  | framer =>
    unfold State.quietTask
    simp only
    split
    · exact (touches_framed s k after).sup j (by simp)
    · rfl
  | queue =>
    rw [quietTask_of_ne (by simp), queueTask_eq]
    split
    · exact (touches_appendFrame s k _).sup j (by simp)
    · rfl
  | capture => exact (touches_captureTask s k a f).sup j (by simp)
  | guard => exact (touches_guardTick s k _).sup j (by simp)

theorem quietTask_receiver_other {x : CompletionTask} (hq : x ≠ .queue) (hg : x ≠ .guard) (j : Highway) :
    (s.quietTask k a f after x).receiver j = s.receiver j := by
  cases x with
  | queue => exact absurd rfl hq
  | guard => exact absurd rfl hg
  | framer =>
    unfold State.quietTask
    simp only
    split
    · exact (touches_framed s k after).receiver j (by simp)
    · rfl
  | supervisor =>
    rw [quietTask_of_ne (by simp), supervisorTask_eq]
    split
    · exact (touches_superviseFrame s k _ f _).receiver j (by simp)
    · rfl
  | capture => exact (touches_captureTask s k a f).receiver j (by simp)

theorem quietTask_capture_other {x : CompletionTask} (hs : x ≠ .supervisor) (hc : x ≠ .capture) :
    (s.quietTask k a f after x).capture = s.capture := by
  cases x with
  | supervisor => exact absurd rfl hs
  | capture => exact absurd rfl hc
  | framer =>
    unfold State.quietTask
    simp only
    split
    · exact (touches_framed s k after).capture (by simp)
    · rfl
  | queue =>
    rw [quietTask_of_ne (by simp), queueTask_eq]
    split
    · exact (touches_appendFrame s k _).capture (by simp)
    · rfl
  | guard => exact (touches_guardTick s k _).capture (by simp)

end

/-! ### The whole hand-over -/

theorem completionOrder_perm (order : CompletionOrder) :
    (firstMentions (order ++ completionTasks)).Perm completionTasks := by
  refine (List.perm_ext_iff_of_nodup (firstMentions_nodup _) (by decide)).mpr fun x => ?_
  refine ⟨fun _ => ?_, fun _ => mem_completionOrder order x⟩
  cases x <;> decide

/-- In the order of a hand-over a share has its one place, and those before it cost what all others cost at most. -/
theorem completionOrder_cost (order : CompletionOrder) (x : CompletionTask) (w : Nat) :
    ∃ before after, firstMentions (order ++ completionTasks) = before ++ x :: after ∧ x ∉ before ∧ x ∉ after ∧
      (before.map (taskCost w)).sum + taskCost w x ≤ w + 3 := by
  obtain ⟨before, after, hl, hb, ha⟩ := completionOrder_split order x
  refine ⟨before, after, hl, hb, ha, ?_⟩
  have hsum := ((completionOrder_perm order).map (taskCost w)).sum_eq
  rw [hl, List.map_append, List.sum_append, List.map_cons, List.sum_cons] at hsum
  have htotal : (completionTasks.map (taskCost w)).sum = w + 3 := by
    simp only [completionTasks, List.map_cons, List.map_nil, List.sum_cons, List.sum_nil, taskCost]
    omega
  omega

theorem filterReceived_watched (x : SlotState) (p : Nat) (c : Option Code) :
    (x.filterReceived p c).1.watched = x.watched := by
  cases c with
  | none => rfl
  | some c =>
    show (x.filter p c).1.watched = x.watched
    unfold SlotState.filter
    split
    · rfl
    · split
      · split
        · split <;> rfl
        · split <;> rfl
      · split <;> rfl

/-- The slots after a frame: filtered where its multiframe is evaluated, and as they were otherwise (R92, R93). -/
theorem handed_slots (x : Supervisor) (n : FrameNumber) (f : InFrame) (flywheel : Bool) (p : Nat) (now : Stamp)
    (m : Slot) :
    (x.handed n f flywheel p now).slots[m] =
      if n = 15 ∧ (x.collect n f flywheel).complete = true then
        (x.slots[m].filterReceived p (x.collect n f flywheel).received[m]).1
      else x.slots[m] := by
  unfold Supervisor.handed Supervisor.ended
  by_cases hn : n = 15
  · by_cases hc : (x.collect n f flywheel).complete = true
    · rw [if_pos hn, if_pos hc, if_pos ⟨hn, hc⟩, emptied_slots, evaluated_slots, collect_slots]
    · rw [if_pos hn, if_neg hc, if_neg (fun h => hc h.2), emptied_slots, collect_slots]
  · rw [if_neg hn, if_neg (fun h => hn h.1), collect_slots]

theorem handed_watched (x : Supervisor) (n : FrameNumber) (f : InFrame) (flywheel : Bool) (p : Nat) (now : Stamp)
    (m : Slot) : ((x.handed n f flywheel p now).slots[m]).watched = (x.slots[m]).watched := by
  rw [handed_slots]
  split
  · exact filterReceived_watched _ _ _
  · rfl

theorem quietTask_watched (s : State) (k : Highway) (a : Align) (f : InFrame) (after : Framer) (x : CompletionTask)
    (n : Slot) : ((s.quietTask k a f after x).slotState k n).watched = (s.slotState k n).watched := by
  by_cases hx : x = .supervisor
  · subst hx
    rw [quietTask_of_ne (by simp), supervisorTask_eq]
    split
    · rw [superviseFrame_slotState, if_pos rfl, handed_watched]
      rfl
    · rfl
  · rw [slotState_eq_sup, slotState_eq_sup, quietTask_sup_other _ _ _ _ _ hx]

theorem watchedCount_of_watched {x y : Supervisor} (h : ∀ n : Slot, x.slots[n].watched = y.slots[n].watched) :
    x.watchedCount = y.watchedCount := by
  rw [watchedCount_eq, watchedCount_eq]
  simp only [h]

/-- A run of quiet shares: the blocks, the watch flags, and the list (R51). -/
theorem quietTasks_run (s : State) (k : Highway) (a : Align) (f : InFrame) (after : Framer) (l : List CompletionTask) :
    s.touches completionBlocks (l.foldl (fun t x => t.quietTask k a f after x) s) ∧
      (∀ n, ((l.foldl (fun t x => t.quietTask k a f after x) s).slotState k n).watched = (s.slotState k n).watched) ∧
      s.events.grows (fun key => ∃ x ∈ l, taskRaises k (fun n => (s.slotState k n).watched) key x)
        ((l.map (taskCost (s.sup k).watchedCount)).sum)
        (l.foldl (fun t x => t.quietTask k a f after x) s).events := by
  induction l generalizing s with
  | nil => exact ⟨touches_refl _ s, fun _ => rfl, .refl _ _ _⟩
  | cons x l ih =>
    obtain ⟨h1, h2, h3⟩ := ih (s.quietTask k a f after x)
    have hw := quietTask_watched s k a f after x
    have hcount := watchedCount_of_watched (x := (s.quietTask k a f after x).sup k) (y := s.sup k) hw
    refine ⟨((touches_quietTask s k a f after x).trans h1).mono (by simp), fun n => (h2 n).trans (hw n), ?_⟩
    simp only [hw, hcount] at h3
    rw [List.map_cons, List.sum_cons]
    exact ((quietTask_grows s k a f after x).mono (fun key h => ⟨x, List.mem_cons_self, h⟩) le_rfl).trans
      (h3.mono (fun key ⟨y, hy, h⟩ => ⟨y, List.mem_cons_of_mem _ hy, h⟩) le_rfl)

end Sys2Proof.Machine
end

section
/-! SUPPORT. The end of a guard period and the evaluation of a multiframe (R46, R51, R91 to R95). -/

namespace Sys2Proof.Machine

/-! ### A quiet completion, split at one share -/

section
variable (s : State) (k : Highway) (a : Align) (f : InFrame) (after : Framer)

/-- A run of quiet shares. -/
def State.quietTasks (l : List CompletionTask) : State := l.foldl (fun t x => t.quietTask k a f after x) s

theorem quietTasks_append (l : List CompletionTask) (x : CompletionTask) (m : List CompletionTask) :
    s.quietTasks k a f after (l ++ x :: m) =
      ((s.quietTasks k a f after l).quietTask k a f after x).quietTasks k a f after m := by
  rw [State.quietTasks, List.foldl_append, List.foldl_cons]
  rfl

/-- A run that another highway, or a share of it, has no part in. -/
theorem quietTasks_keep (P : State → Prop) (l : List CompletionTask) (h0 : P s)
    (hstep : ∀ t, ∀ x ∈ l, P t → P (t.quietTask k a f after x)) : P (s.quietTasks k a f after l) :=
  foldl_keeps P _ l s h0 hstep

theorem quietTasks_queue {l : List CompletionTask} (hl : .queue ∉ l) (j : Highway) :
    (s.quietTasks k a f after l).queue j = s.queue j :=
  quietTasks_keep s k a f after (fun t => t.queue j = s.queue j) l rfl fun t x hx h =>
    (quietTask_queue_other t k a f after (fun e => hl (e ▸ hx)) j).trans h

theorem quietTasks_sup {l : List CompletionTask} (hl : .supervisor ∉ l) (j : Highway) :
    (s.quietTasks k a f after l).sup j = s.sup j :=
  quietTasks_keep s k a f after (fun t => t.sup j = s.sup j) l rfl fun t x hx h =>
    (quietTask_sup_other t k a f after (fun e => hl (e ▸ hx)) j).trans h

variable {s k a f after}

/-- The other highways have no part in a completion. -/
theorem quietTask_others {j : Highway} (hj : j ≠ k) (x : CompletionTask) :
    (s.quietTask k a f after x).receiver j = s.receiver j ∧ (s.quietTask k a f after x).queue j = s.queue j ∧
      (s.quietTask k a f after x).sup j = s.sup j := by
  cases x with
  | queue =>
    rw [quietTask_of_ne (by simp), queueTask_eq]
    split
    · unfold State.appendFrame
      simp only
      split
      · simp [hj.symm]
      · simp [State.countHighway, hj.symm]
    · exact ⟨rfl, rfl, rfl⟩
  | guard =>
    refine ⟨?_, quietTask_queue_other s k a f after (by simp) j, quietTask_sup_other s k a f after (by simp) j⟩
    rw [quietTask_of_ne (by simp), guardTask_eq]
    unfold State.guardTick
    split
    · split
      · split
        · simp [State.enterService, State.setAlign, hj.symm]
        · simp [State.setAlign, hj.symm]
      · rfl
    all_goals rfl
  | supervisor =>
    refine ⟨quietTask_receiver_other s k a f after (by simp) (by simp) j,
      quietTask_queue_other s k a f after (by simp) j, ?_⟩
    rw [quietTask_of_ne (by simp), supervisorTask_eq]
    split
    · rw [superviseFrame_sup, if_neg hj.symm]
    · rfl
  | framer | capture =>
    exact ⟨quietTask_receiver_other s k a f after (by simp) (by simp) j,
      quietTask_queue_other s k a f after (by simp) j, quietTask_sup_other s k a f after (by simp) j⟩

theorem quietTasks_others {j : Highway} (hj : j ≠ k) (l : List CompletionTask) :
    (s.quietTasks k a f after l).receiver j = s.receiver j ∧ (s.quietTasks k a f after l).queue j = s.queue j ∧
      (s.quietTasks k a f after l).sup j = s.sup j :=
  quietTasks_keep s k a f after
    (fun t => t.receiver j = s.receiver j ∧ t.queue j = s.queue j ∧ t.sup j = s.sup j) l ⟨rfl, rfl, rfl⟩
    fun t x _ ⟨h1, h2, h3⟩ => by
      obtain ⟨h4, h5, h6⟩ := quietTask_others (s := t) (a := a) (f := f) (after := after) hj x
      exact ⟨h4.trans h1, h5.trans h2, h6.trans h3⟩

/-- What a whole quiet hand-over leaves alone. -/
theorem quietTasks_kept (l : List CompletionTask) :
    s.touches completionBlocks (s.quietTasks k a f after l) := (quietTasks_run s k a f after l).1

/-- The list after a run of shares: an event that none of them brings about is still reported. -/
theorem quietTasks_reports {l : List CompletionTask} {key : EventKey} {v : EventValue} (hd : key.isDrop = false)
    (hl : ∀ x ∈ l, ¬taskRaises k (fun n => (s.slotState k n).watched) key x) (h : s.events.reports key v) :
    (s.quietTasks k a f after l).events.reports key v :=
  (quietTasks_run s k a f after l).2.2.kept key v hd (fun ⟨x, hx, hr⟩ => hl x hx hr) h

theorem quietTasks_old {l : List CompletionTask} {key : EventKey} (hd : key.isDrop = false)
    (hl : ∀ x ∈ l, ¬taskRaises k (fun n => (s.slotState k n).watched) key x) {e : Event}
    (he : e ∈ (s.quietTasks k a f after l).events.entries) (hk : e.hasKey key = true) : e ∈ s.events.entries :=
  (quietTasks_run s k a f after l).2.2.old key hd (fun ⟨x, hx, hr⟩ => hl x hx hr) e he hk

end

/-- A completion in which the port framer completes nothing is a run of quiet shares; `x` is one of them, and when its turn
comes there is still room at the list. -/
theorem completeFrame_at {s : State} {k : Highway} {f : InFrame} (hf : (s.receiver k).inFrame = true)
    (ho : (s.receiver k).align.handsOver = true) (hq : s.framerQuiet k f) (order : CompletionOrder)
    (x : CompletionTask) :
    ∃ before after framer, s.completeFrame k f order =
        (((s.setAlign k (s.receiver k).align false).quietTasks k (s.receiver k).align f framer before).quietTask k
          (s.receiver k).align f framer x).quietTasks k (s.receiver k).align f framer after ∧
      x ∉ before ∧ x ∉ after ∧ framer = s.framerAfter k f ∧
      ((s.setAlign k (s.receiver k).align false).quietTasks k (s.receiver k).align f framer before).events.load +
        taskCost (s.sup k).watchedCount x ≤ s.events.ordinaryCount + (s.sup k).watchedCount + 5 := by
  have ht := touches_setAlign s k (s.receiver k).align false
  obtain ⟨hquiet, hafter⟩ := framerQuiet_congr (k := k) (ht.straps (by simp))
    (fun p => congrArg Port.framer (ht.port p (by simp) (by simp))) f
  obtain ⟨before, after, hl, hb, ha, hcost⟩ := completionOrder_cost order x (s.sup k).watchedCount
  refine ⟨before, after, _, ?_, hb, ha, rfl, ?_⟩
  · rw [completeFrame_of_handsOver hf ho, handOver_quiet (hquiet hq), hl, hafter]
    exact quietTasks_append _ k _ f _ before x after
  · obtain ⟨-, -, hg⟩ := quietTasks_run (s.setAlign k (s.receiver k).align false) k (s.receiver k).align f
      (s.framerAfter k f) before
    have hload := hg.load
    rw [ht.sup k (by simp), ht.events (by simp)] at hload
    have h2 := load_le s.events
    have := Nat.add_le_add_right hload (taskCost (s.sup k).watchedCount x)
    simp only [State.quietTasks]
    omega

end Sys2Proof.Machine
end

section
/-! SUPPORT. The end of a guard period (R46) and the evaluation of a multiframe (R91 to R95), continued. -/

namespace Sys2Proof.Machine

theorem exec_inputFrameCompletion (k : Highway) (f : InFrame) (order : CompletionOrder) (s : State) :
    exec (.inputFrameCompletion k f order) s = .next (s.completeFrame k f order) := rfl

/-! ### In GUARD (R46) -/

section
variable {s : State} {k : Highway} {a : Align} {f : InFrame} {after : Framer}

theorem quietTask_queue_of_guard (ha : a.inService = false) : s.quietTask k a f after .queue = s := by
  rw [quietTask_of_ne (by simp), queueTask_eq, if_neg (by simp [ha])]

/-- Out of service only the guard's share touches the receiver, and none the queue. -/
theorem quietTasks_of_guard (ha : a.inService = false) {l : List CompletionTask} (hl : .guard ∉ l) :
    (s.quietTasks k a f after l).receiver k = s.receiver k :=
  quietTasks_keep s k a f after (fun t => t.receiver k = s.receiver k) l rfl fun t x hx h => by
    by_cases hq : x = .queue
    · rw [hq, quietTask_queue_of_guard ha]
      exact h
    · rw [quietTask_receiver_other t k a f after hq (fun e => hl (e ▸ hx))]
      exact h

theorem quietTasks_queue_of_guard (ha : a.inService = false) (l : List CompletionTask) (j : Highway) :
    (s.quietTasks k a f after l).queue j = s.queue j :=
  quietTasks_keep s k a f after (fun t => t.queue j = s.queue j) l rfl fun t x _ h => by
    by_cases hq : x = .queue
    · rw [hq, quietTask_queue_of_guard ha]
      exact h
    · rw [quietTask_queue_other t k a f after hq]
      exact h

/-- The guard count at an input multiframe completion (R46). -/
theorem guardTick_of_guard {e : FrameNumber} {n : Nat} (h : (s.receiver k).align = .guard e n) :
    s.guardTick k 15 = if n ≤ 1 then s.enterService k e false else s.setAlign k (.guard e (n - 1)) false := by
  simp [State.guardTick, h]

end

theorem taskRaises_alignState {k : Highway} {w : Slot → Bool} {x : CompletionTask}
    (h : taskRaises k w (.alignState k) x) : x = .guard := by
  cases x with
  | guard => rfl
  | supervisor => obtain ⟨n, -, h⟩ := h; cases h
  | framer => cases h
  | queue | capture => cases h

/-- What an input multiframe completion in GUARD leaves, whatever the order of the shares (R46, R51). -/
theorem completeFrame_of_guard {s : State} {k : Highway} {f : InFrame} {n : Nat}
    (hf : (s.receiver k).inFrame = true) (ha : (s.receiver k).align = .guard 0 n) (hq : s.framerQuiet k f)
    (order : CompletionOrder) :
    (s.completeFrame k f order).receiver k = { s.receiver k with
        align := if n ≤ 1 then .aligned 0 else .guard 0 (n - 1), inFrame := false } ∧
      (∀ j, (s.completeFrame k f order).queue j = s.queue j) ∧
      (∀ j, j ≠ k → (s.completeFrame k f order).receiver j = s.receiver j ∧
        (s.completeFrame k f order).sup j = s.sup j) ∧
      (n ≤ 1 → s.events.ordinaryCount + (s.sup k).watchedCount ≤ 58 →
        (s.completeFrame k f order).events.reports (.alignState k) .inService) ∧
      s.touches completionBlocks (s.completeFrame k f order) := by
  obtain ⟨before, after, framer, he, hb, haft, -, hload⟩ := completeFrame_at hf (by rw [ha]; rfl) hq order .guard
  rw [he]
  rw [ha] at hload ⊢
  have ht := touches_setAlign s k (.guard 0 n) false
  have hout : (Align.guard 0 n).inService = false := rfl
  have hr : ((s.setAlign k (.guard 0 n) false).quietTasks k (.guard 0 n) f framer before).receiver k =
      { s.receiver k with align := .guard 0 n, inFrame := false } := by
    rw [quietTasks_of_guard hout hb, setAlign_receiver]
  have htq := ht.trans (quietTasks_kept (s := s.setAlign k (.guard 0 n) false) (k := k) (a := .guard 0 n) (f := f)
    (after := framer) before)
  have hqb := fun j => (quietTasks_queue_of_guard (s := s.setAlign k (.guard 0 n) false) (k := k) (f := f)
    (after := framer) hout before j).trans (ht.queue j (by simp))
  have hob := fun j (hj : j ≠ k) => quietTasks_others (s := s.setAlign k (.guard 0 n) false) (a := .guard 0 n) (f := f)
    (after := framer) hj before
  generalize (s.setAlign k (.guard 0 n) false).quietTasks k (.guard 0 n) f framer before = t at *
  have hguard : t.quietTask k (.guard 0 n) f framer .guard =
      if n ≤ 1 then t.enterService k 0 false else t.setAlign k (.guard 0 (n - 1)) false :=
    guardTick_of_guard (s := t) (k := k) (e := 0) (n := n) (by rw [hr])
  have htouch := touches_quietTask t k (.guard 0 n) f framer .guard
  have hother := fun j (hj : j ≠ k) => quietTask_others (s := t) (a := .guard 0 n) (f := f) (after := framer) hj .guard
  have hqg := quietTask_queue_other t k (.guard 0 n) f framer (x := .guard) (by simp)
  refine ⟨?_, fun j => ?_, fun j hj => ⟨?_, ?_⟩, fun hn hroom => ?_, ?_⟩
  · rw [quietTasks_of_guard hout haft, hguard]
    split
    · rw [State.enterService, raise_receiver, setAlign_receiver, hr]
    · rw [setAlign_receiver, hr]
  · rw [quietTasks_queue_of_guard hout, hqg, hqb]
  · rw [(quietTasks_others hj after).1, (hother j hj).1, (hob j hj).1]
    simp [State.setAlign, hj.symm]
  · rw [(quietTasks_others hj after).2.2, (hother j hj).2.2, (hob j hj).2.2, ht.sup j (by simp)]
  · refine quietTasks_reports rfl (fun x hx hr => haft (taskRaises_alignState hr ▸ hx)) ?_
    rw [hguard, if_pos hn]
    refine raise_reports (s := t.setAlign k (.aligned 0) false) (admits_of_load ?_ _) (by simp) _
    rw [(touches_setAlign t k _ _).events (by simp)]
    simp only [taskCost] at hload
    omega
  · exact ((htq.trans htouch).trans (quietTasks_kept after)).mono (by simp [completionBlocks])

/-- Settles O49: the guard's share ends the period, or lowers the count. -/
theorem guardEndsInService : Obligations.GuardEndsInService := by
  intro k f order n s hf ha hq
  obtain ⟨hr, hqueue, hother, hrep, ht⟩ := completeFrame_of_guard hf ha hq order
  refine ⟨fun hn => ?_, fun hn => ?_⟩
  · subst hn
    have hends : s.guardEnds k = true := by
      rw [State.guardEnds, ha]
      simp [hf]
    exact ⟨_, if_pos hends, hr, hqueue k, fun j hj => ⟨(hother j hj).1, hqueue j, (hother j hj).2⟩, hrep le_rfl,
      ht.bank0 (by simp [completionBlocks]), ht.bank1 (by simp [completionBlocks]),
      ht.engine (by simp [completionBlocks]), ht.outputs (by simp [completionBlocks]),
      ht.lease (by simp [completionBlocks])⟩
  · rw [if_neg (by omega)] at hr
    exact ⟨_, exec_inputFrameCompletion k f order s, hr, hqueue k⟩

/-! ### The evaluation (R92, R93, R95) -/

theorem taskRaises_sigChange {k : Highway} {w : Slot → Bool} {n : Slot} {x : CompletionTask}
    (h : taskRaises k w (.sigChange k n) x) : x = .supervisor := by
  cases x with
  | supervisor => rfl
  | framer => cases h
  | queue | capture | guard => cases h

/-- Every watched acceptance is reported, where there is room for all of them (R95, R103). -/
theorem handAcceptances_report (s : State) (k : Highway) (l : List (Slot × Code × Bool)) (hn : (l.map (·.1)).Nodup)
    (hroom : s.events.load + l.countP (·.2.2) ≤ 63) {n : Slot} {c : Code} (hmem : (n, c, true) ∈ l) :
    (l.foldl (fun t x => t.handAcceptance k x) s).events.reports (.sigChange k n) (.code c) := by
  induction l generalizing s with
  | nil => cases hmem
  | cons x l ih =>
    rw [List.map_cons, List.nodup_cons] at hn
    obtain ⟨hx, hn⟩ := hn
    rw [List.countP_cons] at hroom
    rcases List.mem_cons.mp hmem with rfl | hmem
    · refine (handAcceptances_raise (s.handAcceptance k (n, c, true)) k l).2.kept _ _ rfl ?_ ?_
      · rintro ⟨y, hy, -, he⟩
        cases he
        exact hx (List.mem_map.mpr ⟨y, hy, rfl⟩)
      · refine raise_reports (s := s.setCapture _) (admits_of_load ?_ _) (by simp) _
        rw [setCapture_events]
        simp at hroom
        omega
    · have hg := (handAcceptance_raises s k x).2.load
      exact ih (s.handAcceptance k x) hn (by omega) hmem

/-- A slot is accepted exactly when its stable code becomes the received one (R93). -/
theorem filter_accepts_iff (x : SlotState) (p : Nat) (c : Code) :
    (x.filter p c).2 = true ↔ x.stable ≠ some c ∧ (x.filter p c).1.stable = some c := by
  unfold SlotState.filter
  by_cases h : x.stable = some c
  · rw [if_pos h]
    simp [h]
  · rw [if_neg h]
    split
    · split
      · split <;> simp [SlotState.accept, h]
      · split <;> simp [SlotState.accept, h]
    · split <;> simp [SlotState.accept, h]

/-- The acceptances of the multiframe that frame `f` ends, if it is evaluated (R92, R95). -/
def Supervisor.accepted (x : Supervisor) (f : InFrame) (flywheel : Bool) (p : Nat) : List (Slot × Code × Bool) :=
  if (x.collect 15 f flywheel).complete then (x.collect 15 f flywheel).acceptances p else []

/-- The acceptances of a multiframe are its changes of a stable code (R93, R95). -/
theorem mem_accepted_iff (x : Supervisor) (f : InFrame) (flywheel : Bool) (p : Nat) (now : Stamp) (n : Slot) (c : Code)
    (w : Bool) :
    (n, c, w) ∈ x.accepted f flywheel p ↔
      w = x.slots[n].watched ∧ x.slots[n].stable ≠ some c ∧
        ((x.handed 15 f flywheel p now).slots[n]).stable = some c := by
  unfold Supervisor.accepted
  rw [handed_slots]
  by_cases hc : (x.collect 15 f flywheel).complete = true
  · rw [if_pos hc, if_pos ⟨rfl, hc⟩, mem_acceptances, collect_slots]
    constructor
    · rintro ⟨hr, ha, hw⟩
      rw [hr]
      exact ⟨hw, (filter_accepts_iff _ _ _).mp ha⟩
    · rintro ⟨hw, hne, hst⟩
      cases hr : (x.collect 15 f flywheel).received[n] with
      | none =>
        rw [hr] at hst
        exact absurd hst hne
      | some d =>
        rw [hr] at hst
        have hst : (x.slots[n].filter p d).1.stable = some c := hst
        rcases filter_stable x.slots[n] p d with h | h
        · exact absurd (h.symm.trans hst) hne
        · obtain rfl : d = c := Option.some.inj (h.symm.trans hst)
          exact ⟨rfl, (filter_accepts_iff _ _ _).mpr ⟨hne, hst⟩, hw⟩
  · rw [if_neg hc, if_neg (fun h => hc h.2)]
    constructor
    · intro h
      cases h
    · rintro ⟨-, hne, hst⟩
      exact absurd hst hne

theorem accepted_nodup (x : Supervisor) (f : InFrame) (flywheel : Bool) (p : Nat) :
    ((x.accepted f flywheel p).map (·.1)).Nodup := by
  unfold Supervisor.accepted
  split
  · exact acceptances_nodup _ _
  · exact List.nodup_nil

theorem accepted_watched_le (x : Supervisor) (f : InFrame) (flywheel : Bool) (p : Nat) :
    (x.accepted f flywheel p).countP (·.2.2) ≤ x.watchedCount := by
  unfold Supervisor.accepted
  split
  · rw [← watchedCount_congr (collect_slots x 15 f flywheel)]
    exact watched_acceptances_le _ _
  · exact Nat.zero_le _

theorem setSup_setSup (s : State) (k : Highway) (x y : Supervisor) : (s.setSup k x).setSup k y = s.setSup k y := by
  simp [State.setSup]

/-- The frame numbered 15 at the supervisor: the record, the slots, and then the acceptances (R91 to R95). -/
theorem superviseFrame_last (s : State) (k : Highway) (f : InFrame) (flywheel : Bool) :
    s.superviseFrame k 15 f flywheel =
      ((s.sup k).accepted f flywheel (s.receiver k).persistence).foldl (fun t x => t.handAcceptance k x)
        (s.setSup k ((s.sup k).handed 15 f flywheel (s.receiver k).persistence s.timing.stamp)) := by
  unfold State.superviseFrame Supervisor.accepted Supervisor.handed Supervisor.ended
  simp only [if_true]
  rw [endMultiframe_eq, sup_setSup, if_pos rfl, setSup_receiver, setSup_timing]
  split
  · rw [setSup_setSup]
  · rw [setSup_setSup]
    rfl

theorem quietTask_persistence (s : State) (k : Highway) (a : Align) (f : InFrame) (after : Framer) (x : CompletionTask) :
    ((s.quietTask k a f after x).receiver k).persistence = (s.receiver k).persistence := by
  cases x with
  | queue =>
    rw [quietTask_of_ne (by simp), queueTask_eq]
    split
    · unfold State.appendFrame
      simp only
      split
      · simp
      · simp [State.countHighway]
    · rfl
  | guard =>
    rw [quietTask_of_ne (by simp), guardTask_eq]
    unfold State.guardTick
    split
    · split
      · split <;> simp [State.enterService, State.setAlign]
      · rfl
    all_goals rfl
  | framer | supervisor | capture => rw [quietTask_receiver_other s k a f after (by simp) (by simp)]

theorem quietTasks_persistence (s : State) (k : Highway) (a : Align) (f : InFrame) (after : Framer)
    (l : List CompletionTask) :
    ((s.quietTasks k a f after l).receiver k).persistence = (s.receiver k).persistence :=
  quietTasks_keep s k a f after (fun t => (t.receiver k).persistence = (s.receiver k).persistence) l rfl
    fun t x _ h => (quietTask_persistence t k a f after x).trans h

theorem frameNumber_of_expected {a : Align} (h : a.expected = some 0) : a.frameNumber = 15 := by
  rw [Align.frameNumber, h]
  rfl

/-- What the completion of the frame numbered 15 makes of the supervisor, and what the list then tells of it. -/
theorem completeFrame_evaluates {s : State} {k : Highway} {f : InFrame} (hf : (s.receiver k).inFrame = true)
    (ho : (s.receiver k).align.handsOver = true) (h0 : (s.receiver k).align.expected = some 0) (hq : s.framerQuiet k f)
    (order : CompletionOrder) :
    (s.completeFrame k f order).sup k = (s.sup k).handed 15 f (s.receiver k).align.isFlywheel
        (s.receiver k).persistence s.timing.stamp ∧
      (∀ (n : Slot) (c : Code), (n, c, true) ∈ (s.sup k).accepted f (s.receiver k).align.isFlywheel
          (s.receiver k).persistence → s.events.ordinaryCount + (s.sup k).watchedCount ≤ 58 →
        (s.completeFrame k f order).events.reports (.sigChange k n) (.code c)) ∧
      (∀ n : Slot, (∀ c, (n, c, true) ∉ (s.sup k).accepted f (s.receiver k).align.isFlywheel
          (s.receiver k).persistence) →
        ∀ e ∈ (s.completeFrame k f order).events.entries, e.hasKey (.sigChange k n) = true → e ∈ s.events.entries) := by
  obtain ⟨before, after, framer, he, hb, haft, -, hload⟩ := completeFrame_at hf ho hq order .supervisor
  rw [he]
  have ht := touches_setAlign s k (s.receiver k).align false
  have hsup := (quietTasks_sup (s.setAlign k (s.receiver k).align false) k (s.receiver k).align f framer hb k).trans
    (ht.sup k (by simp))
  have hpers := quietTasks_persistence (s.setAlign k (s.receiver k).align false) k (s.receiver k).align f framer before
  rw [setAlign_receiver] at hpers
  have htb := quietTasks_kept (s := s.setAlign k (s.receiver k).align false) (k := k) (a := (s.receiver k).align)
    (f := f) (after := framer) before
  have hstamp := congrArg Timing.stamp ((ht.trans htb).timing (by simp [completionBlocks]))
  have hold := fun (n : Slot) (e : Event) => quietTasks_old (s := s.setAlign k (s.receiver k).align false) (k := k)
    (a := (s.receiver k).align) (f := f) (after := framer) (l := before) (key := .sigChange k n) (e := e) rfl
    (fun x hx hr => hb (taskRaises_sigChange hr ▸ hx))
  rw [ht.events (by simp)] at hold
  generalize (s.setAlign k (s.receiver k).align false).quietTasks k (s.receiver k).align f framer before = t at *
  have htask : t.quietTask k (s.receiver k).align f framer .supervisor =
      ((s.sup k).accepted f (s.receiver k).align.isFlywheel (s.receiver k).persistence).foldl
        (fun t x => t.handAcceptance k x)
        (t.setSup k ((s.sup k).handed 15 f (s.receiver k).align.isFlywheel (s.receiver k).persistence
          s.timing.stamp)) := by
    rw [quietTask_of_ne (by simp), supervisorTask_eq, if_pos ho, frameNumber_of_expected h0, superviseFrame_last, hsup,
      hpers, hstamp]
  have hs : (t.quietTask k (s.receiver k).align f framer .supervisor).sup k =
      (s.sup k).handed 15 f (s.receiver k).align.isFlywheel (s.receiver k).persistence s.timing.stamp := by
    rw [quietTask_of_ne (by simp), supervisorTask_eq, if_pos ho, frameNumber_of_expected h0, superviseFrame_sup,
      if_pos rfl, hsup, hpers, hstamp]
  obtain ⟨-, hg⟩ := handAcceptances_raise
    (t.setSup k ((s.sup k).handed 15 f (s.receiver k).align.isFlywheel (s.receiver k).persistence s.timing.stamp)) k
    ((s.sup k).accepted f (s.receiver k).align.isFlywheel (s.receiver k).persistence)
  rw [← htask, setSup_events] at hg
  refine ⟨(quietTasks_sup _ k _ f framer haft k).trans hs, fun n c hmem hroom => ?_, fun n hn e he hk => ?_⟩
  · refine quietTasks_reports rfl (fun x hx hr => haft (taskRaises_sigChange hr ▸ hx)) ?_
    rw [htask]
    refine handAcceptances_report _ k _ (accepted_nodup _ _ _ _) ?_ hmem
    have := accepted_watched_le (s.sup k) f (s.receiver k).align.isFlywheel (s.receiver k).persistence
    rw [setSup_events]
    simp only [taskCost] at hload
    omega
  · have he := quietTasks_old rfl (fun x hx hr => haft (taskRaises_sigChange hr ▸ hx)) he hk
    refine hold n e (hg.old _ rfl ?_ e he hk) hk
    rintro ⟨⟨m, c, w⟩, hm, hw, hkey⟩
    cases hkey
    simp only at hw
    subst hw
    exact hn c hm

/-! ### The table of R93 -/

theorem isFlywheel_iff (a : Align) : a.isFlywheel = true ↔ ∃ e n, a = .flywheel e n := by
  cases a <;> simp [Align.isFlywheel]

/-- The record after the frame numbered 15 is empty, and the stamp that of an evaluation (R92). -/
theorem handed_last (x : Supervisor) (f : InFrame) (flywheel : Bool) (p : Nat) (now : Stamp) :
    (x.handed 15 f flywheel p now).received = emptyRecord ∧ (x.handed 15 f flywheel p now).spoiled = false ∧
      (x.handed 15 f flywheel p now).lastEvaluation =
        if (x.collect 15 f flywheel).complete then some now else x.lastEvaluation := by
  unfold Supervisor.handed Supervisor.ended
  rw [if_pos rfl]
  split
  · simp only [Supervisor.emptied, Supervisor.evaluated, and_self]
  · simp only [Supervisor.emptied, true_and]
    rfl

theorem collected_complete_iff (x : Supervisor) (f : InFrame) (flywheel : Bool) :
    (x.collect 15 f flywheel).complete = true ↔
      x.spoiled = false ∧ flywheel = false ∧ ∀ n : Slot, (x.collect 15 f false).received[n] ≠ none := by
  rw [complete_iff, (collect_kept x 15 f flywheel).2.2, collect_received x 15 f flywheel false, Bool.or_eq_false_iff,
    and_assoc]

section
variable {x : SlotState} {p : Nat} {c : Code}

theorem filter_of_same (h : x.stable = some c) : (x.filter p c).1 = { x with candidate := none } := by
  rw [SlotState.filter, if_pos h]

theorem filter_of_candidate {d : Candidate} (h : x.stable ≠ some c) (hd : x.candidate = some d) (hc : d.code = c) :
    (x.filter p c).1 =
      if p ≤ d.count + 1 then x.accept c else { x with candidate := some { code := c, count := d.count + 1 } } := by
  rw [SlotState.filter, if_neg h, hd]
  simp only [if_pos hc]
  split <;> rfl

theorem filter_of_new (h : x.stable ≠ some c) (hd : ∀ d, x.candidate = some d → d.code ≠ c) :
    (x.filter p c).1 = if p = 1 then x.accept c else { x with candidate := some { code := c, count := 1 } } := by
  rw [SlotState.filter, if_neg h]
  cases hx : x.candidate with
  | none =>
    simp only
    split <;> rfl
  | some d =>
    simp only [if_neg (hd d hx)]
    split <;> rfl

end

/-- Settles O51: the record, the slots by the table of R93, and the SIG_CHANGE events. -/
theorem evaluationFiltersEverySlot : Obligations.EvaluationFiltersEverySlot := by
  intro k f order received s hf ho h0 hq hreceived
  subst hreceived
  obtain ⟨hsup, hrep, hold⟩ := completeFrame_evaluates hf ho h0 hq order
  obtain ⟨h1, h2, h3⟩ := handed_last (s.sup k) f (s.receiver k).align.isFlywheel (s.receiver k).persistence
    s.timing.stamp
  have hslot : ∀ n : Slot, (s.completeFrame k f order).slotState k n =
      ((s.sup k).handed 15 f (s.receiver k).align.isFlywheel (s.receiver k).persistence s.timing.stamp).slots[n] :=
    fun n => by rw [slotState_eq_sup, hsup]
  have hmem := fun (n : Slot) (c : Code) (w : Bool) => mem_accepted_iff (s.sup k) f (s.receiver k).align.isFlywheel
    (s.receiver k).persistence s.timing.stamp n c w
  refine ⟨_, exec_inputFrameCompletion k f order s, by rw [hsup, h1], by rw [hsup, h2],
    fun n c hw hne hst hroom => hrep n c ?_ hroom, fun n hn e he hk => hold n (fun c hc => ?_) e he hk,
    fun hnot => ?_, fun hs hfly hall => ?_⟩
  · rw [hslot] at hst
    exact (hmem n c true).mpr ⟨hw.symm, hne, hst⟩
  · obtain ⟨hw, hne, hst⟩ := (hmem n c true).mp hc
    rcases hn with hn | hn
    · rw [slotState_eq_sup, ← hw] at hn
      cases hn
    · rw [hslot] at hn
      exact hne (hn.symm.trans hst)
  · have hc : ¬((s.sup k).collect 15 f (s.receiver k).align.isFlywheel).complete = true := fun hc => by
      obtain ⟨hs, hfly, hall⟩ := (collected_complete_iff _ _ _).mp hc
      rcases hnot with h | h | ⟨n, h⟩
      · rw [hs] at h
        cases h
      · rw [(isFlywheel_iff _).mpr h] at hfly
        cases hfly
      · exact hall n h
    refine ⟨fun n => ?_, by rw [hsup, h3, if_neg hc]⟩
    rw [hslot, handed_slots, if_neg fun h => hc h.2]
    rfl
  · have hflag : (s.receiver k).align.isFlywheel = false := by
      by_contra h
      obtain ⟨e, n, h⟩ := (isFlywheel_iff _).mp (by simpa using h)
      exact hfly e n h
    have hc := (collected_complete_iff (s.sup k) f (s.receiver k).align.isFlywheel).mpr ⟨hs, hflag, hall⟩
    refine ⟨by rw [hsup, h3, if_pos hc], fun n c hr => ?_⟩
    have hn : (s.completeFrame k f order).slotState k n = ((s.slotState k n).filter (s.receiver k).persistence c).1 := by
      rw [hslot, handed_slots, if_pos ⟨rfl, hc⟩, collect_received _ _ _ _ false, hr]
      rfl
    rw [hn]
    refine ⟨filterReceived_watched _ _ (some c), fun hst => ?_, fun d hst hd hdc => ?_, fun hst hd => ?_⟩
    · rw [filter_of_same hst]
      exact ⟨hst, rfl⟩
    · rw [filter_of_candidate hst hd hdc]
      split <;> exact ⟨rfl, rfl⟩
    · rw [filter_of_new hst hd]
      split <;> exact ⟨rfl, rfl⟩

end Sys2Proof.Machine
end

section
/-! SUPPORT. A completed frame at its queue and at the port framer, whatever message it completes (R51, R62, R63, R132). -/

namespace Sys2Proof.Machine

/-! ### What a command at the port leaves of its own highway (R55) -/

/-- While highway `k` is enabled and carries a port, no move of a command touches its queue, or whether a frame is
arriving (R55, R68). -/
theorem State.Work.keepsHighway {s t : State} {bs : List Block} (h : s.Work bs t) {k : Highway}
    (hm : s.isMgmtHighway k = true) (he : (s.receiver k).align.enabled = true) :
    t.queue k = s.queue k ∧ (t.receiver k).inFrame = (s.receiver k).inFrame := by
  have ht := h.touches
  cases h with
  | settings j x g h1 h2 h3 =>
    refine ⟨ht.queue k (by simp), ?_⟩
    by_cases hj : j = k <;> simp [hj]
  | counters j f =>
    refine ⟨ht.queue k (by simp), ?_⟩
    by_cases hj : j = k <;> simp [State.countHighway, hj]
  | enabled j hd =>
    have hj : k ≠ j := fun e => by rw [← e, he] at hd; cases hd
    obtain ⟨hr, hq, -⟩ := enterSearch_others s hj []
    rw [hq, hr]
    exact ⟨rfl, rfl⟩
  | disabled j hd =>
    have hj : k ≠ j := fun e => by rw [← e, hm] at hd; cases hd
    obtain ⟨hr, hq, -⟩ := (leaves_enterDisabled s j).others k hj
    rw [hq, hr]
    exact ⟨rfl, rfl⟩
  | _ => exact ⟨ht.queue k (by simp), by rw [ht.receiver k (by simp)]⟩

theorem works_keepsHighway {s t : State} (h : s.Works t) {k : Highway} (hm : s.isMgmtHighway k = true)
    (he : (s.receiver k).align.enabled = true) :
    t.queue k = s.queue k ∧ (t.receiver k).inFrame = (s.receiver k).inFrame := by
  induction h with
  | refl => exact ⟨rfl, rfl⟩
  | tail hw h ih =>
    obtain ⟨bs, h⟩ := h
    obtain ⟨hq, hf⟩ := h.keepsHighway (by rw [(touches_of_works hw).isMgmtHighway k (by simp)]; exact hm)
      (by rw [works_align hw hm he]; exact he)
    exact ⟨hq.trans ih.1, hf.trans ih.2⟩

theorem framerFrame_keepsHighway {s : State} {k : Highway} (he : (s.receiver k).align.enabled = true) (f : Payload) :
    (s.framerFrame k f).queue k = s.queue k ∧ ((s.framerFrame k f).receiver k).inFrame = (s.receiver k).inFrame := by
  cases hp : portOn s.straps k with
  | none => simp [State.framerFrame, hp]
  | some p => exact works_keepsHighway (works_framerFrame s k f) (by simp [State.isMgmtHighway, hp]) he

/-! ### The queue and the receiver after a completion (R62, R63) -/

theorem appendFrame_queue (s : State) (k : Highway) (f : Payload) :
    (s.appendFrame k f).queue k = (s.queue k).append f := by
  unfold State.appendFrame
  simp only
  split
  · simp
  · simp [State.countHighway]

theorem appendFrame_of_room {s : State} {k : Highway} (h : (s.queue k).frames.length < 3) (f : Payload) :
    s.appendFrame k f = s.setQueue k ((s.queue k).append f) := if_pos h

theorem appendFrame_of_full {s : State} {k : Highway} (h : ¬(s.queue k).frames.length < 3) (f : Payload) :
    s.appendFrame k f = ((s.setQueue k ((s.queue k).append f)).countHighway k
      fun c => { c with dropSlips := saturate c.dropSlips }).raise (.slip k) .drop := if_neg h

theorem appendFrame_receiver (s : State) (k : Highway) (f : Payload) :
    (s.appendFrame k f).receiver k = { s.receiver k with
      counters := if (s.queue k).frames.length < 3 then (s.receiver k).counters
        else { (s.receiver k).counters with dropSlips := saturate (s.receiver k).counters.dropSlips } } := by
  by_cases h : (s.queue k).frames.length < 3
  · rw [appendFrame_of_room h, if_pos h, setQueue_receiver]
  · rw [appendFrame_of_full h, if_neg h]
    simp [State.countHighway]

theorem handsOver_of_inService {s : State} {k : Highway} (h : s.inService k = true) :
    (s.receiver k).align.handsOver = true := by
  unfold State.inService at h
  cases ha : (s.receiver k).align <;> first | rfl | (rw [ha] at h; cases h)

theorem guardTick_of_serving {s : State} {k : Highway} {a : Align} (h : s.servesAs k a) (ha : a.inService = true)
    (n : FrameNumber) : s.guardTick k n = s := by
  have hs := h.inService ha
  unfold State.guardTick
  cases hk : (s.receiver k).align with
  | guard e c => simp [State.inService, hk, Align.inService] at hs
  | _ => rfl

/-- A share but that of the queue leaves the queue, and in service the receiver but for its settings and counters. -/
theorem completionTask_keepsHighway {s : State} {k : Highway} {a : Align} (h : s.servesAs k a) (f : InFrame)
    {x : CompletionTask} (hx : x ≠ .queue) :
    (s.completionTask k a f x).queue k = s.queue k ∧
      (a.inService = true → ((s.completionTask k a f x).receiver k).inFrame = (s.receiver k).inFrame ∧
        ((s.completionTask k a f x).receiver k).align = (s.receiver k).align) := by
  cases x with
  | queue => exact absurd rfl hx
  | supervisor =>
    rw [supervisorTask_eq]
    split
    · have ht := touches_superviseFrame s k a.frameNumber f a.isFlywheel
      rw [ht.queue k (by simp), ht.receiver k (by simp)]
      exact ⟨rfl, fun _ => ⟨rfl, rfl⟩⟩
    · exact ⟨rfl, fun _ => ⟨rfl, rfl⟩⟩
  | framer =>
    show (if a.handsOver then s.framerFrame k f.payload else s).queue k = s.queue k ∧ (a.inService = true →
      ((if a.handsOver then s.framerFrame k f.payload else s).receiver k).inFrame = (s.receiver k).inFrame ∧
      ((if a.handsOver then s.framerFrame k f.payload else s).receiver k).align = (s.receiver k).align)
    split
    · obtain ⟨hq, hf⟩ := framerFrame_keepsHighway (enabled_of_handsOver h.handsOver) f.payload
      exact ⟨hq, fun _ => ⟨hf, framerFrame_align (enabled_of_handsOver h.handsOver) _⟩⟩
    · exact ⟨rfl, fun _ => ⟨rfl, rfl⟩⟩
  | capture =>
    have ht := touches_captureTask s k a f
    rw [ht.queue k (by simp), ht.receiver k (by simp)]
    exact ⟨rfl, fun _ => ⟨rfl, rfl⟩⟩
  | guard =>
    refine ⟨(touches_guardTick s k _).queue k (by simp), fun ha => ?_⟩
    rw [guardTask_eq, guardTick_of_serving h ha]
    exact ⟨rfl, rfl⟩

theorem completionTasks_keepHighway {s : State} {k : Highway} {a : Align} (h : s.servesAs k a) (f : InFrame)
    {l : List CompletionTask} (hl : .queue ∉ l) :
    (l.foldl (fun t x => t.completionTask k a f x) s).servesAs k a ∧
    (l.foldl (fun t x => t.completionTask k a f x) s).queue k = s.queue k ∧
      (a.inService = true →
        ((l.foldl (fun t x => t.completionTask k a f x) s).receiver k).inFrame = (s.receiver k).inFrame ∧
        ((l.foldl (fun t x => t.completionTask k a f x) s).receiver k).align = (s.receiver k).align) :=
  foldl_keeps (fun t => t.servesAs k a ∧ t.queue k = s.queue k ∧ (a.inService = true →
      (t.receiver k).inFrame = (s.receiver k).inFrame ∧ (t.receiver k).align = (s.receiver k).align)) _ l s
    ⟨h, rfl, fun _ => ⟨rfl, rfl⟩⟩ fun t x hx ⟨h1, h2, h3⟩ => by
      obtain ⟨h4, h5⟩ := completionTask_keepsHighway h1 f fun e => hl (e ▸ hx)
      exact ⟨(inputs_completionTask h1 f x).2, h4.trans h2, fun ha =>
        ⟨(h5 ha).1.trans (h3 ha).1, (h5 ha).2.trans (h3 ha).2⟩⟩

/-- The queue and the receiver after a completion in service, and the queue after one in GUARD (R51, R62, R63). -/
theorem handOver_highway {s : State} {k : Highway} {a : Align} (h : s.servesAs k a) (f : InFrame)
    (order : CompletionOrder) :
    (s.handOver k a f order).queue k = (if a.inService then (s.queue k).append f.payload else s.queue k) ∧
      (a.inService = true → ((s.handOver k a f order).receiver k).inFrame = (s.receiver k).inFrame ∧
        ((s.handOver k a f order).receiver k).align = (s.receiver k).align) := by
  obtain ⟨before, after, hl, hb, ha⟩ := completionOrder_split order .queue
  rw [State.handOver, hl, List.foldl_append, List.foldl_cons]
  obtain ⟨hv1, hq1, hr1⟩ := completionTasks_keepHighway h f hb
  generalize before.foldl (fun t x => t.completionTask k a f x) s = t at *
  obtain ⟨-, hq3, hr3⟩ := completionTasks_keepHighway (inputs_completionTask hv1 f .queue).2 f ha
  have hr := appendFrame_receiver t k f.payload
  rw [hq3, queueTask_eq]
  by_cases hs : a.inService = true
  · obtain ⟨hf3, ha3⟩ := hr3 hs
    obtain ⟨hf1, ha1⟩ := hr1 hs
    rw [queueTask_eq, if_pos hs, hr] at hf3 ha3
    rw [if_pos hs, if_pos hs, appendFrame_queue, hq1]
    exact ⟨rfl, fun _ => ⟨hf3.trans hf1, ha3.trans ha1⟩⟩
  · rw [if_neg hs, if_neg hs, hq1]
    exact ⟨rfl, fun hc => absurd hc hs⟩

theorem taskRaises_slip {k : Highway} {w : Slot → Bool} {x : CompletionTask}
    (h : taskRaises k w (.slip k) x) : x = .queue := by
  cases x with
  | queue => rfl
  | supervisor => obtain ⟨n, -, h⟩ := h; cases h
  | framer => cases h
  | guard | capture => cases h

/-- In service no quiet share but the queue's touches the receiver. -/
theorem quietTasks_receiver_of_serving {s : State} {k : Highway} {a : Align} {f : InFrame} {after : Framer}
    (h : s.servesAs k a) (ha : a.inService = true) {l : List CompletionTask} (hl : .queue ∉ l) :
    (s.quietTasks k a f after l).receiver k = s.receiver k :=
  quietTasks_keep s k a f after (fun t => t.receiver k = s.receiver k) l rfl fun t x hx hr => by
    by_cases hg : x = .guard
    · subst hg
      have ht : t.servesAs k a := ⟨by rw [hr]; exact h.handsOver, fun hs => by
        rw [State.inService, hr]
        exact h.inService hs⟩
      rw [quietTask_of_ne (by simp), guardTask_eq, guardTick_of_serving ht ha]
      exact hr
    · rw [quietTask_receiver_other t k a f after (fun e => hl (e ▸ hx)) hg]
      exact hr

/-- What a quiet completion in service does to its queue and counters, and tells the list (R62, R63, R70). -/
theorem completeFrame_in_service {s : State} {k : Highway} {f : InFrame} (hf : (s.receiver k).inFrame = true)
    (hs : s.inService k = true) (hq : s.framerQuiet k f) (order : CompletionOrder) :
    ((s.completeFrame k f order).receiver k).counters =
        (if (s.queue k).frames.length < 3 then (s.receiver k).counters
        else { (s.receiver k).counters with dropSlips := saturate (s.receiver k).counters.dropSlips }) ∧
      (3 ≤ (s.queue k).frames.length → s.events.ordinaryCount + (s.sup k).watchedCount ≤ 58 →
        (s.completeFrame k f order).events.reports (.slip k) .drop) ∧
      (∀ j, j ≠ k → (s.completeFrame k f order).receiver j = s.receiver j ∧
        (s.completeFrame k f order).queue j = s.queue j ∧ (s.completeFrame k f order).sup j = s.sup j) ∧
      s.touches completionBlocks (s.completeFrame k f order) := by
  have ho : (s.receiver k).align.handsOver = true := handsOver_of_inService hs
  obtain ⟨before, after, framer, he, hb, haft, -, hload⟩ := completeFrame_at hf ho hq order .queue
  rw [he]
  have ht := touches_setAlign s k (s.receiver k).align false
  have hserves := servesAs_setAlign_same ho false
  have hrb := (quietTasks_receiver_of_serving (f := f) (after := framer) hserves hs hb).trans
    (setAlign_receiver s k _ false)
  have hqb := (quietTasks_queue (s.setAlign k (s.receiver k).align false) k (s.receiver k).align f framer hb k).trans
    (ht.queue k (by simp))
  have htb := ht.trans (quietTasks_kept (s := s.setAlign k (s.receiver k).align false) (k := k)
    (a := (s.receiver k).align) (f := f) (after := framer) before)
  have hob := fun j (hj : j ≠ k) => quietTasks_others (s := s.setAlign k (s.receiver k).align false)
    (a := (s.receiver k).align) (f := f) (after := framer) hj before
  generalize (s.setAlign k (s.receiver k).align false).quietTasks k (s.receiver k).align f framer before = t at *
  have htask : t.quietTask k (s.receiver k).align f framer .queue = t.appendFrame k f.payload := by
    rw [quietTask_of_ne (by simp), queueTask_eq]
    exact if_pos hs
  have htouch := touches_quietTask t k (s.receiver k).align f framer .queue
  have hother := fun j (hj : j ≠ k) => quietTask_others (s := t) (a := (s.receiver k).align) (f := f)
    (after := framer) hj .queue
  have hr := appendFrame_receiver t k f.payload
  rw [hrb, hqb] at hr
  have hsv : (t.appendFrame k f.payload).servesAs k (s.receiver k).align :=
    ⟨by rw [hr]; exact ho, fun _ => by rw [State.inService, hr]; exact hs⟩
  refine ⟨?_, fun h3 hroom => ?_, fun j hj => ?_, ?_⟩
  · rw [htask, quietTasks_receiver_of_serving hsv hs haft, hr]
  · refine quietTasks_reports rfl (fun x hx hr => haft (taskRaises_slip hr ▸ hx)) ?_
    rw [htask]
    rw [appendFrame_of_full (by rw [hqb]; omega)]
    refine raise_reports (s := State.countHighway _ k _) (admits_of_load ?_ _) (by simp) _
    rw [(touches_countHighway _ k _).events (by simp), setQueue_events]
    simp only [taskCost] at hload
    omega
  · obtain ⟨h1, h2, h3⟩ := quietTasks_others (s := t.quietTask k (s.receiver k).align f framer .queue)
      (a := (s.receiver k).align) (f := f) (after := framer) hj after
    obtain ⟨h4, h5, h6⟩ := hother j hj
    obtain ⟨h7, h8, h9⟩ := hob j hj
    refine ⟨h1.trans (h4.trans (h7.trans ?_)), h2.trans (h5.trans (h8.trans (ht.queue j (by simp)))),
      h3.trans (h6.trans (h9.trans (ht.sup j (by simp))))⟩
    simp [State.setAlign, hj.symm]
  · exact ((htb.trans htouch).trans (quietTasks_kept after)).mono (by simp [completionBlocks])

end Sys2Proof.Machine
end

section
/-! SUPPORT. An output frame start at which no command can start: its parts one by one, and the blocks that each of them
can touch. -/

namespace Sys2Proof.Machine

/-! ### A port that gives its octets (R81, R141) -/

/-- Port `p` gives its octets to the frame that is built from state `f`, and no command of it starts. -/
def State.given (s f : State) (p : PortId) : State :=
  let a := f.octetsFrom p (s.port p).transmit
  let t := s.setPort p { s.port p with transmit := a.2.1 }
  if f.portSends p then t.placeOctets f (f.portPair p) a.1 else t

theorem given_port (s f : State) (p : PortId) :
    (s.given f p).port p = { s.port p with transmit := (f.octetsFrom p (s.port p).transmit).2.1 } := by
  unfold State.given
  simp only
  split <;> simp

theorem given_port_other (s f : State) {p q : PortId} (h : p ≠ q) : (s.given f p).port q = s.port q := by
  unfold State.given
  simp only
  split <;> simp [h]

theorem given_commands (s f : State) (p q : PortId) : ((s.given f p).port q).commands = (s.port q).commands := by
  by_cases h : p = q
  · subst h; rw [given_port]
  · rw [given_port_other s f h]

/-- No octet changes the enable or an idle setting of an output highway, or the RA flag that is being sent. -/
theorem given_output (s f : State) (p : PortId) (k : Highway) :
    (s.given f p).output k =
      if f.portSends p = true ∧ f.portPair p = k then
        { s.output k with line := f.buildLine k (f.octetsFrom p (s.port p).transmit).1 }
      else s.output k := by
  unfold State.given
  simp only
  split
  · rename_i h
    by_cases hk : f.portPair p = k
    · subst hk
      simp [State.placeOctets, h]
    · simp [State.placeOctets, h, hk]
  · rename_i h
    simp [h]

theorem touches_given (s f : State) (p : PortId) : s.touches [.portA, .portB, .outputs] (s.given f p) := by
  unfold State.given
  simp only
  split
  · exact ((touches_setPort s p _).trans (touches_setOutput _ _ _)).mono (by simp)
  · exact (touches_setPort s p _).mono (by simp)

/-- No command can start at port `x`: its queue is empty, or an accepted RESET stands at its head (R145). -/
def Port.still (x : Port) : Prop := ∀ q ∈ x.commands.head?, q.started = true

theorem Port.still.canStart {x : Port} (h : x.still) : x.canStart = false := by
  unfold Port.canStart
  split
  · rename_i q rest hq
    simp [h q (by simp [hq])]
  · rfl

theorem Port.still.of_commands {x y : Port} (h : x.still) (hc : y.commands = x.commands) : y.still := by
  rwa [Port.still, hc]

theorem takeOctets_of_still {r : StartRun} {p : PortId} (hp : p ∉ r.taken) (h : (r.state.port p).still) :
    r.takeOctets p =
      { r with
        state := r.state.given r.frame p
        taken := p :: r.taken
        resetA := if p = .a then (r.frame.octetsFrom p (r.state.port p).transmit).2.2 else r.resetA
        resetB := if p = .b then (r.frame.octetsFrom p (r.state.port p).transmit).2.2 else r.resetB } := by
  have hc : Port.canStart { r.state.port p with transmit := (r.frame.octetsFrom p (r.state.port p).transmit).2.1 } =
      false := Port.still.canStart (h.of_commands rfl)
  unfold StartRun.takeOctets
  simp only [if_neg hp, hc, State.given]
  rfl

/-! ### The start on its way -/

/-- The reset of a port that is due. -/
def StartRun.due (r : StartRun) : PortId → Option Scope
  | .a => r.resetA
  | .b => r.resetB

/-- What holds of the start of state `s` while no command can start and no cold reset has taken effect. `done` says that
a warm reset has taken effect. -/
structure StartRun.calm (s : State) (done : Bool) (r : StartRun) : Prop where
  frame     : r.frame = s.frameState
  swaps     : r.swaps = s.swapsNext
  swap      : r.swap = none ∨ r.swap = s.dueSwap
  slips     : r.slips = highways.filter s.repeats
  tick      : r.tick = s.tickNext
  warm      : r.cold = false
  reserved  : r.reserved = []
  delivered : r.delivered = false
  still     : ∀ p, (r.state.port p).still
  transmit  : ∀ p, p ∉ r.taken → ∀ n ≤ 4, bringsReset n (r.state.port p).transmit = bringsReset n (s.port p).transmit
  due       : ∀ p, r.due p = if p ∈ r.taken ∧ done = false then s.resetNext p else none

theorem beginStart_calm {s : State} (h : ∀ p, (s.port p).still) : s.beginStart.calm s false where
  frame := rfl
  swaps := dueSwap_isSome s
  swap := .inr rfl
  slips := rfl
  tick := rfl
  warm := rfl
  reserved := rfl
  delivered := rfl
  still p := (h p).of_commands (by cases p <;> rfl)
  transmit p _ n _ := by cases p <;> rfl
  due p := by cases p <;> exact (if_neg fun hp => by cases hp.1).symm

section
variable {s : State} {done : Bool} {r : StartRun}

/-- A part that leaves the commands and the resets to come alone keeps what holds of the start. -/
theorem calm_of_restsAs (h : r.calm s done) {t : State} (ht : ∀ p, (r.state.port p).restsAs (t.port p))
    {c : Option PendingCommit} (hc : c = none ∨ c = r.swap) (begun : Bool) (handed : List Highway) :
    StartRun.calm s done { r with state := t, swap := c, begun := begun, handed := handed } :=
  { h with
    swap := by
      rcases hc with hc | hc
      · exact .inl hc
      · exact hc ▸ h.swap
    still := fun p => (h.still p).of_commands (ht p).commands
    transmit := fun p hp n hn => ((ht p).resets n hn).trans (h.transmit p hp n hn)
    due := fun p => by
      have hp := h.due p
      cases p <;> exact hp }

theorem takeOctets_eq_of_calm (h : r.calm s done) {p : PortId} (hp : p ∉ r.taken) :
    r.takeOctets p =
      { r with
        state := r.state.given s.frameState p
        taken := p :: r.taken
        resetA := if p = .a then s.resetNext p else r.resetA
        resetB := if p = .b then s.resetNext p else r.resetB } := by
  have hr : (s.frameState.octetsFrom p (r.state.port p).transmit).2.2 = s.resetNext p := by
    have := octetsFrom_reset_of_same (s := s) (b := s.nextActive) (h.transmit p hp)
    rwa [frameState_setActiveBank] at this
  rw [takeOctets_of_still hp (h.still p), h.frame, hr]

theorem takeOctets_calm (h : r.calm s false) (p : PortId) : (r.takeOctets p).calm s false := by
  by_cases hp : p ∈ r.taken
  · rwa [takeOctets_of_taken hp]
  rw [takeOctets_eq_of_calm h hp]
  exact { h with
    still := fun q => (h.still q).of_commands (given_commands _ _ _ _)
    transmit := fun q hq n hn => by
      have hne : p ≠ q := fun e => hq (e ▸ List.mem_cons_self)
      rw [given_port_other _ _ hne]
      exact h.transmit q (fun hm => hq (List.mem_cons_of_mem _ hm)) n hn
    due := fun q => by
      have hq := h.due q
      cases p <;> cases q <;> simp_all [StartRun.due] }

theorem takeCapture_keeps (P : StartRun → Prop) (h : P r) (hstep : ∀ r k, P r → P (r.handOctet k)) :
    P r.takeCapture := foldl_keeps P _ _ _ h fun r k _ hr => hstep r k hr

theorem handOctet_calm (h : r.calm s false) (k : Highway) : (r.handOctet k).calm s false := by
  have hskip : StartRun.calm s false { r with handed := k :: r.handed } :=
    calm_of_restsAs h (fun _ => .refl _) (.inr rfl) _ _
  unfold StartRun.handOctet
  split
  · exact h
  · split
    · split
      · simp only
        split
        · exact calm_of_restsAs (takeOctets_calm h _) (restsAs_captureOctet _ _).ports (.inr rfl) _ _
        · exact calm_of_restsAs h (restsAs_captureOctet _ _).ports (.inr rfl) _ _
      · exact hskip
    · exact hskip
    · exact hskip

/-- Where no command can start the part of a port gives its octets alone. -/
theorem startCommand_of_calm (h : r.calm s false) (p : PortId) : r.startCommand p = r.takeOctets p := by
  unfold StartRun.startCommand
  simp only
  rw [if_neg (by simp [(takeOctets_calm h p).reserved])]

theorem task_calm (h : r.calm s false) (order : StartOrder) {x : StartTask} (hx : x ≠ .reset) :
    (r.task order x).calm s false := by
  unfold StartRun.task
  rw [if_neg (by simp [h.warm])]
  cases x with
  | timing => exact calm_of_restsAs h (restsAs_setTiming _ _).ports (.inr rfl) _ _
  | slip k =>
    simp only [StartRun.takeSlip]
    split
    · exact calm_of_restsAs h (restsAs_repeatSlip _ _).ports (.inr rfl) _ _
    · exact h
  | swap =>
    simp only [StartRun.takeSwap]
    split
    · rename_i c hc
      exact calm_of_restsAs h (fun p => by simpa [StartRun.takeTiming] using (restsAs_makeSwap r.takeTiming.state c).ports p) (.inl rfl) _ _
    · exact calm_of_restsAs h (fun _ => .refl _) (.inr rfl) _ _
  | copy =>
    simp only [StartRun.takeCopy]
    split
    · exact h
    · exact calm_of_restsAs h (restsAs_syncStep _).ports (.inr rfl) _ _
  | take p => exact takeOctets_calm h p
  | start p =>
    simp only
    rw [startCommand_of_calm h p]
    exact takeOctets_calm h p
  | capture => exact takeCapture_keeps (StartRun.calm s false) h fun _ k hr => handOctet_calm hr k
  | leaseTick =>
    simp only
    split
    · exact calm_of_restsAs h (restsAs_leaseTick _).ports (.inr rfl) _ _
    · exact h
  | listTick =>
    simp only
    split
    · exact calm_of_restsAs h (restsAs_listTick _ _ _).ports (.inr rfl) _ _
    · exact h
  | reset => exact absurd rfl hx

end

end Sys2Proof.Machine
end

section
/-! SUPPORT. What each part of a quiet output frame start touches and raises, and the start split at one of its parts. -/

namespace Sys2Proof.Machine

/-! ### The octet for the capture unit (R163) -/

theorem store_job (u : Capture) (job : Job) (captured : Nat) (stamp : Stamp) (o : Octet) :
    (u.store job captured stamp o).1.phase.job = some job := by
  unfold Capture.store
  split
  · rfl
  · split
    · rfl
    · split <;> rfl

/-- An octet leaves the capture its job (R161). -/
theorem take_job (u : Capture) (now : Stamp) (o : Octet) : (u.take now o).1.phase.job = u.phase.job := by
  unfold Capture.take
  split
  · rename_i job hu
    split
    · rw [store_job, hu]; rfl
    · rfl
  · rename_i job captured stamp hu
    rw [store_job, hu]; rfl
  · rfl
  · rfl

theorem captureOctet_capture (s : State) (o : Octet) :
    (s.captureOctet o).capture = (s.capture.take s.timing.stamp o).1 := by
  unfold State.captureOctet
  split
  · rename_i u hu
    rw [hu]; rfl
  · rename_i u v hu
    rw [hu, (touches_raise _ _ _).capture (by simp)]; rfl

/-- No assembler hands over to the unit any more at this start: it has no output source, or the one it has is done. -/
def StartRun.spent (r : StartRun) : Prop :=
  ∀ k n job, r.state.capture.phase.job = some job → job.source = .output k n →
    k ∈ r.handed ∨ (r.frame.output k).enabled = false

theorem handOctet_of_passed {r : StartRun} {h : Highway}
    (hp : ∀ k n job, r.state.capture.phase.job = some job → job.source = .output k n →
      k = h → k ∈ r.handed ∨ (r.frame.output k).enabled = false) :
    ∃ hs, r.handOctet h = { r with handed := hs } ∧ (∀ k ∈ r.handed, k ∈ hs) ∧ ∀ k ∈ hs, k = h ∨ k ∈ r.handed := by
  unfold StartRun.handOctet
  split
  · exact ⟨r.handed, rfl, fun _ h => h, fun _ h => .inr h⟩
  · have hcons : (∀ k ∈ r.handed, k ∈ h :: r.handed) ∧ ∀ k ∈ h :: r.handed, k = h ∨ k ∈ r.handed :=
      ⟨fun _ => List.mem_cons_of_mem _, fun _ => List.mem_cons.mp⟩
    rename_i hh
    split
    · rename_i k n hj
      rw [if_neg]
      · exact ⟨_, rfl, hcons⟩
      · rintro ⟨rfl, hen⟩
        rcases hp _ _ _ hj rfl rfl with hm | hd
        · exact hh hm
        · simp [hd] at hen
    · exact ⟨_, rfl, hcons⟩
    · exact ⟨_, rfl, hcons⟩

theorem handOctets_of_passed {r : StartRun} {l : List Highway}
    (hp : ∀ k n job, r.state.capture.phase.job = some job → job.source = .output k n →
      k ∈ l → k ∈ r.handed ∨ (r.frame.output k).enabled = false) :
    ∃ hs, l.foldl StartRun.handOctet r = { r with handed := hs } ∧ ∀ k ∈ hs, k ∈ l ∨ k ∈ r.handed := by
  induction l generalizing r with
  | nil => exact ⟨r.handed, rfl, fun _ h => .inr h⟩
  | cons h l ih =>
    obtain ⟨hs, heq, hsub, hsup⟩ := handOctet_of_passed (r := r) (h := h)
      fun k n job hj hsrc hk => hp k n job hj hsrc (hk ▸ List.mem_cons_self)
    obtain ⟨hs', heq', hsup'⟩ := ih (r := { r with handed := hs })
      fun k n job hj hsrc hk => (hp k n job hj hsrc (List.mem_cons_of_mem _ hk)).imp_left (hsub k)
    refine ⟨hs', by rw [List.foldl_cons, heq, heq'], fun k hk => ?_⟩
    rcases hsup' k hk with hl | hr
    · exact .inl (List.mem_cons_of_mem _ hl)
    · refine (hsup k hr).imp_left fun e => ?_
      rw [e]
      exact List.mem_cons_self

/-- Where no assembler hands over to the unit, the part of the unit does nothing. -/
theorem takeCapture_of_spent {r : StartRun} (h : r.spent) : ∃ hs, r.takeCapture = { r with handed := hs } := by
  obtain ⟨hs, heq, -⟩ := handOctets_of_passed (r := r) (l := highways) fun k n job hj hsrc _ => h k n job hj hsrc
  exact ⟨hs, heq⟩

theorem takeOctets_handed (r : StartRun) (p : PortId) (hs : List Highway) :
    StartRun.takeOctets { r with handed := hs } p = { r.takeOctets p with handed := hs } := by
  unfold StartRun.takeOctets
  simp only
  split <;> rfl

/-- The start before the octet of slot `n` of highway `k` is handed over: an octet of the transmit stream is placed first
(R81, R163). -/
def StartRun.sourced (r : StartRun) (k : Highway) (n : Slot) : StartRun :=
  match r.frame.filledBy k n with
  | some p => r.takeOctets p
  | none => r

theorem sourced_handed (r : StartRun) (k : Highway) (n : Slot) (hs : List Highway) :
    StartRun.sourced { r with handed := hs } k n = { r.sourced k n with handed := hs } := by
  unfold StartRun.sourced
  simp only
  split
  · exact takeOctets_handed r _ hs
  · rfl

/-- The source of a capture on an enabled output highway hands over its octet once (R85, R163). -/
theorem takeCapture_of_source {r : StartRun} {k : Highway} {n : Slot} {job : Job}
    (hj : r.state.capture.phase.job = some job) (hs : job.source = .output k n) (hh : k ∉ r.handed)
    (he : (r.frame.output k).enabled = true) (hc : ∀ p, (r.takeOctets p).state.capture = r.state.capture) :
    ∃ handed, r.takeCapture =
      { r.sourced k n with
        state := (r.sourced k n).state.captureOctet (((r.sourced k n).state.output k).line[3 + n.val]'(by omega))
        handed := handed
        begun := true } := by
  obtain ⟨l1, l2, hl⟩ := List.append_of_mem (mem_highways k)
  have hnd : (l1 ++ k :: l2).Nodup := hl ▸ (by decide : highways.Nodup)
  have hk1 : k ∉ l1 := fun hm => (List.disjoint_of_nodup_append hnd) hm List.mem_cons_self
  obtain ⟨hs1, heq1, hsup1⟩ := handOctets_of_passed (r := r) (l := l1) fun k' n' job' hj' hsrc' hm => by
    rw [hj] at hj'
    cases hj'
    rw [hs] at hsrc'
    cases hsrc'
    exact absurd hm hk1
  have hk : k ∉ hs1 := fun hm => (hsup1 k hm).elim hk1 hh
  have hone : StartRun.handOctet { r with handed := hs1 } k =
      { r.sourced k n with
        state := (r.sourced k n).state.captureOctet (((r.sourced k n).state.output k).line[3 + n.val]'(by omega))
        handed := k :: hs1
        begun := true } := by
    obtain ⟨source, trigger, length⟩ := job
    cases hs
    have hso := sourced_handed r k n hs1
    unfold StartRun.handOctet
    rw [if_neg hk]
    simp only [hj]
    rw [if_pos ⟨trivial, he⟩]
    exact congrArg (fun q : StartRun => { q with
      state := q.state.captureOctet ((q.state.output k).line[3 + n.val]'(by omega))
      handed := k :: hs1
      begun := true }) hso
  have hjob : ((r.sourced k n).state.captureOctet
      (((r.sourced k n).state.output k).line[3 + n.val]'(by omega))).capture.phase.job = some job := by
    rw [captureOctet_capture, take_job]
    unfold StartRun.sourced
    split
    · rw [hc, hj]
    · exact hj
  obtain ⟨hs2, heq2, -⟩ := handOctets_of_passed (l := l2) (r := StartRun.handOctet { r with handed := hs1 } k)
    fun k' n' job' hj' hsrc' _ => by
      rw [hone] at hj' ⊢
      cases hjob.symm.trans hj'
      rw [hs] at hsrc'
      cases hsrc'
      exact .inl List.mem_cons_self
  refine ⟨hs2, ?_⟩
  unfold StartRun.takeCapture
  rw [hl, List.foldl_append, List.foldl_cons, heq1, heq2, hone]

/-! ### What a part touches -/

/-- The blocks that a part of a start can touch, where no command can start. -/
def startBlocks : StartTask → List Block
  | .timing => [.timing]
  | .slip _ => [.receivers, .events, .portA, .portB, .draws]
  | .swap => [.timing, .activeBank, .engine, .events, .portA, .portB, .draws]
  | .copy => [.bank0, .bank1, .engine, .events, .portA, .portB, .draws]
  | .take _ | .start _ => [.portA, .portB, .outputs]
  | .capture => [.portA, .portB, .outputs, .capture, .events, .draws]
  | .leaseTick => [.lease, .events, .portA, .portB, .draws]
  | .listTick => [.events, .portA, .portB, .draws]
  | .reset => []

/-- The keys of the occurrences that a part can bring about, but for dropped notices. -/
def startRaises (key : EventKey) : StartTask → Prop
  | .slip k => key = .slip k
  | .swap | .copy => key = .commit
  | .capture => key = .capture
  | .leaseTick => ∃ p, key = .lease p
  | .timing | .take _ | .start _ | .listTick | .reset => False

/-- How many entries they can make. -/
def startCost : StartTask → Nat
  | .slip _ | .swap | .copy | .capture | .leaseTick => 1
  | .timing | .take _ | .start _ | .listTick | .reset => 0

theorem touches_repeatSlip (s : State) (k : Highway) :
    s.touches [.receivers, .events, .portA, .portB, .draws] (s.repeatSlip k) :=
  ((touches_countHighway s k _).trans (touches_raise _ _ _)).mono (by simp)

theorem touches_makeSwap (s : State) (c : PendingCommit) :
    s.touches [.activeBank, .engine, .events, .portA, .portB, .draws] (s.makeSwap c) :=
  (((touches_setActiveBank s _).trans (touches_setEngine _ _)).trans
    ((touches_answerCommit _ c _).trans (touches_raise _ _ _))).mono (by simp)

theorem touches_syncStep (s : State) :
    s.touches [.bank0, .bank1, .engine, .events, .portA, .portB, .draws] s.syncStep := by
  unfold State.syncStep
  split
  · simp only
    split
    · exact (((touches_copyHighway s _ _).trans (touches_setEngine _ _)).trans (touches_raise _ _ _)).mono (by simp)
    · exact ((touches_copyHighway s _ _).trans (touches_setEngine _ _)).mono (by simp)
  · exact touches_refl _ s
  · exact touches_refl _ s

theorem touches_leaseTick (s : State) : s.touches [.lease, .events, .portA, .portB, .draws] s.leaseTick := by
  unfold State.leaseTick
  split
  · exact touches_refl _ s
  · split
    · exact ((touches_setLease s _).trans (touches_raise _ _ _)).mono (by simp)
    · exact (touches_setLease s _).mono (by simp)

theorem makeSwap_grows (s : State) (c : PendingCommit) :
    s.events.grows (· = .commit) 1 (s.makeSwap c).events :=
  raised_grows s (((touches_setActiveBank s _).trans (touches_setEngine _ (.syncing 0 noMarks))).trans
    (touches_answerCommit _ c _)) (by simp) _ _

theorem syncStep_raisesOnce (s : State) : s.raisesOnce s.syncStep .commit := by
  unfold State.syncStep
  split
  · simp only
    split
    · exact raisesOnce_raise s ((touches_copyHighway s _ _).trans (touches_setEngine _ _)) (by simp) (by simp) (by simp) _ _
    · exact raisesOnce_of_touches s ((touches_copyHighway s _ _).trans (touches_setEngine _ _)) (by simp) (by simp)
        (by simp) _
  · exact raisesOnce_refl s _
  · exact raisesOnce_refl s _

theorem leaseTick_raises (s : State) :
    (∀ p, (s.port p).hears (s.leaseTick.port p)) ∧
      s.events.grows (fun key => ∃ p, key = .lease p) 1 s.leaseTick.events := by
  unfold State.leaseTick
  split
  · exact ⟨fun _ => .refl _, .refl _ _ _⟩
  · split
    · obtain ⟨hp, hg⟩ := raisesOnce_raise s (touches_setLease s _) (by simp) (by simp) (by simp) (.lease _) .expired
      exact ⟨hp, hg.mono (fun _ h => ⟨_, h⟩) le_rfl⟩
    · exact ⟨ports_of_touches (touches_setLease s _) (by simp) (by simp),
        grows_of_touches s (touches_setLease s _) (by simp) _ _⟩

theorem repeatSlip_raisesOnce (s : State) (k : Highway) : s.raisesOnce (s.repeatSlip k) (.slip k) :=
  raisesOnce_raise s (touches_countHighway s k _) (by simp) (by simp) (by simp) _ _

end Sys2Proof.Machine
end

section
/-! SUPPORT. An output frame start at which no command waits and no reset is due, as a run of its parts. -/

namespace Sys2Proof.Machine

section
variable {s : State} {r : StartRun}

/-! ### The parts by name -/

section
variable (hc : r.cold = false) (order : StartOrder)
include hc

theorem task_timing : r.task order .timing = r.takeTiming := if_neg (by simp [hc])
theorem task_slip (k : Highway) : r.task order (.slip k) = r.takeSlip k := if_neg (by simp [hc])
theorem task_swap : r.task order .swap = r.takeSwap := if_neg (by simp [hc])
theorem task_copy : r.task order .copy = r.takeCopy := if_neg (by simp [hc])
theorem task_take (p : PortId) : r.task order (.take p) = r.takeOctets p := if_neg (by simp [hc])
theorem task_start (p : PortId) : r.task order (.start p) = r.startCommand p := if_neg (by simp [hc])
theorem task_capture : r.task order .capture = r.takeCapture := if_neg (by simp [hc])
theorem task_leaseTick :
    r.task order .leaseTick = if r.tick then { r with state := r.state.leaseTick } else r := if_neg (by simp [hc])
theorem task_listTick :
    r.task order .listTick =
      if r.tick then { r with state := r.state.listTick order.timerFirst r.delivered } else r := if_neg (by simp [hc])
theorem task_reset : r.task order .reset = r.takeReset order.resetBFirst := if_neg (by simp [hc])

end

/-! ### One part of the start -/

theorem touches_takeOctets (h : r.calm s false) (p : PortId) :
    r.state.touches [.portA, .portB, .outputs] (r.takeOctets p).state := by
  by_cases hp : p ∈ r.taken
  · rw [takeOctets_of_taken hp]
    exact touches_refl _ _
  · rw [takeOctets_eq_of_calm h hp]
    exact touches_given _ _ _

theorem touches_sourced (h : r.calm s false) (k : Highway) (n : Slot) :
    r.state.touches [.portA, .portB, .outputs] (r.sourced k n).state := by
  unfold StartRun.sourced
  split
  · exact touches_takeOctets h _
  · exact touches_refl _ _

/-- The part of the capture unit: the octet of its source, after the octets of the port that fills its slot, or nothing. -/
theorem takeCapture_cases (h : r.calm s false) :
    r.spent ∧ (∃ hs, r.takeCapture = { r with handed := hs }) ∨
    ∃ (k : Highway) (n : Slot) (job : Job) (handed : List Highway),
      r.state.capture.phase.job = some job ∧ job.source = .output k n ∧ (s.output k).enabled = true ∧ r.takeCapture =
        { r.sourced k n with
          state := (r.sourced k n).state.captureOctet (((r.sourced k n).state.output k).line[3 + n.val]'(by omega))
          handed := handed
          begun := true } := by
  by_cases hsp : r.spent
  · exact .inl ⟨hsp, takeCapture_of_spent hsp⟩
  · obtain ⟨k, n, job, hj, hs, hh, he⟩ : ∃ k n job, r.state.capture.phase.job = some job ∧ job.source = .output k n ∧
        k ∉ r.handed ∧ (r.frame.output k).enabled = true := by
      simpa [StartRun.spent] using hsp
    obtain ⟨hs', heq⟩ := takeCapture_of_source hj hs hh he fun p => (touches_takeOctets h p).capture (by simp)
    rw [h.frame, frameState_output] at he
    exact .inr ⟨k, n, job, hs', hj, hs, he, heq⟩

theorem takeCapture_leaves (h : r.calm s false) :
    r.state.touches [.portA, .portB, .outputs, .capture, .events, .draws] r.takeCapture.state ∧
      r.state.events.grows (· = .capture) 1 r.takeCapture.state.events := by
  rcases takeCapture_cases h with ⟨-, hs, heq⟩ | ⟨k, n, job, hs, -, -, -, heq⟩
  · rw [heq]
    exact ⟨touches_refl _ _, .refl _ _ _⟩
  · have ht := touches_sourced h k n
    rw [heq]
    refine ⟨(ht.trans (touches_captureOctet _ _)).mono (by simp), ?_⟩
    rw [← ht.events (by simp)]
    exact (captureOctet_raisesOnce _ _).2

theorem takeSwap_leaves (r : StartRun) :
    r.state.touches [.timing, .activeBank, .engine, .events, .portA, .portB, .draws] r.takeSwap.state ∧
      r.state.events.grows (· = .commit) 1 r.takeSwap.state.events := by
  unfold StartRun.takeSwap
  split
  · rename_i c hc
    exact ⟨((touches_setTiming r.state r.frame.timing).trans (touches_makeSwap r.takeTiming.state c)).mono (by simp),
      makeSwap_grows r.takeTiming.state c⟩
  · exact ⟨touches_refl _ _, .refl _ _ _⟩

theorem takeCopy_leaves (r : StartRun) :
    r.state.touches [.bank0, .bank1, .engine, .events, .portA, .portB, .draws] r.takeCopy.state ∧
      r.state.events.grows (· = .commit) 1 r.takeCopy.state.events := by
  unfold StartRun.takeCopy
  split
  · exact ⟨touches_refl _ _, .refl _ _ _⟩
  · exact ⟨touches_syncStep _, (syncStep_raisesOnce _).2⟩

theorem grows_of_entries {l m : EventList} (h : m.entries = l.entries) : l.grows (fun _ => False) 0 m := by
  have hload : m.load = l.load := by
    simp only [EventList.load, EventList.ordinaryCount, EventList.unmade, h]
  exact ⟨hload.le, fun _ _ _ _ hr => by simpa only [EventList.reports, h] using hr, fun _ _ _ e he _ => h ▸ he⟩

theorem grows_listTick (t : State) (timerFirst delivered : Bool) :
    t.events.grows (fun _ => False) 0 (t.listTick timerFirst delivered).events := by
  have hhold : ∀ t : State, t.events.grows (fun _ => False) 0 t.holdTick.events := by
    intro t
    unfold State.holdTick
    split
    · exact .refl _ _ _
    · split
      · exact .refl _ _ _
      · refine EventList.grows.trans (n := 0) (n' := 0) ?_ (grows_settleAttention _)
        exact grows_of_entries rfl
  have htimer : ∀ (t : State) (running : Option Octet),
      t.events.grows (fun _ => False) 0 (t.timerTick running delivered).events := by
    intro t running
    unfold State.timerTick
    split
    · exact .refl _ _ _
    · split
      · exact grows_attn t.events t.events.attn _
      · split
        · exact .refl _ _ _
        · exact (grows_attn t.events t.events.attn _).trans (grows_offerNotices (t.setEvents _))
  unfold State.listTick
  split
  · exact (htimer t _).trans (hhold _)
  · exact (hhold t).trans (htimer _ _)

/-- Where no reset is due the part of the reset does nothing. -/
theorem takeReset_of_calm (h : r.calm s false) (hn : s.noWork) (resetBFirst : Bool) : r.takeReset resetBFirst = r := by
  obtain ⟨-, -, ha, hb⟩ := hn
  have hA : r.resetA = none := by simpa [StartRun.due, ha] using h.due .a
  have hB : r.resetB = none := by simpa [StartRun.due, hb] using h.due .b
  simp [StartRun.takeReset, StartRun.resetDue, hA, hB]

theorem State.noWork.still (hn : s.noWork) (p : PortId) : (s.port p).still := by
  obtain ⟨ha, hb, -, -⟩ := hn
  cases p <;> simp [Port.still, State.port, ha, hb]

theorem task_reset_of_calm (h : r.calm s false) (hn : s.noWork) (order : StartOrder) : r.task order .reset = r :=
  (task_reset h.warm order).trans (takeReset_of_calm h hn _)

theorem task_quiet (h : r.calm s false) (hn : s.noWork) (order : StartOrder) (x : StartTask) :
    (r.task order x).calm s false := by
  by_cases hx : x = .reset
  · subst hx
    simpa [StartRun.task, h.warm, takeReset_of_calm h hn] using h
  · exact task_calm h order hx

/-- What a part of a quiet start touches, and what it raises. -/
theorem task_leaves (h : r.calm s false) (order : StartOrder) {x : StartTask} (hx : x ≠ .reset) :
    r.state.touches (startBlocks x) (r.task order x).state ∧
      r.state.events.grows (fun key => startRaises key x) (startCost x) (r.task order x).state.events := by
  have same : ∀ {bs : List Block} {t : State}, r.state.touches bs t → Block.events ∉ bs →
      r.state.touches bs t ∧ r.state.events.grows (fun _ => False) 0 t.events :=
    fun ht he => ⟨ht, grows_of_touches _ ht he _ _⟩
  cases x with
  | timing => exact task_timing h.warm order ▸ same (bs := [.timing]) (touches_setTiming _ _) (by simp)
  | slip k =>
    rw [task_slip h.warm]
    unfold StartRun.takeSlip
    split
    · exact ⟨touches_repeatSlip _ _, (repeatSlip_raisesOnce _ k).2⟩
    · exact ⟨touches_refl _ _, .refl _ _ _⟩
  | swap => exact task_swap h.warm order ▸ takeSwap_leaves r
  | copy => exact task_copy h.warm order ▸ takeCopy_leaves r
  | take p => exact task_take h.warm order p ▸ same (bs := [.portA, .portB, .outputs]) (touches_takeOctets h p) (by simp)
  | start p =>
    rw [task_start h.warm, startCommand_of_calm h p]
    exact same (bs := [.portA, .portB, .outputs]) (touches_takeOctets h p) (by simp)
  | capture => exact task_capture h.warm order ▸ takeCapture_leaves h
  | leaseTick =>
    rw [task_leaseTick h.warm]
    split
    · exact ⟨touches_leaseTick _, (leaseTick_raises _).2⟩
    · exact ⟨touches_refl _ _, .refl _ _ _⟩
  | listTick =>
    rw [task_listTick h.warm]
    split
    · exact ⟨touches_listTick _ _ _, grows_listTick _ _ _⟩
    · exact ⟨touches_refl _ _, .refl _ _ _⟩
  | reset => exact absurd rfl hx

/-! ### A run of parts -/

/-- A run of parts of a start. -/
def StartRun.tasks (order : StartOrder) (l : List StartTask) (r : StartRun) : StartRun :=
  l.foldl (fun r x => r.task order x) r

/-- What every part of a quiet start keeps, a run of them keeps. -/
theorem tasks_keep (P : StartRun → Prop) (hn : s.noWork) (order : StartOrder) {l : List StartTask} (h : r.calm s false)
    (h0 : P r) (hstep : ∀ q, q.calm s false → ∀ x ∈ l, x ≠ .reset → P q → P (q.task order x)) :
    (r.tasks order l).calm s false ∧ P (r.tasks order l) := by
  refine foldl_keeps (fun q => q.calm s false ∧ P q) _ l r ⟨h, h0⟩ fun q x hx ⟨hq, hp⟩ => ?_
  refine ⟨task_quiet hq hn order x, ?_⟩
  by_cases hr : x = .reset
  · subst hr
    simpa [StartRun.task, hq.warm, takeReset_of_calm hq hn] using hp
  · exact hstep q hq x hx hr hp

theorem touches_tasks (hn : s.noWork) (order : StartOrder) (h : r.calm s false) (l : List StartTask) :
    r.state.touches (l.flatMap startBlocks) (r.tasks order l).state :=
  (tasks_keep (fun q => r.state.touches (l.flatMap startBlocks) q.state) hn order h (touches_refl _ _)
    fun q hq x hx hr ht => (ht.trans (task_leaves hq order hr).1).mono fun b hb => by
      rcases List.mem_append.mp hb with hb | hb
      · exact hb
      · exact List.mem_flatMap.mpr ⟨x, hx, hb⟩).2

theorem grows_tasks (hn : s.noWork) (order : StartOrder) (h : r.calm s false) (l : List StartTask) :
    r.state.events.grows (fun key => ∃ x ∈ l, startRaises key x) (l.map startCost).sum
      (r.tasks order l).state.events := by
  induction l generalizing r with
  | nil => exact .refl _ _ _
  | cons x l ih =>
    have hx : r.state.events.grows (fun key => startRaises key x) (startCost x) (r.task order x).state.events := by
      by_cases hr : x = .reset
      · subst hr
        rw [task_reset_of_calm h hn]
        exact .refl _ _ _
      · exact (task_leaves h order hr).2
    have htail := ih (task_quiet h hn order x)
    have h' := (hx.mono (keys' := fun key => ∃ y ∈ x :: l, startRaises key y) (fun key h => ⟨x, List.mem_cons_self, h⟩)
      le_rfl).trans (htail.mono (fun key ⟨y, hy, h⟩ => ⟨y, List.mem_cons_of_mem _ hy, h⟩) le_rfl)
    rw [List.map_cons, List.sum_cons]
    exact h'

theorem startParts_perm (order : StartOrder) : (startParts order).Perm startTasks := by
  refine (List.perm_ext_iff_of_nodup (startParts_nodup order) (by decide)).mpr fun x => ?_
  have hstanding : x ∈ startTasks := by
    have := mem_startParts standingOrder x
    rwa [startParts, mem_firstMentions] at this
  exact ⟨fun _ => hstanding, fun _ => mem_startParts order x⟩

/-- In the order of a start a part has its one place, and what can be raised before it and by it leaves room at the
list. -/
theorem startParts_split (order : StartOrder) (x : StartTask) :
    ∃ before after, startParts order = before ++ x :: after ∧ x ∉ before ∧ x ∉ after ∧
      (before.map startCost).sum + startCost x ≤ 12 := by
  obtain ⟨before, after, hl⟩ := List.append_of_mem (mem_startParts order x)
  have hnd := startParts_nodup order
  rw [hl] at hnd
  refine ⟨before, after, hl, fun hm => (List.disjoint_of_nodup_append hnd) hm List.mem_cons_self,
    (List.nodup_cons.mp (List.nodup_append.mp hnd).2.1).1, ?_⟩
  have hsum := ((startParts_perm order).map startCost).sum_eq
  rw [hl, List.map_append, List.sum_append, List.map_cons, List.sum_cons,
    show (startTasks.map startCost).sum = 12 by decide] at hsum
  omega

/-- A quiet start, split at one of its parts: there is room at the list when its turn comes. -/
theorem outputStart_at (hn : s.noWork) (order : StartOrder) (x : StartTask) :
    ∃ (before after : List StartTask) (r : StartRun), r = s.beginStart.tasks order before ∧ r.calm s false ∧
      x ∉ before ∧ x ∉ after ∧ (r.task order x).calm s false ∧
      s.outputStart order = ((r.task order x).tasks order after).state ∧
      r.state.events.load + startCost x ≤ s.events.ordinaryCount + 14 := by
  obtain ⟨before, after, hl, hb, ha, hcost⟩ := startParts_split order x
  have h0 := beginStart_calm hn.still
  have hr := (tasks_keep (fun _ => True) hn order (l := before) h0 trivial fun _ _ _ _ _ _ => trivial).1
  have hx := task_quiet hr hn order x
  refine ⟨before, after, _, rfl, hr, hb, ha, hx, ?_, ?_⟩
  · have hend := (tasks_keep (fun _ => True) hn order (l := after) hx trivial fun _ _ _ _ _ _ => trivial).1
    have hreset : ((s.beginStart.tasks order before).task order x).tasks order after =
        (startParts order).foldl (fun r x => r.task order x) s.beginStart := by
      rw [hl, List.foldl_append]; rfl
    rw [hreset] at hend ⊢
    unfold State.outputStart
    simp only
    rw [task_reset_of_calm hend hn]
  · have hload := (grows_tasks hn order h0 before).load
    have h2 := load_le s.events
    have he : s.beginStart.state.events = s.events := rfl
    rw [he] at hload
    omega

end

end Sys2Proof.Machine
end

section
/-! SUPPORT. The quiet output frame start: timing, selection and repeat slips (R64 to R66, R75). -/

namespace Sys2Proof.Machine

section
variable {s : State} {r : StartRun}

/-- What each part of a quiet start keeps holds at its end. -/
theorem outputStart_keep (P : StartRun → Prop) (hn : s.noWork) (order : StartOrder) (h0 : P s.beginStart)
    (hstep : ∀ q, q.calm s false → ∀ x, x ≠ .reset → P q → P (q.task order x)) :
    ∃ r : StartRun, r.calm s false ∧ P r ∧ s.outputStart order = r.state := by
  obtain ⟨hc, hp⟩ := tasks_keep P hn order (l := startParts order) (beginStart_calm hn.still) h0
    fun q hq x _ hx => hstep q hq x hx
  refine ⟨_, hc, hp, ?_⟩
  unfold State.outputStart
  simp only
  exact congrArg StartRun.state (task_reset_of_calm hc hn order)

/-- Until part `x` is taken `P` holds, and from then on `Q`; when its turn comes there is room at the list. -/
theorem outputStart_through (x : StartTask) (P Q : StartRun → Prop) (hn : s.noWork) (order : StartOrder)
    (h0 : P s.beginStart)
    (hP : ∀ q, q.calm s false → ∀ y, y ≠ .reset → y ≠ x → P q → P (q.task order y))
    (hx : ∀ q, q.calm s false → q.state.events.load + startCost x ≤ s.events.ordinaryCount + 14 → P q →
      Q (q.task order x))
    (hQ : ∀ q, q.calm s false → ∀ y, y ≠ .reset → y ≠ x → Q q → Q (q.task order y)) :
    ∃ r : StartRun, r.calm s false ∧ Q r ∧ s.outputStart order = r.state := by
  obtain ⟨before, after, q, rfl, hq, hb, ha, hcx, heq, hload⟩ := outputStart_at hn order x
  have hpq := (tasks_keep P hn order (l := before) (beginStart_calm hn.still) h0 fun q hq y hy hr =>
    hP q hq y hr fun e => hb (e ▸ hy)).2
  obtain ⟨hc, hend⟩ := tasks_keep Q hn order (l := after) hcx (hx _ hq hload hpq) fun q hq y hy hr =>
    hQ q hq y hr fun e => ha (e ▸ hy)
  exact ⟨_, hc, hend, heq⟩

/-! ### The timing (R75) -/

theorem startBlocks_timing {x : StartTask} (h : x ≠ .timing) (h' : x ≠ .swap) : Block.timing ∉ startBlocks x := by
  cases x <;> simp_all [startBlocks]

theorem makeSwap_timing (t : State) (c : PendingCommit) : (t.makeSwap c).timing = t.timing :=
  (touches_makeSwap t c).timing (by simp)

/-- A part leaves the timing, or takes it on to that of the frame that begins (R75, R77). -/
theorem task_timing_cases (h : r.calm s false) (order : StartOrder) {x : StartTask} (hx : x ≠ .reset) :
    (r.task order x).state.timing = r.state.timing ∨ (r.task order x).state.timing = s.timing.advance := by
  have hframe : r.frame.timing = s.timing.advance := by rw [h.frame, frameState_timing]
  by_cases ht : x = .timing
  · subst ht
    exact .inr (task_timing h.warm order ▸ hframe)
  by_cases hs : x = .swap
  · subst hs
    rw [task_swap h.warm]
    unfold StartRun.takeSwap
    split
    · exact .inr ((makeSwap_timing _ _).trans hframe)
    · exact .inl rfl
  exact .inl ((task_leaves h order hx).1.timing (startBlocks_timing ht hs))

theorem outputStart_timing (hn : s.noWork) (order : StartOrder) :
    (s.outputStart order).timing = s.timing.advance := by
  obtain ⟨r, -, hr, heq⟩ := outputStart_through .timing (fun _ => True) (fun q => q.state.timing = s.timing.advance)
    hn order trivial (fun _ _ _ _ _ _ => trivial)
    (fun q hq _ _ => by
      rw [task_timing hq.warm, ← frameState_timing, ← hq.frame]
      rfl)
    fun q hq y hy _ hqt => (task_timing_cases hq order hy).elim (fun e => e.trans hqt) id
  rw [heq, hr]

theorem advance_eq (x : Timing) :
    x.advance = if x.startPending then { x with startPending := false }
      else if x.frame = 15 then { frame := 0, stamp := x.stamp + 1, startPending := false }
      else { frame := x.frame + 1, stamp := x.stamp, startPending := false } := by
  have hwrap : (15 : FrameNumber) + 1 = 0 := by decide
  unfold Timing.advance
  by_cases hp : x.startPending = true
  · rw [if_pos hp, if_pos hp]
  · rw [if_neg hp, if_neg hp]
    by_cases h : x.frame = 15
    · simp only [h, if_true, hwrap, Bool.eq_false_of_not_eq_true hp]
    · simp only [if_neg h, Bool.eq_false_of_not_eq_true hp]

/-! ### What a whole start leaves alone -/

theorem touches_outputStart (hn : s.noWork) (order : StartOrder) :
    s.beginStart.state.touches [.timing, .receivers, .events, .portA, .portB, .draws, .activeBank, .engine, .bank0,
      .bank1, .outputs, .capture, .lease] (s.outputStart order) := by
  obtain ⟨r, -, ht, heq⟩ := outputStart_keep (fun q => s.beginStart.state.touches [.timing, .receivers, .events,
      .portA, .portB, .draws, .activeBank, .engine, .bank0, .bank1, .outputs, .capture, .lease] q.state) hn order
    (touches_refl _ _) fun q hq x hx ht => (ht.trans (task_leaves hq order hx).1).mono (by cases x <;> simp [startBlocks])
  exact heq ▸ ht

theorem beginStart_output (s : State) (k : Highway) : s.beginStart.state.output k = s.frameState.nextOutput k := by
  simp [beginStart_state, State.output]

/-- What a part of a quiet start does at most: a port gives its octets, then blocks of its own change, and then one event
is raised or the tick comes to the list. Of the ports a swap alone changes more. -/
structure StartRun.partOf (order : StartOrder) (x : StartTask) (r r' q : StartRun) (t : State) : Prop where
  gives   : q = r ∨ ∃ p, q = r.takeOctets p
  taken   : r'.taken = q.taken
  events  : t.events = q.state.events
  outputs : t.outputs = q.state.outputs
  ports   : x ≠ .swap ∨ r.swap = none → ∀ p, t.port p = q.state.port p
  ends    : r'.state = t ∨ (∃ key v, startRaises key x ∧ r'.state = t.raise key v) ∨
    x = .listTick ∧ r.tick = true ∧ r'.state = t.listTick order.timerFirst false

theorem partOf_of_touches {order : StartOrder} {x : StartTask} {r' : StartRun} {t : State} {bs : List Block}
    (ht : r.state.touches bs t) (he : Block.events ∉ bs) (ho : Block.outputs ∉ bs) (ha : Block.portA ∉ bs)
    (hb : Block.portB ∉ bs) (htaken : r'.taken = r.taken)
    (hend : r'.state = t ∨ ∃ key v, startRaises key x ∧ r'.state = t.raise key v) : r.partOf order x r' r t :=
  ⟨.inl rfl, htaken, ht.events he, ht.outputs ho, fun _ p => ht.port p ha hb, hend.imp_right .inl⟩

theorem partOf_refl (order : StartOrder) (x : StartTask) {r' : StartRun} (hs : r'.state = r.state)
    (ht : r'.taken = r.taken) : r.partOf order x r' r r.state :=
  ⟨.inl rfl, ht, rfl, rfl, fun _ _ => rfl, .inl hs⟩

theorem partOf_takeOctets (r : StartRun) (order : StartOrder) (x : StartTask) (p : PortId) :
    r.partOf order x (r.takeOctets p) (r.takeOctets p) (r.takeOctets p).state :=
  ⟨.inr ⟨p, rfl⟩, rfl, rfl, rfl, fun _ _ => rfl, .inl rfl⟩

theorem partOf_captureOctet {order : StartOrder} {r' q : StartRun} (o : Octet) (hq : q = r ∨ ∃ p, q = r.takeOctets p)
    (ht : r'.taken = q.taken) (hs : r'.state = q.state.captureOctet o) : ∃ t, r.partOf order .capture r' q t := by
  have hset := touches_setCapture q.state (q.state.capture.take q.state.timing.stamp o).1
  refine ⟨_, hq, ht, hset.events (by simp), hset.outputs (by simp), fun _ p => hset.port p (by simp) (by simp), ?_⟩
  rw [hs]
  unfold State.captureOctet
  split
  · rename_i u hu
    exact .inl (by rw [hu])
  · rename_i u v hu
    exact .inr (.inl ⟨.capture, v, rfl, by rw [hu]⟩)

theorem task_partOf (h : r.calm s false) (order : StartOrder) {x : StartTask} (hx : x ≠ .reset) :
    ∃ q t, r.partOf order x (r.task order x) q t := by
  cases x with
  | take p => exact ⟨_, _, task_take h.warm order p ▸ partOf_takeOctets r order _ p⟩
  | start p =>
    rw [task_start h.warm, startCommand_of_calm h]
    exact ⟨_, _, partOf_takeOctets r order _ p⟩
  | capture =>
    rw [task_capture h.warm]
    rcases takeCapture_cases h with ⟨-, hs, heq⟩ | ⟨k, n, job, hs, -, -, -, heq⟩
    · exact ⟨_, _, partOf_refl order _ (by rw [heq]) (by rw [heq])⟩
    · refine ⟨r.sourced k n, partOf_captureOctet _ ?_ (by rw [heq]) (by rw [heq])⟩
      unfold StartRun.sourced
      split
      · exact .inr ⟨_, rfl⟩
      · exact .inl rfl
  | timing =>
    rw [task_timing h.warm]
    exact ⟨_, _, partOf_of_touches (touches_setTiming r.state r.frame.timing) (by simp) (by simp) (by simp) (by simp) rfl
      (.inl rfl)⟩
  | slip k =>
    rw [task_slip h.warm]
    unfold StartRun.takeSlip
    split
    · exact ⟨_, _, partOf_of_touches (touches_countHighway r.state k _) (by simp) (by simp) (by simp) (by simp) rfl
        (.inr ⟨_, _, rfl, rfl⟩)⟩
    · exact ⟨_, _, partOf_refl order _ rfl rfl⟩
  | swap =>
    rw [task_swap h.warm]
    unfold StartRun.takeSwap
    split
    · rename_i c hc
      let u := (r.takeTiming.state.setActiveBank r.takeTiming.state.standbyBank).setEngine (.syncing 0 noMarks)
      have ht := touches_answerCommit u c
        { status := .ok, data := bankOctet u.activeBank :: pairOctets u.timing.stamp }
      exact ⟨r, _, .inl rfl, rfl, ht.events (by simp), ht.outputs (by simp), fun hn => by simp [hc] at hn,
        .inr (.inl ⟨.commit, _, rfl, rfl⟩)⟩
    · exact ⟨_, _, partOf_refl order _ rfl rfl⟩
  | copy =>
    rw [task_copy h.warm]
    unfold StartRun.takeCopy State.syncStep
    split
    · exact ⟨_, _, partOf_refl order _ rfl rfl⟩
    · split
      · simp only
        split
        · exact ⟨_, _, partOf_of_touches ((touches_copyHighway r.state _ _).trans (touches_setEngine _ _)) (by simp)
            (by simp) (by simp) (by simp) rfl (.inr ⟨_, _, rfl, rfl⟩)⟩
        · exact ⟨_, _, partOf_of_touches ((touches_copyHighway r.state _ _).trans (touches_setEngine _ _)) (by simp)
            (by simp) (by simp) (by simp) rfl (.inl rfl)⟩
      · exact ⟨_, _, partOf_refl order _ rfl rfl⟩
      · exact ⟨_, _, partOf_refl order _ rfl rfl⟩
  | leaseTick =>
    rw [task_leaseTick h.warm]
    unfold State.leaseTick
    split
    · split
      · exact ⟨_, _, partOf_refl order _ rfl rfl⟩
      · split
        · exact ⟨_, _, partOf_of_touches (touches_setLease r.state _) (by simp) (by simp) (by simp) (by simp) rfl
            (.inr ⟨_, _, ⟨_, rfl⟩, rfl⟩)⟩
        · exact ⟨_, _, partOf_of_touches (touches_setLease r.state _) (by simp) (by simp) (by simp) (by simp) rfl
            (.inl rfl)⟩
    · exact ⟨_, _, partOf_refl order _ rfl rfl⟩
  | listTick =>
    rw [task_listTick h.warm]
    split
    · rename_i ht
      exact ⟨r, r.state, .inl rfl, rfl, rfl, rfl, fun _ _ => rfl, .inr (.inr ⟨rfl, ht, by rw [h.delivered]⟩)⟩
    · exact ⟨_, _, partOf_refl order _ rfl rfl⟩
  | reset => exact absurd rfl hx

theorem StartRun.partOf.outputs_eq {order : StartOrder} {x : StartTask} {r' q : StartRun} {t : State}
    (h : r.partOf order x r' q t) : r'.state.outputs = q.state.outputs := by
  rw [← h.outputs]
  rcases h.ends with e | ⟨key, v, -, e⟩ | ⟨-, -, e⟩ <;> rw [e]
  · exact (touches_raise t key v).outputs (by simp)
  · exact (touches_listTick t _ _).outputs (by simp)

/-- The ports after a part: the octets given, and what each port hears after them. -/
theorem StartRun.partOf.hears {order : StartOrder} {x : StartTask} {r' q : StartRun} {t : State}
    (h : r.partOf order x r' q t) (hs : x ≠ .swap ∨ r.swap = none) (p : PortId) :
    (q.state.port p).hears (r'.state.port p) := by
  rw [← h.ports hs p]
  rcases h.ends with e | ⟨key, v, -, e⟩ | ⟨-, -, e⟩ <;> rw [e]
  · exact .refl _
  · exact (hears_raise t key v).ports p
  · exact (hears_listTick t _ _).ports p

theorem takeOctets_output (h : r.calm s false) (p : PortId) (k : Highway) :
    ∃ line, (r.takeOctets p).state.output k = { r.state.output k with line := line } := by
  by_cases hp : p ∈ r.taken
  · exact ⟨_, by rw [takeOctets_of_taken hp]⟩
  · rw [takeOctets_eq_of_calm h hp, given_output]
    split
    · exact ⟨_, rfl⟩
    · exact ⟨_, rfl⟩

/-- A start leaves the settings of an output highway, and the RA flag that it sends from the start on (R53, R84). -/
theorem outputStart_output (hn : s.noWork) (order : StartOrder) (k : Highway) :
    ∃ line, (s.outputStart order).output k = { s.frameState.nextOutput k with line := line } := by
  obtain ⟨r, -, hr, heq⟩ := outputStart_keep
    (fun q => ∃ line, q.state.output k = { s.frameState.nextOutput k with line := line }) hn order
    ⟨_, beginStart_output s k⟩ fun q hq x hx ⟨line, hl⟩ => by
      obtain ⟨q', t, ht⟩ := task_partOf hq order hx
      rw [State.output, ht.outputs_eq]
      rcases ht.gives with rfl | ⟨p, rfl⟩
      · exact ⟨line, hl⟩
      · obtain ⟨line', hl'⟩ := takeOctets_output hq p k
        exact ⟨line', hl'.trans (by rw [hl])⟩
  exact heq ▸ hr

/-! ### The repeat slips (R65) -/

theorem repeatSlip_receiver (t : State) (j k : Highway) :
    (t.repeatSlip j).receiver k =
      if j = k then { t.receiver k with
        counters := { (t.receiver k).counters with repeatSlips := saturate (t.receiver k).counters.repeatSlips } }
      else t.receiver k := by
  rw [State.repeatSlip, raise_receiver]
  by_cases h : j = k
  · subst h
    simp [State.countHighway]
  · simp [State.countHighway, h]

theorem takeSlip_eq (h : r.calm s false) (k : Highway) :
    r.takeSlip k = if s.repeats k then { r with state := r.state.repeatSlip k } else r := by
  unfold StartRun.takeSlip
  simp [h.slips, mem_highways]

theorem task_receiver_other (h : r.calm s false) (order : StartOrder) {k : Highway} {x : StartTask} (hx : x ≠ .reset)
    (hk : x ≠ .slip k) : (r.task order x).state.receiver k = r.state.receiver k := by
  cases x with
  | slip j =>
    have hj : j ≠ k := fun e => hk (e ▸ rfl)
    rw [task_slip h.warm, takeSlip_eq h]
    split
    · exact (repeatSlip_receiver _ _ _).trans (if_neg hj)
    · rfl
  | _ => exact (task_leaves h order hx).1.receiver k (by simp [startBlocks])

theorem startRaises_slip {k : Highway} {x : StartTask} (hk : x ≠ .slip k) : ¬startRaises (.slip k) x := by
  cases x <;> simp_all [startRaises]
  exact fun e => hk e.symm

/-- The receiver of a highway after a start, and the slip that a repeated reading frame raises (R65, R70). -/
theorem outputStart_slip (hn : s.noWork) (order : StartOrder) (k : Highway) :
    (s.outputStart order).receiver k =
      (if s.repeats k then { s.receiver k with
        counters := { (s.receiver k).counters with repeatSlips := saturate (s.receiver k).counters.repeatSlips } }
      else s.receiver k) ∧
    (s.repeats k = true → s.events.roomy → (s.outputStart order).events.reports (.slip k) .repeated) := by
  obtain ⟨r, -, hr, heq⟩ := outputStart_through (.slip k) (fun q => q.state.receiver k = s.receiver k)
    (fun q => q.state.receiver k =
      (if s.repeats k then { s.receiver k with
        counters := { (s.receiver k).counters with repeatSlips := saturate (s.receiver k).counters.repeatSlips } }
      else s.receiver k) ∧
      (s.repeats k = true → s.events.roomy → q.state.events.reports (.slip k) .repeated)) hn order rfl
    (fun q hq y hy hne h => (task_receiver_other hq order hy hne).trans h)
    (fun q hq hload h => by
      rw [task_slip hq.warm, takeSlip_eq hq]
      by_cases hk : s.repeats k = true
      · rw [if_pos hk, if_pos hk]
        refine ⟨by rw [repeatSlip_receiver, if_pos rfl, h], fun _ hroom => raise_reports (admits_of_load ?_ _) (by simp) _⟩
        have : s.events.ordinaryCount ≤ 32 := hroom
        have : q.state.events.load + 1 ≤ s.events.ordinaryCount + 14 := hload
        show q.state.events.load < 63
        omega
      · rw [if_neg hk, if_neg hk]
        exact ⟨h, fun h => absurd h hk⟩)
    fun q hq y hy hne ⟨h, hrep⟩ => ⟨(task_receiver_other hq order hy hne).trans h, fun hk hroom =>
      (task_leaves hq order hy).2.kept _ _ rfl (startRaises_slip hne) (hrep hk hroom)⟩
  exact heq ▸ hr

/-! ### The banks, the lease and the capture unit -/

theorem takeSwap_of_none (h : r.swap = none) : r.takeSwap = { r with begun := true } := by
  unfold StartRun.takeSwap
  rw [h]

theorem StartRun.calm.swap_none (h : r.calm s false) (hs : s.swapsNext = false) : r.swap = none := by
  rcases h.swap with e | e
  · exact e
  · rw [e, ← Option.not_isSome_iff_eq_none, dueSwap_isSome, hs]
    simp

/-- Without a swap the bank roles stand, and the ACTIVE bank with them; a swap leaves both banks (R25, R29). -/
theorem outputStart_active (hn : s.noWork) (order : StartOrder) :
    (s.outputStart order).bank s.nextActive = s.bank s.nextActive ∧
      (s.swapsNext = false → (s.outputStart order).activeBank = s.activeBank) := by
  obtain ⟨r, -, hr, heq⟩ := outputStart_keep
    (fun q => q.state.bank s.nextActive = s.bank s.nextActive ∧ (s.swapsNext = false → q.state.activeBank = s.activeBank))
    hn order ⟨by cases s.nextActive <;> rfl, fun _ => rfl⟩ fun q hq x hx ⟨hb, ha⟩ => by
      by_cases hc : x = .copy
      · subst hc
        rw [task_copy hq.warm]
        unfold StartRun.takeCopy
        split
        · exact ⟨hb, ha⟩
        · rename_i hsw
          have hno : s.swapsNext = false := by rw [← hq.swaps]; simpa using hsw
          have hact : s.nextActive = s.activeBank := by simp [State.nextActive, hno]
          obtain ⟨h1, h2, -⟩ := syncStep_frame q.state
          rw [ha hno, ← hact] at h2
          exact ⟨h2.trans hb, fun _ => h1.trans (ha hno)⟩
      · have ht := (task_leaves hq order hx).1
        refine ⟨(ht.bank _ (by cases x <;> simp_all [startBlocks]) (by cases x <;> simp_all [startBlocks])).trans hb,
          fun hno => ?_⟩
        by_cases hs : x = .swap
        · subst hs
          rw [task_swap hq.warm, takeSwap_of_none (hq.swap_none hno)]
          exact ha hno
        · exact (ht.activeBank (by cases x <;> simp_all [startBlocks])).trans (ha hno)
  exact heq ▸ hr

theorem outputStart_lease (hn : s.noWork) (order : StartOrder) (h : s.tickNext = false) :
    (s.outputStart order).lease = s.lease := by
  obtain ⟨r, -, hr, heq⟩ := outputStart_keep (fun q => q.state.lease = s.lease) hn order rfl fun q hq x hx hl => by
    by_cases hc : x = .leaseTick
    · subst hc
      rw [task_leaseTick hq.warm, if_neg (by rw [hq.tick]; simp [h])]
      exact hl
    · exact ((task_leaves hq order hx).1.lease (by cases x <;> simp_all [startBlocks])).trans hl
  exact heq ▸ hr

theorem outputStart_capture (hn : s.noWork) (order : StartOrder)
    (h : ∀ k n job, s.capture.phase.job = some job → job.source = .output k n → (s.output k).enabled = false) :
    (s.outputStart order).capture = s.capture := by
  obtain ⟨r, -, hr, heq⟩ := outputStart_keep (fun q => q.state.capture = s.capture) hn order rfl fun q hq x hx hl => by
    by_cases hc : x = .capture
    · subst hc
      rw [task_capture hq.warm]
      rcases takeCapture_cases hq with ⟨-, hs, he⟩ | ⟨k, n, job, hs, hj, hsrc, hen, -⟩
      · rw [he]
        exact hl
      · rw [hl] at hj
        simp [h k n job hj hsrc] at hen
    · exact ((task_leaves hq order hx).1.capture (by cases x <;> simp_all [startBlocks])).trans hl
  exact heq ▸ hr

/-- No command waits that could decide the boundary, so that the swap found due is the one made (R25). -/
theorem outputStart_activeBank (hn : s.noWork) (order : StartOrder) :
    (s.outputStart order).activeBank = s.nextActive := by
  obtain ⟨ha, hb, hra, hrb⟩ := hn
  have hw : ∀ c, ¬s.waits c := by
    rintro c ⟨p, q, hq, -⟩
    cases p <;> simp [State.port, ha, hb] at hq
  obtain ⟨r, hr | hr, heq⟩ := outputStart_serves s order
  · have hsw : r.swaps = s.swapsNext := by
      by_contra hne
      rcases (hr.decided hne).2 with ⟨-, h, -⟩ | ⟨-, h⟩
      · exact hw _ h
      · exact hw _ h
    rw [heq, hr.activeBank, (hr.finished rfl).2, hsw]
    simp [bankAfter_swapsNext]
  · rcases hr.due with h | h
    · simp [hra] at h
    · simp [hrb] at h

end

/-- Settles O34: the start split at its timing and at each slip; every other part leaves what they change. -/
theorem startAdvancesAndSelects : Obligations.StartAdvancesAndSelects := by
  unfold Obligations.StartAdvancesAndSelects
  intro order s hn
  have ht := touches_outputStart hn order
  have hqueue : ∀ k, (s.outputStart order).queue k = s.selectedQueue k := fun k => by
    rw [ht.queue k (by simp), beginStart_state]
    simp [State.queue]
  have hno : ∀ k, s.repeats k = false → (s.outputStart order).receiver k = s.receiver k := fun k hk => by
    rw [(outputStart_slip hn order k).1, hk]
    rfl
  refine ⟨_, rfl, (outputStart_timing hn order).trans (advance_eq _), fun k => ⟨fun hs => ?_, fun f rest hs hf => ?_,
    fun hs hf hr => ?_, fun f hs hf hr => ?_, ?_⟩, ht.pins (by simp), ht.straps (by simp), ht.sups (by simp),
    outputStart_activeBank hn order, (outputStart_active hn order).1, outputStart_lease hn order, fun hj => ?_⟩
  · exact ⟨(hqueue k).trans (selectedQueue_out hs), hno k (by simp [State.repeats, hs])⟩
  · exact ⟨(hqueue k).trans (selectedQueue_head hs hf), hno k (by simp [State.repeats, hf])⟩
  · exact ⟨(hqueue k).trans (selectedQueue_empty hf), hno k (by simp [State.repeats, hr])⟩
  · have hk : s.repeats k = true := (repeats_iff s k).mpr ⟨hs, hf, f, hr⟩
    obtain ⟨hrec, hrep⟩ := outputStart_slip hn order k
    rw [if_pos hk] at hrec
    exact ⟨(hqueue k).trans (selectedQueue_empty hf), hrec, hrep hk⟩
  · obtain ⟨line, hl⟩ := outputStart_output hn order k
    rw [hl]
    simp [State.nextOutput]
  · exact outputStart_capture hn order fun k n job h => by simp [hj] at h

end Sys2Proof.Machine
end

section
/-! SUPPORT. The swap and the copies of a sync at an output frame start (R25, R26, R29). -/

namespace Sys2Proof.Machine

/-! ### The octets taken from a transmit queue (R141) -/

/-- A place that is reserved keeps its place while octets are taken. -/
theorem mem_takeOctets_reserved {r : Reservation} {n : Nat} {places : List Place} (h : .reserved r ∈ places) :
    .reserved r ∈ (takeOctets n places).2.1 := by
  induction n generalizing places with
  | zero => exact h
  | succ n ih =>
    refine ih ?_
    unfold takeOctet
    split
    · exact (List.mem_cons.mp h).resolve_left (by simp)
    · exact List.mem_cons_of_mem _ ((List.mem_cons.mp h).resolve_left (by simp))
    · exact h

/-- Of a message longer than the octets taken, the octets not taken yet go on waiting. -/
theorem mem_takeOctets_message {m : List Octet} {x : Option Scope} {n : Nat} {places : List Place}
    (h : .message m x ∈ places) (hn : n < m.length) :
    ∃ sent ≤ n, .message (m.drop sent) x ∈ (takeOctets n places).2.1 := by
  induction n generalizing m places with
  | zero => exact ⟨0, le_rfl, h⟩
  | succ n ih =>
    have go : ∀ {rest : List Place}, .message m x ∈ rest → (takeOctet places).2.1 = rest →
        ∃ sent ≤ n + 1, .message (m.drop sent) x ∈ (takeOctets (n + 1) places).2.1 := fun hm hr => by
      obtain ⟨sent, hs, hmem⟩ := ih (hr ▸ hm) (by omega)
      exact ⟨sent, by omega, hmem⟩
    match places, h with
    | [], h => cases h
    | .reserved r :: rest, h => exact go h rfl
    | .message [] y :: rest, h => exact go h rfl
    | .message [o] y :: rest, h =>
      refine go ((List.mem_cons.mp h).resolve_left fun e => ?_) rfl
      cases e
      simp at hn
    | .message (o :: o' :: os) y :: rest, h =>
      rcases List.mem_cons.mp h with e | hm
      · cases e
        obtain ⟨sent, hs, hmem⟩ := ih (m := o' :: os) (places := .message (o' :: os) _ :: rest) List.mem_cons_self
          (by simpa using hn)
        exact ⟨sent + 1, by omega, hmem⟩
      · exact go (rest := .message (o' :: os) y :: rest) (List.mem_cons_of_mem _ hm) rfl

theorem any_reserved_iff (r : Reservation) (places : List Place) :
    places.any (Place.isReservedFor r) = true ↔ .reserved r ∈ places := by
  rw [List.any_eq_true]
  constructor
  · rintro ⟨x, hx, h⟩
    cases x with
    | message m y => cases h
    | reserved r' =>
      obtain rfl : r' = r := by simpa [Place.isReservedFor] using h
      exact hx
  · exact fun h => ⟨_, h, by simp [Place.isReservedFor]⟩

theorem mem_fillPlace {r : Reservation} {m : List Octet} {x : Option Scope} {places : List Place}
    (h : .reserved r ∈ places) : .message m x ∈ fillPlace r m x places := by
  induction places with
  | nil => cases h
  | cons y ys ih =>
    cases y with
    | message m' y => exact List.mem_cons_of_mem _ (ih ((List.mem_cons.mp h).resolve_left (by simp)))
    | reserved r' =>
      unfold fillPlace
      split
      · exact List.mem_cons_self
      · rename_i hne
        exact List.mem_cons_of_mem _ (ih ((List.mem_cons.mp h).resolve_left fun e => hne (by cases e; rfl)))

section
variable {s : State} {r : StartRun}

/-! ### The swap (R25, R26) -/

/-- The swap that is due is made by its own part alone. -/
theorem task_swap_other (h : r.calm s false) (order : StartOrder) {x : StartTask} (hx : x ≠ .reset) (hs : x ≠ .swap) :
    (r.task order x).swap = r.swap := by
  have hgive : ∀ p, (r.takeOctets p).swap = r.swap := fun p => by
    by_cases hp : p ∈ r.taken
    · rw [takeOctets_of_taken hp]
    · rw [takeOctets_eq_of_calm h hp]
  cases x with
  | timing => rw [task_timing h.warm]; rfl
  | slip k =>
    rw [task_slip h.warm, takeSlip_eq h]
    split <;> rfl
  | swap => exact absurd rfl hs
  | copy =>
    rw [task_copy h.warm]
    unfold StartRun.takeCopy
    split <;> rfl
  | take p => exact task_take h.warm order p ▸ hgive p
  | start p => rw [task_start h.warm, startCommand_of_calm h, hgive]
  | capture =>
    rw [task_capture h.warm]
    rcases takeCapture_cases h with ⟨-, hs, heq⟩ | ⟨k, n, job, hs, -, -, -, heq⟩
    · rw [heq]
    · rw [heq]
      unfold StartRun.sourced
      split
      · exact hgive _
      · rfl
  | leaseTick =>
    rw [task_leaseTick h.warm]
    split <;> rfl
  | listTick =>
    rw [task_listTick h.warm]
    split <;> rfl
  | reset => exact absurd rfl hx

/-- No copy is made at the start that swaps (R25). -/
theorem task_copy_of_swaps (h : r.calm s false) (hs : s.swapsNext = true) (order : StartOrder) :
    r.task order .copy = r := (task_copy h.warm order).trans (if_pos (h.swaps.trans hs))

theorem task_swap_of_some (h : r.calm s false) {c : PendingCommit} (hs : r.swap = some c) (order : StartOrder) :
    r.task order .swap =
      { r with state := (r.state.setTiming s.timing.advance).makeSwap c, begun := true, swap := none } := by
  rw [task_swap h.warm]
  unfold StartRun.takeSwap StartRun.takeTiming
  rw [hs]
  simp only [h.frame, frameState_timing]

theorem makeSwap_eq (t : State) (c : PendingCommit) :
    t.makeSwap c =
      (((t.setActiveBank t.standbyBank).setEngine (.syncing 0 noMarks)).answerCommit c
        { status := .ok, data := bankOctet t.standbyBank :: pairOctets t.timing.stamp }).raise .commit
        (.swapped t.standbyBank) := rfl

/-- A swap leaves the entries of both banks, and the engine at the beginning of a sync, with SWAPPED raised (R25, R26). -/
theorem outputStart_swap (hn : s.noWork) (order : StartOrder) {c : PendingCommit} (hb : s.boundaryNext = true)
    (he : s.engine = .pending c) :
    (s.outputStart order).bank0 = s.bank0 ∧ (s.outputStart order).bank1 = s.bank1 ∧
      (s.outputStart order).engine = .syncing 0 noMarks ∧
      (s.events.roomy → (s.outputStart order).events.reports .commit (.swapped s.standbyBank)) := by
  have hsw : s.swapsNext = true := by simp [State.swapsNext, hb, he, Engine.isPending]
  have hdue : s.dueSwap = some c := (dueSwap_eq_some s c).mpr ⟨hb, he⟩
  have hbanks : ∀ q : StartRun, q.calm s false → ∀ x : StartTask, x ≠ .reset → q.state.bank0 = s.bank0 ∧ q.state.bank1 = s.bank1 →
      (q.task order x).state.bank0 = s.bank0 ∧ (q.task order x).state.bank1 = s.bank1 := fun q hq x hx ⟨h0, h1⟩ => by
    by_cases hc : x = .copy
    · subst hc
      rw [task_copy_of_swaps hq hsw]
      exact ⟨h0, h1⟩
    · have ht := (task_leaves hq order hx).1
      exact ⟨(ht.bank0 (by cases x <;> simp_all [startBlocks])).trans h0,
        (ht.bank1 (by cases x <;> simp_all [startBlocks])).trans h1⟩
  obtain ⟨r, -, ⟨hr, he, hrep⟩, heq⟩ := outputStart_through .swap
    (fun q => (q.state.bank0 = s.bank0 ∧ q.state.bank1 = s.bank1) ∧ q.swap = some c ∧ q.state.activeBank = s.activeBank)
    (fun q => (q.state.bank0 = s.bank0 ∧ q.state.bank1 = s.bank1) ∧ q.state.engine = .syncing 0 noMarks ∧
      (s.events.roomy → q.state.events.reports .commit (.swapped s.standbyBank))) hn order ⟨⟨rfl, rfl⟩, hdue, rfl⟩
    (fun q hq y hy hne ⟨hbk, hsw, ha⟩ => ⟨hbanks q hq y hy hbk, (task_swap_other hq order hy hne).trans hsw,
      ((task_leaves hq order hy).1.activeBank (by cases y <;> simp_all [startBlocks])).trans ha⟩)
    (fun q hq hload ⟨hbk, hswap, ha⟩ => by
      refine ⟨hbanks q hq .swap (by simp) hbk, ?_⟩
      rw [task_swap_of_some hq hswap]
      have hstandby : (q.state.setTiming s.timing.advance).standbyBank = s.standbyBank := by
        simp only [State.standbyBank, setTiming_activeBank, ha]
      have ht := touches_answerCommit (((q.state.setTiming s.timing.advance).setActiveBank s.standbyBank).setEngine
        (.syncing 0 noMarks)) c { status := .ok, data := bankOctet s.standbyBank :: pairOctets s.timing.advance.stamp }
      simp only [makeSwap_eq, hstandby, setTiming_timing]
      refine ⟨by rw [raise_engine, ht.engine (by simp)]; rfl, fun hroom => ?_⟩
      refine raise_reports ?_ (by simp) _
      rw [ht.events (by simp)]
      refine admits_of_load ?_ _
      have : s.events.ordinaryCount ≤ 32 := hroom
      have : q.state.events.load + 1 ≤ s.events.ordinaryCount + 14 := hload
      show q.state.events.load < 63
      omega)
    fun q hq y hy hne ⟨hbk, heng, hrep⟩ => by
      refine ⟨hbanks q hq y hy hbk, ?_⟩
      by_cases hc : y = .copy
      · subst hc
        rw [task_copy_of_swaps hq hsw]
        exact ⟨heng, hrep⟩
      · obtain ⟨ht, hg⟩ := task_leaves hq order hy
        exact ⟨(ht.engine (by cases y <;> simp_all [startBlocks])).trans heng, fun hroom =>
          hg.kept _ _ rfl (by cases y <;> simp_all [startRaises]) (hrep hroom)⟩
  exact heq ▸ ⟨hr.1, hr.2, he, hrep⟩

/-- What a part other than the swap leaves of the cache of a port, and of the places in its transmit queue. -/
theorem task_places (h : r.calm s false) (order : StartOrder) {x : StartTask} (hx : x ≠ .reset)
    (hs : x ≠ .swap ∨ r.swap = none) (p : PortId) :
    ((r.task order x).state.port p).cache = (r.state.port p).cache ∧
    (∀ res, .reserved res ∈ (r.state.port p).transmit → .reserved res ∈ ((r.task order x).state.port p).transmit) ∧
    ∀ m : List Octet, 4 < m.length → (∃ sent ≤ 4, (sent = 0 ∨ p ∈ r.taken) ∧ .message (m.drop sent) none ∈ (r.state.port p).transmit) →
      ∃ sent ≤ 4, (sent = 0 ∨ p ∈ (r.task order x).taken) ∧
        .message (m.drop sent) none ∈ ((r.task order x).state.port p).transmit := by
  obtain ⟨q, t, ht⟩ := task_partOf h order hx
  obtain ⟨more, counters, hport, -, -⟩ := ht.hears hs p
  rw [hport, ht.taken]
  rcases ht.gives with rfl | ⟨p', rfl⟩
  · exact ⟨rfl, fun _ hm => List.mem_append_left _ hm, fun m hm ⟨sent, h4, h0, hin⟩ =>
      ⟨sent, h4, h0, List.mem_append_left _ hin⟩⟩
  · by_cases hp : p' ∈ r.taken
    · rw [takeOctets_of_taken hp]
      exact ⟨rfl, fun _ hm => List.mem_append_left _ hm, fun m hm ⟨sent, h4, h0, hin⟩ =>
        ⟨sent, h4, h0, List.mem_append_left _ hin⟩⟩
    rw [takeOctets_eq_of_calm h hp]
    by_cases hpp : p' = p
    · subst hpp
      simp only [given_port]
      unfold State.octetsFrom
      split
      · refine ⟨trivial, fun res hm => List.mem_append_left _ (mem_takeOctets_reserved hm), fun m hm ⟨sent, h4, h0, hin⟩ => ?_⟩
        obtain rfl : sent = 0 := h0.resolve_right hp
        obtain ⟨sent, hs', hin'⟩ := mem_takeOctets_message hin ((strapWidth_le _).trans_lt hm)
        exact ⟨sent, hs'.trans (strapWidth_le _), .inr List.mem_cons_self, List.mem_append_left _ hin'⟩
      · exact ⟨trivial, fun _ hm => List.mem_append_left _ hm, fun m hm ⟨sent, h4, h0, hin⟩ =>
          ⟨sent, h4, h0.imp_right (List.mem_cons_of_mem _), List.mem_append_left _ hin⟩⟩
    · rw [given_port_other _ _ hpp]
      exact ⟨rfl, fun _ hm => List.mem_append_left _ hm, fun m hm ⟨sent, h4, h0, hin⟩ =>
        ⟨sent, h4, h0.imp_right (List.mem_cons_of_mem _), List.mem_append_left _ hin⟩⟩

/-- The COMMIT is answered in the place kept for it, and in the cache, with the bank and the stamp of the swap
(R25, R26). -/
theorem outputStart_swap_answers (hn : s.noWork) (order : StartOrder) {c : PendingCommit} (hb : s.boundaryNext = true)
    (he : s.engine = .pending c) (hk : (s.port c.port).transmit.any (Place.isReservedFor .commit) = true)
    {m : List Octet}
    (hm : m = responseMessage c.tag 0x0C
      { status := .ok, data := bankOctet s.standbyBank :: pairOctets s.timing.advance.stamp }) :
    (∃ sent ≤ 4, .message (m.drop sent) none ∈ ((s.outputStart order).port c.port).transmit) ∧
      ∀ e, c.cached = true → (s.port c.port).cached c.tag = some e →
        ((s.outputStart order).port c.port).cached c.tag = some { e with state := .done m } := by
  have hdue : s.dueSwap = some c := (dueSwap_eq_some s c).mpr ⟨hb, he⟩
  have hlen : 4 < m.length := by
    rw [hm]
    simp only [responseMessage, envelope, List.length_cons, List.length_append]
    omega
  obtain ⟨r, -, ⟨⟨sent, h4, -, hin⟩, hcache⟩, heq⟩ := outputStart_through .swap
    (fun q => (q.swap = some c ∧ q.state.activeBank = s.activeBank) ∧ .reserved .commit ∈ (q.state.port c.port).transmit ∧
      (q.state.port c.port).cache = (s.port c.port).cache)
    (fun q => (∃ sent ≤ 4, (sent = 0 ∨ c.port ∈ q.taken) ∧ .message (m.drop sent) none ∈ (q.state.port c.port).transmit) ∧
      (q.state.port c.port).cache =
        if c.cached then completeEntry c.tag m (s.port c.port).cache else (s.port c.port).cache) hn order
    ⟨⟨hdue, rfl⟩, by
      have := (any_reserved_iff _ _).mp hk
      cases hp : c.port <;> rw [hp] at this <;> exact this, by cases c.port <;> rfl⟩
    (fun q hq y hy hne ⟨⟨hsw, ha⟩, hres, hc⟩ => by
      obtain ⟨h1, h2, -⟩ := task_places hq order hy (.inl hne) c.port
      exact ⟨⟨(task_swap_other hq order hy hne).trans hsw,
        ((task_leaves hq order hy).1.activeBank (by cases y <;> simp_all [startBlocks])).trans ha⟩, h2 _ hres, h1.trans hc⟩)
    (fun q hq _ ⟨⟨hswap, ha⟩, hres, hc⟩ => by
      rw [task_swap_of_some hq hswap]
      have hstandby : (q.state.setTiming s.timing.advance).standbyBank = s.standbyBank := by
        simp only [State.standbyBank, setTiming_activeBank, ha]
      simp only [makeSwap_eq, hstandby, setTiming_timing]
      obtain ⟨more, counters, hport, -, -⟩ := (hears_raise ((((q.state.setTiming s.timing.advance).setActiveBank
        s.standbyBank).setEngine (.syncing 0 noMarks)).answerCommit c
        { status := .ok, data := bankOctet s.standbyBank :: pairOctets s.timing.advance.stamp }) .commit
        (.swapped s.standbyBank)).ports c.port
      have hanswer : ((((q.state.setTiming s.timing.advance).setActiveBank s.standbyBank).setEngine
          (.syncing 0 noMarks)).answerCommit c
          { status := .ok, data := bankOctet s.standbyBank :: pairOctets s.timing.advance.stamp }).port c.port =
          { q.state.port c.port with
            transmit := fillPlace .commit m none (q.state.port c.port).transmit
            cache := if c.cached then completeEntry c.tag m (q.state.port c.port).cache
              else (q.state.port c.port).cache } := by
        unfold State.answerCommit
        rw [if_pos (by simpa using (any_reserved_iff _ _).mpr hres), port_setPort, if_pos rfl, hm]
        simp only [setEngine_port, setActiveBank_port, setTiming_port]
        rfl
      rw [hanswer] at hport
      have htx : _ = fillPlace .commit m none (q.state.port c.port).transmit ++ more := congrArg Port.transmit hport
      have hca := congrArg Port.cache hport
      refine ⟨⟨0, by omega, .inl rfl, ?_⟩, ?_⟩
      · rw [List.drop_zero]
        rw [htx]
        exact List.mem_append_left _ (mem_fillPlace hres)
      · rw [← hc]
        exact hca)
    fun q hq y hy hne ⟨hin, hc⟩ => by
      obtain ⟨h1, -, h3⟩ := task_places hq order hy (.inl hne) c.port
      exact ⟨h3 m hlen hin, h1.trans hc⟩
  rw [heq]
  refine ⟨⟨sent, h4, hin⟩, fun e hce hcached => ?_⟩
  rw [Port.cached, hcache, if_pos hce, find_completeEntry,
    show (s.port c.port).cache.find? (fun y => y.tag = c.tag) = some e from hcached]
  rfl

end

/-- Settles O36: the start split at the swap. -/
theorem swapExchangesTheBanks : Obligations.SwapExchangesTheBanks := by
  unfold Obligations.SwapExchangesTheBanks
  intro order c stamp m s hb he hn hroom hstamp hm
  have hsw : s.swapsNext = true := by simp [State.swapsNext, hb, he, Engine.isPending]
  have hexec : exec (.swap order) s = .next (s.outputStart (withEarly .swap order)) :=
    if_pos (by simp [hb, he, Engine.isPending])
  have hadv : s.timing.advance.stamp = stamp := by
    rw [hstamp, advance_eq]
    by_cases hp : s.timing.startPending = true
    · rw [if_pos hp, if_pos hp]
    · have hf : s.timing.frame = 15 := by simpa [State.boundaryNext, hp] using hb
      rw [if_neg hp, if_neg hp, if_pos hf]
  have ht := touches_outputStart hn (withEarly .swap order)
  obtain ⟨h0, h1, heng, hrep⟩ := outputStart_swap hn (withEarly .swap order) hb he
  refine ⟨_, hexec, ?_, h0, h1, heng, ?_, hrep hroom, fun hk => ?_, ht.sups (by simp), ht.straps (by simp),
    outputStart_lease hn _⟩
  · rw [outputStart_activeBank hn]
    simp [State.nextActive, hsw]
  · rw [outputStart_timing hn, hadv]
  · obtain ⟨⟨sent, h4, hin⟩, hcache⟩ := outputStart_swap_answers hn (withEarly .swap order) hb he hk
      (m := m) (by rw [hm, hadv]; rfl)
    exact ⟨⟨sent, h4, hin⟩, hcache⟩

end Sys2Proof.Machine
end

section
/-! SUPPORT. The copies of a sync and the tick at an output frame start (R29, R119, R154). -/

namespace Sys2Proof.Machine

section
variable {s : State} {r : StartRun}

/-! ### The copy of a sync (R29, R30, R34) -/

theorem swapsNext_of_syncing {pos : Highway} {marks : Marks} (he : s.engine = .syncing pos marks) :
    s.swapsNext = false := by
  simp [State.swapsNext, he, Engine.isPending]

/-- The engine after the copy of the highway at the sync position. -/
def nextEngine (pos : Highway) (marks : Marks) : Engine := if pos = 7 then .idle else .syncing (pos + 1) marks

theorem syncStep_of_syncing {t : State} {pos : Highway} {marks : Marks} (he : t.engine = .syncing pos marks) :
    (t.copyHighway pos marks).setEngine (nextEngine pos marks) = t.syncStep ∨
      pos = 7 ∧ t.syncStep = ((t.copyHighway pos marks).setEngine .idle).raise .commit .syncDone := by
  unfold State.syncStep nextEngine
  rw [he]
  simp only
  by_cases h : pos = 7
  · exact .inr ⟨h, if_pos h⟩
  · exact .inl (by rw [if_neg h, if_neg h])

/-- The map after a copy: the banks of the part with one highway copied, and the engine moved on. -/
def State.copied (s : State) (pos : Highway) (marks : Marks) (t : State) : Prop :=
  t.bank0 = (s.copyHighway pos marks).bank0 ∧ t.bank1 = (s.copyHighway pos marks).bank1 ∧
    t.activeBank = s.activeBank ∧ t.engine = nextEngine pos marks

/-- The map as it was. -/
def State.mapAs (s t : State) : Prop :=
  t.bank0 = s.bank0 ∧ t.bank1 = s.bank1 ∧ t.activeBank = s.activeBank ∧ t.engine = s.engine

theorem copyHighway_congr {s t : State} (h : s.mapAs t) (pos : Highway) (marks : Marks) :
    (t.copyHighway pos marks).bank0 = (s.copyHighway pos marks).bank0 ∧
      (t.copyHighway pos marks).bank1 = (s.copyHighway pos marks).bank1 := by
  obtain ⟨h0, h1, ha, -⟩ := h
  have hb : ∀ b, t.bank b = s.bank b := fun b => by cases b <;> assumption
  have hs : t.standbyBank = s.standbyBank := by rw [State.standbyBank, State.standbyBank, ha]
  have key : ∀ (b : BankId) (x : Bank), (t.setBank b x).bank0 = (s.setBank b x).bank0 ∧
      (t.setBank b x).bank1 = (s.setBank b x).bank1 := fun b x => by
    cases b <;> simp [State.setBank, h0, h1]
  unfold State.copyHighway
  simp only [hb, hs, ha]
  exact key _ _

theorem copied_syncStep {s t : State} (h : s.mapAs t) {pos : Highway} {marks : Marks}
    (he : s.engine = .syncing pos marks) : s.copied pos marks t.syncStep := by
  obtain ⟨h0, h1⟩ := copyHighway_congr h pos marks
  obtain ⟨-, -, ha, hte⟩ := h
  have hact := (touches_copyHighway t pos marks).activeBank (by simp)
  rcases syncStep_of_syncing (hte.trans he) with e | ⟨hp, e⟩
  · rw [← e]
    exact ⟨h0, h1, hact.trans ha, rfl⟩
  · rw [e]
    have ht := touches_raise ((t.copyHighway pos marks).setEngine .idle) .commit .syncDone
    refine ⟨(ht.bank0 (by simp)).trans h0, (ht.bank1 (by simp)).trans h1, (ht.activeBank (by simp)).trans (hact.trans ha),
      (ht.engine (by simp)).trans ?_⟩
    rw [nextEngine, if_pos hp]
    rfl

theorem activeEntry_of_copied {t : State} {pos : Highway} {marks : Marks} (h : s.copied pos marks t) (k : Highway)
    (n : Slot) : t.activeEntry k n = s.activeEntry k n ∧
      t.standbyEntry k n = if k = pos ∧ marks[k][n] = false then s.activeEntry k n else s.standbyEntry k n := by
  obtain ⟨h0, h1, ha, -⟩ := h
  have hact : t.activeBank = (s.copyHighway pos marks).activeBank :=
    ha.trans ((touches_copyHighway s pos marks).activeBank (by simp)).symm
  have hb : ∀ b, t.bank b = (s.copyHighway pos marks).bank b := fun b => by cases b <;> assumption
  rw [← copyHighway_standbyEntry s pos marks k n, ← copyHighway_activeEntry s pos marks k n]
  simp only [State.activeEntry, State.standbyEntry, State.standbyBank, hb, hact, and_self]

/-- A part that is not the copy leaves the map, while no swap is due. -/
theorem task_map (h : r.calm s false) (hno : s.swapsNext = false) (order : StartOrder) {x : StartTask} (hx : x ≠ .reset)
    (hc : x ≠ .copy) : r.state.mapAs (r.task order x).state := by
  by_cases hs : x = .swap
  · subst hs
    rw [task_swap h.warm, takeSwap_of_none (h.swap_none hno)]
    exact ⟨rfl, rfl, rfl, rfl⟩
  · have ht := (task_leaves h order hx).1
    exact ⟨ht.bank0 (by cases x <;> simp_all [startBlocks]), ht.bank1 (by cases x <;> simp_all [startBlocks]),
      ht.activeBank (by cases x <;> simp_all [startBlocks]), ht.engine (by cases x <;> simp_all [startBlocks])⟩

theorem State.mapAs.trans {s t u : State} (h : s.mapAs t) (h' : t.mapAs u) : s.mapAs u :=
  ⟨h'.1.trans h.1, h'.2.1.trans h.2.1, h'.2.2.1.trans h.2.2.1, h'.2.2.2.trans h.2.2.2⟩

theorem State.copied.then {pos : Highway} {marks : Marks} {t u : State} (h : s.copied pos marks t) (h' : t.mapAs u) :
    s.copied pos marks u :=
  ⟨h'.1.trans h.1, h'.2.1.trans h.2.1, h'.2.2.1.trans h.2.2.1, h'.2.2.2.trans h.2.2.2⟩

theorem outputStart_copy (hn : s.noWork) (order : StartOrder) {pos : Highway} {marks : Marks}
    (he : s.engine = .syncing pos marks) :
    s.copied pos marks (s.outputStart order) ∧
      (pos = 7 → s.events.roomy → (s.outputStart order).events.reports .commit .syncDone) := by
  have hno := swapsNext_of_syncing he
  obtain ⟨r, -, hr, heq⟩ := outputStart_through .copy (fun q => s.mapAs q.state)
    (fun q => s.copied pos marks q.state ∧
      (pos = 7 → s.events.roomy → q.state.events.reports .commit .syncDone)) hn order ⟨rfl, rfl, rfl, rfl⟩
    (fun q hq y hy hne h => h.trans (task_map hq hno order hy hne))
    (fun q hq hload h => by
      have hcopy : (q.task order .copy).state = q.state.syncStep := by
        rw [task_copy hq.warm, StartRun.takeCopy, if_neg (by simp [hq.swaps, hno])]
      rw [hcopy]
      refine ⟨copied_syncStep h he, fun hp hroom => ?_⟩
      have heng : q.state.engine = .syncing pos marks := h.2.2.2.trans he
      have hstep : q.state.syncStep = ((q.state.copyHighway pos marks).setEngine .idle).raise .commit .syncDone := by
        unfold State.syncStep
        rw [heng]
        exact if_pos hp
      rw [hstep]
      refine raise_reports ?_ (by simp) _
      rw [setEngine_events, (touches_copyHighway q.state pos marks).events (by simp)]
      refine admits_of_load ?_ _
      have : s.events.ordinaryCount ≤ 32 := hroom
      have : q.state.events.load + 1 ≤ s.events.ordinaryCount + 14 := hload
      omega)
    fun q hq y hy hne ⟨hc, hrep⟩ => by
      refine ⟨hc.then (task_map hq hno order hy hne), fun hp hroom => ?_⟩
      by_cases hs : y = .swap
      · subst hs
        rw [task_swap hq.warm, takeSwap_of_none (hq.swap_none hno)]
        exact hrep hp hroom
      · exact (task_leaves hq order hy).2.kept _ _ rfl (by cases y <;> simp_all [startRaises]) (hrep hp hroom)
  exact heq ▸ hr

/-! ### The tick at the lease unit (R154) -/

theorem outputStart_leaseTick (hn : s.noWork) (order : StartOrder) (htick : s.tickNext = true) {h : Holder}
    (hh : s.lease.holder = some h) :
    (s.outputStart order).lease =
      (if h.remaining.toNat ≤ 1 then s.lease.freed
      else { s.lease with holder := some { h with remaining := h.remaining - 1 } }) ∧
    (h.remaining.toNat ≤ 1 → s.events.roomy → (s.outputStart order).events.reports (.lease h.port) .expired) := by
  have hother : ∀ q : StartRun, q.calm s false → ∀ y : StartTask, y ≠ .reset → y ≠ .leaseTick →
      (q.task order y).state.lease = q.state.lease := fun q hq y hy hne =>
    (task_leaves hq order hy).1.lease (by cases y <;> simp_all [startBlocks])
  obtain ⟨r, -, hr, heq⟩ := outputStart_through .leaseTick (fun q => q.state.lease = s.lease)
    (fun q => q.state.lease =
      (if h.remaining.toNat ≤ 1 then s.lease.freed
      else { s.lease with holder := some { h with remaining := h.remaining - 1 } }) ∧
      (h.remaining.toNat ≤ 1 → s.events.roomy → q.state.events.reports (.lease h.port) .expired)) hn order rfl
    (fun q hq y hy hne hl => (hother q hq y hy hne).trans hl)
    (fun q hq hload hl => by
      rw [task_leaseTick hq.warm, if_pos (hq.tick.trans htick)]
      have hq' : q.state.lease.holder = some h := by rw [hl, hh]
      unfold State.leaseTick
      rw [hq']
      simp only [hl]
      by_cases h1 : h.remaining.toNat ≤ 1
      · rw [if_pos h1, if_pos h1]
        refine ⟨by rw [raise_lease]; rfl, fun _ hroom => raise_reports (admits_of_load ?_ _) (by simp) _⟩
        have : s.events.ordinaryCount ≤ 32 := hroom
        have : q.state.events.load + 1 ≤ s.events.ordinaryCount + 14 := hload
        show q.state.events.load < 63
        omega
      · rw [if_neg h1, if_neg h1]
        exact ⟨rfl, fun h => absurd h h1⟩)
    fun q hq y hy hne ⟨hl, hrep⟩ => ⟨(hother q hq y hy hne).trans hl, fun h1 hroom =>
      (task_leaves hq order hy).2.kept _ _ rfl (by cases y <;> simp_all [startRaises]) (hrep h1 hroom)⟩
  exact heq ▸ hr

/-! ### The batch over a start (R119) -/

/-- The batch, its number and its entries, and the parameters of the list, as an occurrence leaves them. -/
structure EventList.batchAs (l m : EventList) : Prop where
  batch     : m.batch = l.batch
  number    : m.batchNumber = l.batchNumber
  delivered : m.deliveredEntries = l.deliveredEntries
  interval  : m.interval = l.interval

theorem EventList.batchAs.trans {l m o : EventList} (h : l.batchAs m) (h' : m.batchAs o) : l.batchAs o :=
  ⟨h'.1.trans h.1, h'.2.trans h.2, h'.3.trans h.3, h'.4.trans h.4⟩

theorem EventList.hears.batchAs {l m : EventList} (h : l.hears m) : l.batchAs m :=
  ⟨by rw [h.same], by rw [h.same], h.delivered, by rw [h.same]⟩

theorem batchAs_settleAttention (t : State) : t.events.batchAs t.settleAttention.events := by
  unfold State.settleAttention
  split
  · exact ⟨rfl, rfl, rfl, rfl⟩
  · split
    · have h := (offerNotices_hears
        (t.setEvents { t.events with attn := true, timer := startedTimer t.events.interval })).batchAs
      exact ⟨h.1, h.2, h.3, h.4⟩
    · exact ⟨rfl, rfl, rfl, rfl⟩

theorem batchAs_raise (t : State) (key : EventKey) (v : EventValue) : t.events.batchAs (t.raise key v).events :=
  (take_hears t.events key v t.timing.stamp).batchAs.trans (batchAs_settleAttention (t.takeOccurrence key v))

theorem batchAs_timerTick (t : State) (running : Option Octet) (delivered : Bool) :
    t.events.batchAs (t.timerTick running delivered).events := by
  unfold State.timerTick
  split
  · exact ⟨rfl, rfl, rfl, rfl⟩
  · split
    · exact ⟨rfl, rfl, rfl, rfl⟩
    · split
      · exact ⟨rfl, rfl, rfl, rfl⟩
      · have h := (offerNotices_hears (t.setEvents { t.events with timer := startedTimer t.events.interval })).batchAs
        exact ⟨h.1, h.2, h.3, h.4⟩

/-- The octets of the ports are no matter of the list. -/
theorem takeOctets_events (h : r.calm s false) (p : PortId) : (r.takeOctets p).state.events = r.state.events :=
  (touches_takeOctets h p).events (by simp)

theorem StartRun.partOf.events_eq {order : StartOrder} {x : StartTask} {r' q : StartRun} {t : State}
    (ht : r.partOf order x r' q t) (h : r.calm s false) : t.events = r.state.events := by
  rw [ht.events]
  rcases ht.gives with rfl | ⟨p, rfl⟩
  · rfl
  · exact takeOctets_events h p

theorem task_batchAs (h : r.calm s false) (order : StartOrder) {x : StartTask} (hx : x ≠ .reset) (hl : x ≠ .listTick) :
    r.state.events.batchAs (r.task order x).state.events := by
  obtain ⟨q, t, ht⟩ := task_partOf h order hx
  rw [← ht.events_eq h]
  rcases ht.ends with e | ⟨key, v, -, e⟩ | ⟨e, -⟩
  · rw [e]
    exact ⟨rfl, rfl, rfl, rfl⟩
  · rw [e]
    exact batchAs_raise t key v
  · exact absurd e hl

theorem holdTick_batch {t : State} {b : Batch} (hb : t.events.batch = some b) (h0 : b.hold ≠ 0) :
    t.holdTick.events.batch = some { b with hold := b.hold - 1 } ∧ t.holdTick.events.batchNumber = t.events.batchNumber ∧
      t.holdTick.events.deliveredEntries = t.events.deliveredEntries := by
  have h := batchAs_settleAttention
    (t.setEvents { t.events with batch := some { port := b.port, hold := b.hold - 1 } })
  have heq : t.holdTick =
      (t.setEvents { t.events with batch := some { port := b.port, hold := b.hold - 1 } }).settleAttention := by
    unfold State.holdTick
    rw [hb]
    exact if_neg h0
  rw [heq]
  exact ⟨h.1, h.2, h.3⟩

theorem listTick_batch {t : State} {b : Batch} (hb : t.events.batch = some b) (h0 : b.hold ≠ 0)
    (timerFirst delivered : Bool) :
    (t.listTick timerFirst delivered).events.batch = some { b with hold := b.hold - 1 } ∧
      (t.listTick timerFirst delivered).events.batchNumber = t.events.batchNumber ∧
      (t.listTick timerFirst delivered).events.deliveredEntries = t.events.deliveredEntries := by
  unfold State.listTick
  split
  · have h := batchAs_timerTick t t.events.timer delivered
    obtain ⟨h1, h2, h3⟩ := holdTick_batch (h.1.trans hb) h0
    exact ⟨h1, h2.trans h.2, h3.trans h.3⟩
  · have h := batchAs_timerTick t.holdTick t.events.timer delivered
    obtain ⟨h1, h2, h3⟩ := holdTick_batch hb h0
    exact ⟨h.1.trans h1, h.2.trans h2, h.3.trans h3⟩

/-! ### The condition that stays true (R122) -/

/-- The condition is true and ATTN is asserted. -/
def EventList.asserted (l : EventList) : Prop := l.attn = true ∧ l.condition = true

theorem EventList.asserted.take {l : EventList} (h : l.asserted) (key : EventKey) (v : EventValue) (now : Stamp) :
    (l.take key v now).asserted := ⟨(take_attn l key v now).trans h.1, condition_take h.2 key v now⟩

theorem asserted_offerNotices {t : State} (h : t.events.asserted) : t.offerNotices.events.asserted := by
  have h0 : ((t.queueNotice .a t.events.notice).queueNotice .b t.events.notice).events.asserted := by
    rw [queueNotice_events, queueNotice_events]
    exact h
  have drop : ∀ {u : State} (p : PortId), u.events.asserted → (u.noticeDropped p).events.asserted := fun p hu => by
    rw [noticeDropped_events]
    exact hu.take _ _ _
  unfold State.offerNotices
  simp only
  split
  · exact h0
  · exact drop .a h0
  · exact drop .b h0
  · split
    · exact drop .a (drop .b h0)
    · exact drop .b (drop .a h0)

theorem asserted_settleAttention {t : State} (h : t.events.condition = true) : t.settleAttention.events.asserted := by
  unfold State.settleAttention
  split
  · rename_i hc
    exact ⟨hc.symm.trans h, h⟩
  · exact asserted_offerNotices ⟨rfl, h⟩

theorem asserted_raise {t : State} (h : t.events.asserted) (key : EventKey) (v : EventValue) :
    (t.raise key v).events.asserted := by
  rw [raise_of_attending h.2 h.1]
  exact h.take _ _ _

theorem asserted_timerTick {t : State} (h : t.events.asserted) (running : Option Octet) (delivered : Bool) :
    (t.timerTick running delivered).events.asserted := by
  unfold State.timerTick
  split
  · exact h
  · split
    · exact h
    · split
      · exact h
      · exact asserted_offerNotices h

/-- A batch whose hold has run out makes the condition true (R119, R122). -/
theorem condition_of_lapsed {l : EventList} {p : PortId} (h : l.batch = some { port := p, hold := 0 }) :
    l.condition = true := by
  simp [EventList.condition, EventList.lapsed, h]

theorem asserted_holdTick {t : State} {b : Batch} (hb : t.events.batch = some b) (h1 : b.hold = 1) :
    t.holdTick.events.asserted := by
  have heq : t.holdTick =
      (t.setEvents { t.events with batch := some { port := b.port, hold := b.hold - 1 } }).settleAttention := by
    unfold State.holdTick
    rw [hb]
    exact if_neg (by rw [h1]; decide)
  rw [heq]
  exact asserted_settleAttention (condition_of_lapsed (p := b.port) (by rw [h1]; rfl))

theorem asserted_listTick {t : State} {b : Batch} (hb : t.events.batch = some b) (h1 : b.hold = 1)
    (timerFirst delivered : Bool) : (t.listTick timerFirst delivered).events.asserted := by
  unfold State.listTick
  split
  · exact asserted_holdTick ((batchAs_timerTick t t.events.timer delivered).1.trans hb) h1
  · exact asserted_timerTick (asserted_holdTick hb h1) _ _

theorem task_asserted (h : r.calm s false) (order : StartOrder) {x : StartTask} (hx : x ≠ .reset) (hl : x ≠ .listTick)
    (ha : r.state.events.asserted) : (r.task order x).state.events.asserted := by
  obtain ⟨q, t, ht⟩ := task_partOf h order hx
  rw [← ht.events_eq h] at ha
  rcases ht.ends with e | ⟨key, v, -, e⟩ | ⟨e, -⟩
  · rwa [e]
  · rw [e]
    exact asserted_raise ha key v
  · exact absurd e hl

/-- The hold of a batch over the tick of a start (R119). -/
theorem outputStart_holdTick (hn : s.noWork) (order : StartOrder) (htick : s.tickNext = true) {b : Batch}
    (hb : s.events.batch = some b) (h0 : b.hold ≠ 0) :
    (s.outputStart order).events.batch = some { b with hold := b.hold - 1 } ∧
      (s.outputStart order).events.batchNumber = s.events.batchNumber ∧
      (s.outputStart order).events.deliveredEntries = s.events.deliveredEntries ∧
      (b.hold = 1 → (s.outputStart order).events.asserted) := by
  obtain ⟨r, -, hr, heq⟩ := outputStart_through .listTick (fun q => s.events.batchAs q.state.events)
    (fun q => q.state.events.batch = some { b with hold := b.hold - 1 } ∧
      q.state.events.batchNumber = s.events.batchNumber ∧
      q.state.events.deliveredEntries = s.events.deliveredEntries ∧ (b.hold = 1 → q.state.events.asserted)) hn order
    ⟨rfl, rfl, rfl, rfl⟩
    (fun q hq y hy hne h => h.trans (task_batchAs hq order hy hne))
    (fun q hq hload h => by
      rw [task_listTick hq.warm, if_pos (hq.tick.trans htick)]
      obtain ⟨h1, h2, h3⟩ := listTick_batch (h.1.trans hb) h0 order.timerFirst q.delivered
      exact ⟨h1, h2.trans h.2, h3.trans h.3, fun hone => asserted_listTick (h.1.trans hb) hone _ _⟩)
    fun q hq y hy hne ⟨h1, h2, h3, h4⟩ => by
      have h := task_batchAs hq order hy hne
      exact ⟨h.1.trans h1, h.2.trans h2, h.3.trans h3, fun hone => task_asserted hq order hy hne (h4 hone)⟩
  exact heq ▸ hr

end

/-- Settles O37: the start split at the copy of the sync. -/
theorem syncCopiesHighwayByHighway : Obligations.SyncCopiesHighwayByHighway := by
  unfold Obligations.SyncCopiesHighwayByHighway
  intro order pos marks s he hn
  obtain ⟨hcopied, hrep⟩ := outputStart_copy hn (withEarly .copy order) he
  have ht := touches_outputStart hn (withEarly .copy order)
  obtain ⟨-, -, ha, heng⟩ := id hcopied
  refine ⟨fun hp => ⟨_, if_pos (by simp [he, Engine.position]), ?_, ha, activeEntry_of_copied hcopied, ht.sups (by simp),
    ht.straps (by simp)⟩, fun hp hroom => ⟨_, if_pos (by simp [he, Engine.position, hp]), ?_, hrep hp hroom, ha, ?_,
    ht.sups (by simp), ht.straps (by simp)⟩⟩
  · rw [heng, nextEngine, if_neg hp]
  · rw [heng, nextEngine, if_pos hp]
  · rw [← hp]
    exact activeEntry_of_copied hcopied

/-- Settles O38: the start split at the tick of the lease unit, and at that of the event list. -/
theorem tickLowersLeaseAndHold : Obligations.TickLowersLeaseAndHold := by
  unfold Obligations.TickLowersLeaseAndHold
  intro order s htick hn
  refine ⟨fun h hh h1 hroom => ?_, fun h hh h1 => ?_, fun b hb h1 => ?_, fun b hb h1 => ?_⟩
  · have hle : h.remaining.toNat ≤ 1 := by rw [h1]; decide
    obtain ⟨hlease, hrep⟩ := outputStart_leaseTick hn (withEarly .leaseTick order) htick hh
    have ht := touches_outputStart hn (withEarly .leaseTick order)
    refine ⟨_, if_pos (by simp [State.leaseRunsOut, htick, hh, hle]), ?_, hrep hle hroom, ht.sups (by simp),
      ht.straps (by simp), outputStart_activeBank hn _⟩
    rw [hlease, if_pos hle]
    rfl
  · obtain ⟨hlease, -⟩ := outputStart_leaseTick hn order htick hh
    refine ⟨_, rfl, ?_⟩
    rw [hlease, if_neg (by omega)]
  · obtain ⟨h2, h3, h4, h5⟩ := outputStart_holdTick hn (withEarly .listTick order) htick hb (by rw [h1]; decide)
    have ht := touches_outputStart hn (withEarly .listTick order)
    refine ⟨_, if_pos (by simp [State.holdRunsOut, htick, hb, h1]), ?_, (h5 h1).1, h3, h4, ht.sups (by simp),
      ht.straps (by simp), outputStart_activeBank hn _⟩
    rw [h2, h1]
    rfl
  · obtain ⟨h2, -⟩ := outputStart_holdTick hn order htick hb (fun h0 => by rw [h0] at h1; exact absurd h1 (by decide))
    exact ⟨_, rfl, h2⟩

end Sys2Proof.Machine
end

section
/-! SUPPORT. The management slots of an output frame start: the octets that a port gives, and its transmit queue after
them (R81, R141, R143). -/

namespace Sys2Proof.Machine

/-! ### Octets from the head of a transmit queue (R141) -/

theorem takeOctets_reserved (n : Nat) (r : Reservation) (rest : List Place) :
    takeOctets n (.reserved r :: rest) = (List.replicate n 0x00, .reserved r :: rest, none) := by
  induction n with
  | zero => rfl
  | succ n ih =>
    rw [takeOctets]
    simp only [takeOctet, ih, List.replicate_succ, Option.none_or]

theorem takeOctets_empty (n : Nat) : takeOctets n [] = (List.replicate n 0x00, [], none) := by
  induction n with
  | zero => rfl
  | succ n ih =>
    rw [takeOctets]
    simp only [takeOctet, ih, List.replicate_succ, Option.none_or]

/-- A message that is longer than what is taken stays at the head. -/
theorem takeOctets_of_longer {n : Nat} {m : List Octet} (h : n < m.length) (x : Option Scope) (rest : List Place) :
    (takeOctets n (.message m x :: rest)).1 = m.take n ∧
      (takeOctets n (.message m x :: rest)).2.1 = .message (m.drop n) x :: rest := by
  induction n generalizing m with
  | zero => exact ⟨rfl, rfl⟩
  | succ n ih =>
    match m, h with
    | o :: o' :: os, h =>
      obtain ⟨h1, h2⟩ := ih (m := o' :: os) (by simpa using h)
      rw [takeOctets]
      simp only [takeOctet, h1, h2]
      exact ⟨rfl, rfl⟩
    | [o], h => simp at h

/-- A message that is no longer leaves the queue, and what is behind it gives the octets that are left. -/
theorem takeOctets_of_shorter {n : Nat} {m : List Octet} (h0 : 0 < m.length) (h : m.length ≤ n) (x : Option Scope)
    (rest : List Place) :
    (takeOctets n (.message m x :: rest)).1 = m ++ (takeOctets (n - m.length) rest).1 ∧
      (takeOctets n (.message m x :: rest)).2.1 = (takeOctets (n - m.length) rest).2.1 := by
  induction n generalizing m with
  | zero => omega
  | succ n ih =>
    match m, h0, h with
    | [o], _, _ =>
      rw [takeOctets]
      simp [takeOctet]
    | o :: o' :: os, _, h =>
      obtain ⟨h1, h2⟩ := ih (m := o' :: os) (by simp) (by simpa using h)
      rw [takeOctets]
      simp only [takeOctet, h1, h2, List.length_cons, Nat.reduceSubDiff]
      exact ⟨rfl, trivial⟩

theorem takeOctets_length (n : Nat) (places : List Place) : (takeOctets n places).1.length = n := by
  induction n generalizing places with
  | zero => rfl
  | succ n ih => rw [takeOctets]; simp [ih]

theorem strapWidth_pos (t : Straps) : 0 < strapWidth t := by
  unfold strapWidth
  split <;> omega

section
variable {s : State} {r : StartRun}

/-! ### A port over a start -/

/-- The port before it has given its octets, and after: what it heard before them, the octets it gave into its slots, and
what it heard after them. -/
def State.drains (s : State) (p : PortId) (r : StartRun) : Prop :=
  (p ∉ r.taken ∧ (s.port p).hears (r.state.port p)) ∨
    p ∈ r.taken ∧ ∃ x, (s.port p).hears x ∧
      Port.hears { x with transmit := (takeOctets (strapWidth s.straps) x.transmit).2.1 } (r.state.port p) ∧
      (r.state.output (s.portPair p)).line =
        s.frameState.buildLine (s.portPair p) (takeOctets (strapWidth s.straps) x.transmit).1

theorem frameState_portSends (s : State) (p : PortId) : s.frameState.portSends p = s.portSends p := by
  simp [State.portSends, State.portEnabled, State.portPair]

/-- Two enabled ports are on two highways (R5). -/
theorem port_of_pair {p q : PortId} (hp : s.portEnabled p = true) (hq : s.portEnabled q = true)
    (h : s.portPair p = s.portPair q) : p = q := by
  have h1 := (portOn_eq_some_iff s.straps (s.portPair q) p).mpr ⟨hp, h⟩
  have h2 := (portOn_eq_some_iff s.straps (s.portPair q) q).mpr ⟨hq, rfl⟩
  exact Option.some.inj (h1.symm.trans h2)

theorem octetsFrom_of_sends {p : PortId} (h : s.portSends p = true) (places : List Place) :
    s.frameState.octetsFrom p places = takeOctets (strapWidth s.straps) places := by
  unfold State.octetsFrom
  rw [if_pos ((frameState_portSends s p).trans h), frameState_straps]

/-- A port that gives its octets drains, and the other is not concerned. -/
theorem drains_takeOctets (h : r.calm s false) {p : PortId} (hp : s.portSends p = true) (hr : s.drains p r)
    (p' : PortId) : s.drains p (r.takeOctets p') := by
  have hen : s.portEnabled p = true := (Bool.and_eq_true_iff.mp hp).1
  by_cases hp' : p' ∈ r.taken
  · rwa [takeOctets_of_taken hp']
  rw [takeOctets_eq_of_calm h hp']
  by_cases hpp : p' = p
  · subst hpp
    obtain ⟨-, hh⟩ := hr.resolve_right fun hx => hp' hx.1
    refine .inr ⟨List.mem_cons_self, r.state.port p', hh, ?_, ?_⟩
    · show Port.hears _ ((r.state.given s.frameState p').port p')
      rw [given_port, octetsFrom_of_sends hp]
      exact .refl _
    · show ((r.state.given s.frameState p').output (s.portPair p')).line = _
      rw [given_output, if_pos ⟨(frameState_portSends s p').trans hp, by simp [State.portPair]⟩, octetsFrom_of_sends hp]
  · have hmem : ∀ l : List PortId, p ∈ p' :: l ↔ p ∈ l := fun l => by simp [Ne.symm hpp]
    have hport : (r.state.given s.frameState p').port p = r.state.port p := given_port_other _ _ hpp
    have hout : (r.state.given s.frameState p').output (s.portPair p) = r.state.output (s.portPair p) := by
      rw [given_output, if_neg]
      rintro ⟨hs, hk⟩
      rw [frameState_portSends] at hs
      refine hpp (port_of_pair (Bool.and_eq_true_iff.mp hs).1 hen ?_)
      simpa [State.portPair] using hk
    unfold State.drains
    simp only [hmem, hport, hout]
    exact hr

theorem task_drains (h : r.calm s false) (order : StartOrder) {p : PortId} (hp : s.portSends p = true)
    (hno : s.swapsNext = false) {x : StartTask} (hx : x ≠ .reset) (hr : s.drains p r) : s.drains p (r.task order x) := by
  obtain ⟨q, t, ht⟩ := task_partOf h order hx
  have hq : s.drains p q := by
    rcases ht.gives with rfl | ⟨p', rfl⟩
    · exact hr
    · exact drains_takeOctets h hp hr p'
  have hh := ht.hears (.inr (h.swap_none hno)) p
  have hout : (r.task order x).state.output (s.portPair p) = q.state.output (s.portPair p) := by
    rw [State.output, State.output, ht.outputs_eq]
  unfold State.drains at hq ⊢
  rw [ht.taken, hout]
  rcases hq with ⟨h1, h2⟩ | ⟨h1, y, h2, h3, h4⟩
  · exact .inl ⟨h1, h2.trans hh⟩
  · exact .inr ⟨h1, y, h2, h3.trans hh, h4⟩

/-- A port over a whole start: NOTICEs at the tail, the octets of its slots from the head, NOTICEs at the tail. -/
theorem outputStart_drains (hn : s.noWork) (order : StartOrder) {p : PortId} (hp : s.portSends p = true)
    (hno : s.swapsNext = false) :
    ∃ x, (s.port p).hears x ∧
      Port.hears { x with transmit := (takeOctets (strapWidth s.straps) x.transmit).2.1 } ((s.outputStart order).port p) ∧
      ((s.outputStart order).output (s.portPair p)).line =
        s.frameState.buildLine (s.portPair p) (takeOctets (strapWidth s.straps) x.transmit).1 := by
  obtain ⟨r, -, ⟨hr, htaken⟩, heq⟩ := outputStart_through (.take p) (fun q => s.drains p q)
    (fun q => s.drains p q ∧ p ∈ q.taken) hn order (.inl ⟨by simp [State.beginStart], by cases p <;> exact .refl _⟩)
    (fun q hq y hy _ h => task_drains hq order hp hno hy h)
    (fun q hq _ h => ⟨task_drains hq order hp hno (by simp) h, by
      rw [task_take hq.warm]
      by_cases ht : p ∈ q.taken
      · rwa [takeOctets_of_taken ht]
      · rw [takeOctets_eq_of_calm hq ht]
        exact List.mem_cons_self⟩)
    fun q hq y hy _ ⟨h, ht⟩ => ⟨task_drains hq order hp hno hy h, by
      obtain ⟨q', t, hpart⟩ := task_partOf hq order hy
      rw [hpart.taken]
      rcases hpart.gives with rfl | ⟨p', rfl⟩
      · exact ht
      · by_cases hp' : p' ∈ q.taken
        · rwa [takeOctets_of_taken hp']
        · rw [takeOctets_eq_of_calm hq hp']
          exact List.mem_cons_of_mem _ ht⟩
  exact heq ▸ (hr.resolve_left fun h => h.1 htaken).2

/-- The management slots of a frame hold the octets placed in them, where the map has MGMT entries (R81). -/
theorem buildLine_mgmt {k : Highway} {mgmt : List Octet} (hno : s.swapsNext = false)
    (hmap : ∀ n : Slot, mgmtSlot s.straps n = true → (s.bank s.activeBank)[k][n].isMgmt = true)
    (hlen : mgmt.length = strapWidth s.straps) :
    (s.frameState.buildLine k mgmt).toList.drop (67 - strapWidth s.straps) = mgmt := by
  have hw := strapWidth_le s.straps
  refine List.ext_getElem (by simp; omega) fun i h1 h2 => ?_
  have hi : i < strapWidth s.straps := hlen ▸ h2
  have hslot := buildLine_slot s.frameState k mgmt ⟨64 - strapWidth s.straps + i, by omega⟩
  have hindex : 67 - strapWidth s.straps + i = 3 + (64 - strapWidth s.straps + i) := by omega
  simp only [List.getElem_drop, Vector.getElem_toList, hindex]
  rw [hslot]
  have hm : mgmtSlot s.straps ⟨64 - strapWidth s.straps + i, by omega⟩ = true := by simp [mgmtSlot]
  have hact : s.nextActive = s.activeBank := by simp [State.nextActive, hno]
  have he : s.frameState.activeEntry k ⟨64 - strapWidth s.straps + i, by omega⟩ =
      (s.bank s.activeBank)[k][(⟨64 - strapWidth s.straps + i, by omega⟩ : Slot)] := by
    have := activeEntry_frameState s s.nextActive k ⟨64 - strapWidth s.straps + i, by omega⟩
    rwa [frameState_setActiveBank, hact] at this
  have hmgmt := hmap _ hm
  rw [← he] at hmgmt
  unfold State.slotOctet
  simp only [frameState_straps, hm, if_true]
  unfold Entry.isMgmt at hmgmt
  cases hc : (s.frameState.activeEntry k ⟨64 - strapWidth s.straps + i, by omega⟩).content with
  | mgmt d => simp [h2]
  | idle d => simp [hc] at hmgmt
  | constant v d => simp [hc] at hmgmt
  | slot a b d => simp [hc] at hmgmt

end

/-- Settles O35: the port over a start, with the octets of a message, of a place still reserved, of an empty queue, and of
a NOTICE that came before them. -/
theorem managementSlotsDrainTheHead : Obligations.ManagementSlotsDrainTheHead := by
  unfold Obligations.ManagementSlotsDrainTheHead
  intro order p w s hen hout hn hno hw hmap
  subst hw
  have hwpos := strapWidth_pos s.straps
  have hw4 := strapWidth_le s.straps
  have hsend : s.portSends p = true := by simp [State.portSends, hen, hout]
  obtain ⟨x, hx, hafter, hline⟩ := outputStart_drains hn order hsend hno
  obtain ⟨heard, c1, rfl, hnotice, -⟩ := hx
  obtain ⟨more, c2, hend, hmore, -⟩ := hafter
  have hoct : ((s.outputStart order).output (s.portPair p)).line.toList.drop (67 - strapWidth s.straps) =
      (takeOctets (strapWidth s.straps) ((s.port p).transmit ++ heard)).1 := by
    rw [hline]
    exact buildLine_mgmt hno hmap (takeOctets_length _ _)
  have htx : ((s.outputStart order).port p).transmit =
      (takeOctets (strapWidth s.straps) ((s.port p).transmit ++ heard)).2.1 ++ more := by rw [hend]
  refine ⟨_, _, rfl, rfl, fun m y rest h hle => ?_, fun m y m' y' rest h h0 hlt hlt' => ?_,
    fun m y res rest h h0 hlt => ?_, fun res rest h => ?_, fun m h hlt => ?_⟩
  · rw [hoct, htx, h, List.cons_append]
    rcases Nat.lt_or_eq_of_le hle with hlt | heq
    · obtain ⟨h1, h2⟩ := takeOctets_of_longer hlt y (rest ++ heard)
      rw [h1, h2]
      exact ⟨rfl, fun _ => ⟨heard ++ more, by simp⟩, fun he => absurd he hlt.ne⟩
    · obtain ⟨h1, h2⟩ := takeOctets_of_shorter (n := strapWidth s.straps) (m := m) (by omega) heq.ge y (rest ++ heard)
      rw [h1, h2, heq, Nat.sub_self]
      exact ⟨by simp [takeOctets], fun hlt => absurd hlt (lt_irrefl _), fun _ => ⟨heard ++ more, by simp [takeOctets]⟩⟩
  · rw [hoct, htx, h, List.cons_append, List.cons_append]
    obtain ⟨h1, h2⟩ := takeOctets_of_shorter h0 hlt.le y (.message m' y' :: (rest ++ heard))
    obtain ⟨h3, h4⟩ := takeOctets_of_longer (n := strapWidth s.straps - m.length) (m := m') (by omega) y' (rest ++ heard)
    rw [h1, h2, h3, h4]
    exact ⟨rfl, heard ++ more, by simp⟩
  · rw [hoct, htx, h, List.cons_append, List.cons_append]
    obtain ⟨h1, h2⟩ := takeOctets_of_shorter h0 hlt.le y (.reserved res :: (rest ++ heard))
    rw [h1, h2, takeOctets_reserved]
    exact ⟨rfl, heard ++ more, by simp⟩
  · rw [hoct, htx, h, List.cons_append, takeOctets_reserved]
    exact ⟨rfl, heard ++ more, by simp⟩
  · have hbehind : (takeOctets (strapWidth s.straps) ((s.port p).transmit ++ heard)).1 =
          m ++ (takeOctets (strapWidth s.straps - m.length) heard).1 ∧
        (takeOctets (strapWidth s.straps) ((s.port p).transmit ++ heard)).2.1 =
          (takeOctets (strapWidth s.straps - m.length) heard).2.1 := by
      rcases h with ⟨h, rfl⟩ | ⟨y, h, h0⟩
      · simp [h]
      · rw [h]
        exact takeOctets_of_shorter h0 hlt.le y heard
    rw [hoct, htx, hbehind.1, hbehind.2]
    cases heard with
    | nil =>
      refine .inl ⟨by rw [takeOctets_empty], fun x hx => ?_⟩
      rw [takeOctets_empty] at hx
      obtain ⟨notice, rfl, hn4, -⟩ := hmore x hx
      exact ⟨notice, rfl, hn4⟩
    | cons z zs =>
      obtain ⟨notice, rfl, hn4, hlen⟩ := hnotice z List.mem_cons_self
      obtain ⟨h1, h2⟩ := takeOctets_of_longer (n := strapWidth s.straps - m.length) (m := notice) (by omega) none zs
      exact .inr ⟨notice, zs ++ more, by rw [h1], hn4, by rw [h2, List.cons_append]⟩

end Sys2Proof.Machine
end

section
/-! SUPPORT. The expiry of the notice timer at an output frame start (R123 to R125). -/

namespace Sys2Proof.Machine

/-! ### The expiry at the list -/

section
variable {t : State}

theorem condition_congr {l m : EventList} (he : m.entries = l.entries) (hm : m.mask = l.mask) (hl : m.lapsed = l.lapsed) :
    m.condition = l.condition := by
  simp only [EventList.condition, EventList.waiting, EventList.unmasked, he, hm, hl]

/-- A hold that is lowered leaves a true condition true, and so the ports hear nothing of it (R119, R122). -/
theorem holdTick_of_asserted (h : t.events.asserted) :
    ∃ b, t.holdTick = t.setEvents { t.events with batch := b } ∧ t.holdTick.events.asserted := by
  unfold State.holdTick
  split
  · exact ⟨t.events.batch, rfl, h⟩
  · rename_i b hb
    split
    · exact ⟨t.events.batch, rfl, h⟩
    · rename_i h0
      have hc : EventList.condition { t.events with batch := some { port := b.port, hold := b.hold - 1 } } = true := by
        have hw := h.2
        rw [condition_iff] at hw ⊢
        refine .inl (hw.resolve_right fun hl => h0 ?_)
        simpa [EventList.lapsed, hb] using hl
      have hset : (t.setEvents { t.events with batch := some { port := b.port, hold := b.hold - 1 } }).settleAttention =
          t.setEvents { t.events with batch := some { port := b.port, hold := b.hold - 1 } } :=
        settleAttention_of_settled (h.1.trans hc.symm)
      rw [hset]
      exact ⟨_, rfl, h.1, hc⟩

/-- A NOTICE that finds no place is reported, where the list has room (R125). -/
theorem offerNotices_reports {p : PortId} (hp : t.portEnabled p = true) (hx : (t.port p).hasPlace = false)
    (hroom : t.events.ordinaryCount < 62) : t.offerNotices.events.reports (.mgmtError p) .noticeDrop := by
  have hdrops : t.dropsNotice p = true := by simp [State.dropsNotice, hp, hx]
  have hev : ((t.queueNotice .a t.events.notice).queueNotice .b t.events.notice).events = t.events := by
    rw [queueNotice_events, queueNotice_events]
  have one : ∀ {u : State} (q : PortId), u.events.ordinaryCount < 63 →
      (u.noticeDropped q).events.reports (.mgmtError q) .noticeDrop := fun q hu => by
    rw [noticeDropped_events]
    exact take_reports (.inr hu) _ _
  have two : ∀ {u : State} {q q' : PortId}, q ≠ q' → u.events.ordinaryCount < 62 →
      (((u.noticeDropped q).noticeDropped q').events.reports (.mgmtError q) .noticeDrop ∧
        ((u.noticeDropped q).noticeDropped q').events.reports (.mgmtError q') .noticeDrop) := fun {u q q'} hne hu => by
    have hcount := take_ordinaryCount_le u.events (.mgmtError q) .noticeDrop u.timing.stamp
    refine ⟨?_, one q' ?_⟩
    · rw [noticeDropped_events (u.noticeDropped q)]
      exact take_reports_other (by simpa using hne) (one q (by omega)) _
    · rw [noticeDropped_events]
      omega
  unfold State.offerNotices
  simp only
  have hu : t.useDraw.events = t.events := rfl
  cases p with
  | a =>
    rw [hdrops]
    split
    · simp_all
    · exact one .a (by rw [hev]; omega)
    · simp_all
    · split
      · exact (two (by simp) (by rw [useDraw_events, hev]; exact hroom)).2
      · exact (two (by simp) (by rw [useDraw_events, hev]; exact hroom)).1
  | b =>
    rw [hdrops]
    split
    · simp_all
    · simp_all
    · exact one .b (by rw [hev]; omega)
    · split
      · exact (two (by simp) (by rw [useDraw_events, hev]; exact hroom)).1
      · exact (two (by simp) (by rw [useDraw_events, hev]; exact hroom)).2

/-- The timer has expired from `t` to `u`: it runs again from the interval, and one NOTICE is offered to each port. -/
def State.expires (t u : State) : Prop :=
  u.events.asserted ∧ u.events.timer = startedTimer t.events.interval ∧ u.events.interval = t.events.interval ∧
    ∃ l : EventList, ∀ p, u.port p = (t.port p).offered (t.portEnabled p) l.notice ∧
      (t.portEnabled p = true → (t.port p).hasPlace = false → t.events.ordinaryCount < 62 →
        u.events.reports (.mgmtError p) .noticeDrop)

theorem timerExpiry_expires (h : t.events.asserted) : t.expires t.timerExpiry := by
  have hh := offerNotices_hears (t.setEvents { t.events with timer := startedTimer t.events.interval })
  have htimer := congrArg EventList.timer hh.same
  have hinterval := congrArg EventList.interval hh.same
  refine ⟨asserted_offerNotices (t := t.setEvents _) h, htimer, hinterval, { t.events with timer := startedTimer t.events.interval }, fun p =>
    ⟨(offerNotices_port _ p).trans (by rw [setEvents_port, setEvents_portEnabled, setEvents_events]),
      fun hen hp hroom => ?_⟩⟩
  exact offerNotices_reports (t := t.setEvents { t.events with timer := startedTimer t.events.interval })
    (by simpa using hen) (by simpa using hp) hroom

/-- The tick at which the timer expires, while the condition is true. -/
theorem listTick_expires (h : t.events.asserted) (ht : t.events.timer = some 1) (timerFirst : Bool) :
    t.expires (t.listTick timerFirst false) := by
  have hexpire : ∀ u : State, u.timerTick (some 1) false = u.timerExpiry := fun u => by
    unfold State.timerTick
    simp only
    rw [if_neg (by decide), if_neg (by decide)]
  unfold State.listTick
  rw [ht]
  cases timerFirst with
  | true =>
    simp only [if_true, hexpire]
    obtain ⟨ho, h1, h2, l, h3⟩ := timerExpiry_expires h
    obtain ⟨b, heq, hb⟩ := holdTick_of_asserted ho
    refine ⟨hb, by rw [heq]; exact h1, by rw [heq]; exact h2, l, fun p => ⟨?_, fun hen hp hroom => ?_⟩⟩
    · rw [heq, setEvents_port]
      exact (h3 p).1
    · rw [heq]
      exact (h3 p).2 hen hp hroom
  | false =>
    simp only [Bool.false_eq_true, if_false, hexpire]
    obtain ⟨b, heq, hb⟩ := holdTick_of_asserted h
    obtain ⟨ho, h1, h2, l, h3⟩ := timerExpiry_expires hb
    have hev : t.holdTick.events.interval = t.events.interval ∧
        t.holdTick.events.ordinaryCount = t.events.ordinaryCount := by rw [heq]; exact ⟨rfl, rfl⟩
    have hports : ∀ p, t.holdTick.port p = t.port p ∧ t.holdTick.portEnabled p = t.portEnabled p := fun p => by
      rw [heq, setEvents_port, setEvents_portEnabled]
      exact ⟨rfl, rfl⟩
    refine ⟨ho, by rw [h1, hev.1], by rw [h2, hev.1], l, fun p => ?_⟩
    have hp := h3 p
    rwa [(hports p).1, (hports p).2, hev.2] at hp

end

end Sys2Proof.Machine
end

section
/-! SUPPORT. The one NOTICE that the expiry of the notice timer offers at a start, before the octets of the port or behind
them (R123 to R125, R143). -/

namespace Sys2Proof.Machine

/-! ### The last place of a transmit queue (R141) -/

/-- What waits at the tail is taken last: of a message longer than the octets taken, the rest stays there. -/
theorem takeOctets_last {n : Nat} {notice : List Octet} (hn : n < notice.length) (x : Option Scope)
    (places : List Place) :
    ∃ sent ≤ n, ∃ front, (takeOctets n (places ++ [.message notice x])).2.1 = front ++ [.message (notice.drop sent) x] := by
  induction n generalizing places with
  | zero => exact ⟨0, le_rfl, places, rfl⟩
  | succ n ih =>
    have go : ∀ rest : List Place, (takeOctet (places ++ [.message notice x])).2.1 = rest ++ [.message notice x] →
        ∃ sent ≤ n + 1, ∃ front,
          (takeOctets (n + 1) (places ++ [.message notice x])).2.1 = front ++ [.message (notice.drop sent) x] :=
      fun rest hr => by
        obtain ⟨sent, hs, front, hf⟩ := ih (by omega) rest
        exact ⟨sent, by omega, front, by rw [takeOctets]; simp only [hr, hf]⟩
    match places with
    | [] => exact ⟨n + 1, le_rfl, [], (takeOctets_of_longer hn x []).2⟩
    | .reserved r :: rest => exact go (.reserved r :: rest) rfl
    | .message [] y :: rest => exact go (.message [] y :: rest) rfl
    | .message [o] y :: rest => exact go rest rfl
    | .message (o :: o' :: os) y :: rest => exact go (.message (o' :: os) y :: rest) rfl

/-- Octets taken make no place. -/
theorem takeOctets_places_le (n : Nat) (places : List Place) : (takeOctets n places).2.1.length ≤ places.length := by
  induction n generalizing places with
  | zero => exact le_rfl
  | succ n ih =>
    refine (ih (takeOctet places).2.1).trans ?_
    unfold takeOctet
    split <;> simp

section
variable {s : State} {r : StartRun}

/-- Port `x` after it has given its octets at the start of state `s`. -/
def Port.drained (s : State) (p : PortId) (x : Port) : Port :=
  { x with transmit := (s.frameState.octetsFrom p x.transmit).2.1 }

/-- A head that is longer than the slots, or a place still reserved, keeps its place, and nothing behind it moves. -/
theorem drained_of_long_head {p : PortId} {x : Port} (hne : x.transmit ≠ [])
    (hlong : ∀ m y rest, x.transmit = .message m y :: rest → 4 < m.length) :
    ∃ head rest, ∀ more, (s.frameState.octetsFrom p (x.transmit ++ more)).2.1 = head :: (rest ++ more) ∧
      x.transmit.length = rest.length + 1 := by
  cases h : x.transmit with
  | nil => exact absurd h hne
  | cons head rest =>
    unfold State.octetsFrom
    split
    · cases head with
      | reserved res => exact ⟨.reserved res, rest, fun more => ⟨by rw [List.cons_append, takeOctets_reserved], by simp⟩⟩
      | message m y =>
        have hw := strapWidth_le s.frameState.straps
        exact ⟨_, rest, fun more => ⟨(takeOctets_of_longer (hw.trans_lt (hlong m y rest h)) y _).2, by simp⟩⟩
    · exact ⟨head, rest, fun more => ⟨rfl, by simp⟩⟩

/-- The start on its way once the timer has expired: one NOTICE has been offered to port `p`, before its octets or behind
them, and a drop has been reported. -/
def State.offeredTo (s : State) (p : PortId) (r : StartRun) : Prop :=
  ∃ l : EventList,
    (p ∉ r.taken ∧ r.state.port p = (s.port p).offered true l.notice ∨
      p ∈ r.taken ∧ r.state.port p = Port.drained s p ((s.port p).offered true l.notice)) ∧
      ((s.port p).hasPlace = false → r.state.events.reports (.mgmtError p) .noticeDrop) ∨
    (p ∈ r.taken ∧ r.state.port p = ((s.port p).drained s p).offered true l.notice) ∧
      (((s.port p).drained s p).hasPlace = false → r.state.events.reports (.mgmtError p) .noticeDrop)

/-- Before the timer expires port `p` is as the start found it, but for the octets it gives. -/
def State.untold (s : State) (p : PortId) (r : StartRun) : Prop :=
  p ∉ r.taken ∧ r.state.port p = s.port p ∨ p ∈ r.taken ∧ r.state.port p = (s.port p).drained s p

theorem takeOctets_port (h : r.calm s false) (p p' : PortId) :
    (r.takeOctets p').state.port p =
      if p' = p ∧ p ∉ r.taken then (r.state.port p).drained s p else r.state.port p := by
  by_cases hp : p' ∈ r.taken
  · rw [takeOctets_of_taken hp, if_neg]
    rintro ⟨rfl, hn⟩
    exact hn hp
  · have hs : (r.takeOctets p').state = r.state.given s.frameState p' := by rw [takeOctets_eq_of_calm h hp]
    rw [hs]
    by_cases hpp : p' = p
    · subst hpp
      rw [if_pos ⟨rfl, hp⟩]
      exact given_port _ _ _
    · rw [if_neg fun hc => hpp hc.1]
      exact given_port_other _ _ hpp

theorem mem_takeOctets_taken (h : r.calm s false) (p p' : PortId) :
    p ∈ (r.takeOctets p').taken ↔ p' = p ∨ p ∈ r.taken := by
  by_cases hp : p' ∈ r.taken
  · rw [takeOctets_of_taken hp]
    exact ⟨.inr, fun hc => hc.elim (fun e => e ▸ hp) id⟩
  · rw [takeOctets_eq_of_calm h hp]
    simp [eq_comm]

/-- A part that raises an event while the condition is true does nothing else with the ports but for their octets. -/
theorem task_told (h : r.calm s false) (hno : s.swapsNext = false) (order : StartOrder) {x : StartTask} (hx : x ≠ .reset)
    (hl : x ≠ .listTick) (ha : r.state.events.asserted) (p : PortId) :
    (∃ q, (q = r ∨ ∃ p', q = r.takeOctets p') ∧ (r.task order x).taken = q.taken ∧
      (r.task order x).state.port p = q.state.port p) ∧
    (r.state.events.reports (.mgmtError p) .noticeDrop →
      (r.task order x).state.events.reports (.mgmtError p) .noticeDrop) ∧
    (r.task order x).state.events.timer = r.state.events.timer := by
  obtain ⟨q, t, ht⟩ := task_partOf h order hx
  have hev := ht.events_eq h
  have hports := ht.ports (.inr (h.swap_none hno)) p
  rw [← hev] at ha ⊢
  rcases ht.ends with e | ⟨key, v, hk, e⟩ | ⟨e, -⟩
  · rw [e]
    exact ⟨⟨q, ht.gives, ht.taken, hports⟩, id, rfl⟩
  · rw [e, raise_of_attending ha.2 ha.1]
    refine ⟨⟨q, ht.gives, ht.taken, hports⟩, fun hr => take_reports_other ?_ hr _, ?_⟩
    · rintro rfl
      cases x <;> simp [startRaises] at hk
    · have htimer := congrArg EventList.timer (take_hears t.events key v t.timing.stamp).same
      exact htimer
  · exact absurd e hl

theorem task_untold (h : r.calm s false) (hno : s.swapsNext = false) (order : StartOrder) {x : StartTask} (hx : x ≠ .reset)
    (hl : x ≠ .listTick) (ha : r.state.events.asserted) {p : PortId} (hu : s.untold p r) :
    s.untold p (r.task order x) := by
  obtain ⟨⟨q, hq, htaken, hport⟩, -⟩ := task_told h hno order hx hl ha p
  unfold State.untold
  rw [htaken, hport]
  rcases hq with rfl | ⟨p', rfl⟩
  · exact hu
  · rw [takeOctets_port h, mem_takeOctets_taken h]
    by_cases hpp : p' = p
    · rcases hu with ⟨h1, h2⟩ | ⟨h1, h2⟩
      · exact .inr ⟨.inl hpp, by rw [if_pos ⟨hpp, h1⟩, h2]⟩
      · exact .inr ⟨.inl hpp, by rw [if_neg fun hc => hc.2 h1, h2]⟩
    · rw [if_neg fun hc => hpp hc.1, or_iff_right hpp]
      exact hu

theorem task_offeredTo (h : r.calm s false) (hno : s.swapsNext = false) (order : StartOrder) {x : StartTask}
    (hx : x ≠ .reset) (hl : x ≠ .listTick) (ha : r.state.events.asserted) {p : PortId} (hu : s.offeredTo p r) :
    s.offeredTo p (r.task order x) := by
  obtain ⟨⟨q, hq, htaken, hport⟩, hrep, -⟩ := task_told h hno order hx hl ha p
  obtain ⟨l, hu⟩ := hu
  unfold State.offeredTo
  rw [htaken, hport]
  rcases hq with rfl | ⟨p', rfl⟩
  · exact ⟨l, hu.imp (And.imp_right fun hd he => hrep (hd he)) (And.imp_right fun hd he => hrep (hd he))⟩
  · rw [takeOctets_port h, mem_takeOctets_taken h]
    by_cases hpp : p' = p
    · refine ⟨l, ?_⟩
      rcases hu with ⟨⟨h1, h2⟩ | ⟨h1, h2⟩, hd⟩ | ⟨⟨h1, h2⟩, hd⟩
      · exact .inl ⟨.inr ⟨.inl hpp, by rw [if_pos ⟨hpp, h1⟩, h2]⟩, fun he => hrep (hd he)⟩
      · exact .inl ⟨.inr ⟨.inl hpp, by rw [if_neg fun hc => hc.2 h1, h2]⟩, fun he => hrep (hd he)⟩
      · exact .inr ⟨⟨.inl hpp, by rw [if_neg fun hc => hc.2 h1, h2]⟩, fun he => hrep (hd he)⟩
    · rw [if_neg fun hc => hpp hc.1, or_iff_right hpp]
      exact ⟨l, hu.imp (And.imp_right fun hd he => hrep (hd he)) (And.imp_right fun hd he => hrep (hd he))⟩

/-- What the offer leaves of a transmit queue that was empty. -/
theorem offeredTo_of_empty {p : PortId} (h : s.offeredTo p r) (he : (s.port p).transmit = []) :
    ∃ (notice : List Octet) (sent : Nat), sent ≤ 4 ∧ notice.take 4 = [0xB4, 0x08, 0x00, 0xC0] ∧
      (r.state.port p).transmit = [.message (notice.drop sent) none] := by
  have hplace : (s.port p).hasPlace = true := by simp [Port.hasPlace, he, Config.transmitPlaces]
  have hdrained : (s.port p).drained s p = s.port p := by
    simp only [Port.drained, he, octetsFrom_nil]
    rw [← he]
  obtain ⟨l, h⟩ := h
  rw [hdrained, offered_of_place hplace] at h
  rcases h with ⟨⟨-, h⟩ | ⟨-, h⟩, -⟩ | ⟨⟨-, h⟩, -⟩
  · exact ⟨l.notice, 0, by omega, rfl, by rw [h, he]; rfl⟩
  · refine ⟨l.notice, ?_⟩
    rw [h]
    simp only [Port.drained, he, List.nil_append]
    unfold State.octetsFrom
    split
    · have hw := strapWidth_le s.frameState.straps
      exact ⟨_, hw, rfl, (takeOctets_of_longer (m := l.notice) (hw.trans_lt (of_decide_eq_true rfl)) none []).2⟩
    · exact ⟨0, by omega, rfl, rfl⟩
  · exact ⟨l.notice, 0, by omega, rfl, by rw [h, he]; rfl⟩

/-- What the offer leaves of a transmit queue whose head does not leave at this start. -/
theorem offeredTo_of_long_head {p : PortId} (h : s.offeredTo p r) (hne : (s.port p).transmit ≠ [])
    (hlong : ∀ m y rest, (s.port p).transmit = .message m y :: rest → 4 < m.length) :
    ((s.port p).transmit.length < 6 → ∃ notice, (r.state.port p).transmit.getLast? = some (.message notice none) ∧
      notice.take 4 = [0xB4, 0x08, 0x00, 0xC0] ∧ (r.state.port p).transmit.length = (s.port p).transmit.length + 1 ∧
      (r.state.port p).counters = (s.port p).counters) ∧
    (6 ≤ (s.port p).transmit.length →
      (r.state.port p).counters.dropped = saturate (s.port p).counters.dropped ∧
      r.state.events.reports (.mgmtError p) .noticeDrop) := by
  obtain ⟨head, rest, hkeep⟩ := drained_of_long_head (s := s) (p := p) hne hlong
  have hlen : ((s.port p).drained s p).transmit.length = (s.port p).transmit.length := by
    obtain ⟨h1, h2⟩ := hkeep []
    rw [List.append_nil] at h1
    simp only [Port.drained, h1, h2, List.append_nil, List.length_cons]
  have hplace : ((s.port p).drained s p).hasPlace = (s.port p).hasPlace := by simp only [Port.hasPlace, hlen]
  obtain ⟨l, h⟩ := h
  rw [hplace] at h
  refine ⟨fun hlt => ?_, fun hge => ?_⟩
  · have hp : (s.port p).hasPlace = true := decide_eq_true hlt
    rw [offered_of_place hp, offered_of_place (hplace.trans hp)] at h
    refine ⟨l.notice, ?_⟩
    rcases h with ⟨⟨-, h⟩ | ⟨-, h⟩, -⟩ | ⟨⟨-, h⟩, -⟩
    · rw [h]
      simp
      rfl
    · obtain ⟨h1, h2⟩ := hkeep [.message l.notice none]
      rw [h]
      simp only [Port.drained, h1, h2]
      refine ⟨?_, rfl, by simp, trivial⟩
      rw [← List.cons_append, List.getLast?_concat]
    · rw [h]
      simp only [List.getLast?_concat, List.length_append, hlen]
      exact ⟨trivial, rfl, rfl, rfl⟩
  · have hp : (s.port p).hasPlace = false := decide_eq_false (by simpa [Config.transmitPlaces] using hge)
    have hdrop : ∀ {x : Port}, x.hasPlace = false → x.offered true l.notice = x.dropping := fun hx => by
      simp [Port.offered, hx]
    rw [hdrop hp, hdrop (hplace.trans hp)] at h
    rcases h with ⟨⟨-, h⟩ | ⟨-, h⟩, hd⟩ | ⟨⟨-, h⟩, hd⟩ <;> exact ⟨by rw [h]; rfl, hd hp⟩

/-- What the offer leaves of any transmit queue. -/
theorem offeredTo_of_any {p : PortId} (h : s.offeredTo p r) :
    (∃ (notice : List Octet) (sent : Nat), sent ≤ 4 ∧ notice.take 4 = [0xB4, 0x08, 0x00, 0xC0] ∧
      (r.state.port p).transmit.getLast? = some (.message (notice.drop sent) none) ∧
      (r.state.port p).counters = (s.port p).counters) ∨
    (6 ≤ (s.port p).transmit.length ∧ (r.state.port p).counters.dropped = saturate (s.port p).counters.dropped ∧
      r.state.events.reports (.mgmtError p) .noticeDrop) := by
  obtain ⟨l, h⟩ := h
  have hdrop : ∀ {x : Port}, x.hasPlace = false → x.offered true l.notice = x.dropping := fun hx => by
    simp [Port.offered, hx]
  have hfull : ∀ {x : Port}, x.hasPlace = false → 6 ≤ x.transmit.length := fun hx =>
    Nat.le_of_not_lt (of_decide_eq_false hx)
  rcases h with ⟨h, hd⟩ | ⟨⟨-, h⟩, hd⟩
  · cases hp : (s.port p).hasPlace with
    | true =>
      rw [offered_of_place hp] at h
      refine .inl ⟨l.notice, ?_⟩
      rcases h with ⟨-, h⟩ | ⟨-, h⟩ <;> rw [h]
      · exact ⟨0, by omega, rfl, by simp, rfl⟩
      · simp only [Port.drained]
        unfold State.octetsFrom
        split
        · have hw := strapWidth_le s.frameState.straps
          obtain ⟨sent, hs, front, hf⟩ := takeOctets_last (notice := l.notice) (hw.trans_lt (of_decide_eq_true rfl)) none
            (s.port p).transmit
          exact ⟨sent, hs.trans hw, rfl, by rw [hf, List.getLast?_concat], trivial⟩
        · exact ⟨0, by omega, rfl, by simp, trivial⟩
    | false =>
      rw [hdrop hp] at h
      rcases h with ⟨-, h⟩ | ⟨-, h⟩ <;> exact .inr ⟨hfull hp, by rw [h]; rfl, hd hp⟩
  · cases hp : ((s.port p).drained s p).hasPlace with
    | true =>
      rw [offered_of_place hp] at h
      exact .inl ⟨l.notice, 0, by omega, rfl, by rw [h]; simp, by rw [h]; rfl⟩
    | false =>
      rw [hdrop hp] at h
      refine .inr ⟨(hfull hp).trans ?_, by rw [h]; rfl, hd hp⟩
      simp only [Port.drained]
      unfold State.octetsFrom
      split
      · exact takeOctets_places_le _ _
      · exact le_rfl

/-- The timer after its expiry at a start, with the condition still true (R124). -/
theorem outputStart_timer (hn : s.noWork) (order : StartOrder) (hno : s.swapsNext = false) (htick : s.tickNext = true)
    (ha : s.events.asserted) (ht : s.events.timer = some 1) :
    (s.outputStart order).events.asserted ∧ (s.outputStart order).events.timer = startedTimer s.events.interval := by
  obtain ⟨r, -, hr, heq⟩ := outputStart_through .listTick
    (fun q => q.state.events.asserted ∧ q.state.events.timer = some 1 ∧ s.events.batchAs q.state.events)
    (fun q => q.state.events.asserted ∧ q.state.events.timer = startedTimer s.events.interval) hn order
    ⟨ha, ht, rfl, rfl, rfl, rfl⟩
    (fun q hq y hy hne ⟨ha, ht, hb⟩ => ⟨task_asserted hq order hy hne ha,
      (task_told hq hno order hy hne ha .a).2.2.trans ht, hb.trans (task_batchAs hq order hy hne)⟩)
    (fun q hq _ ⟨ha, ht, hb⟩ => by
      have hone := hq.delivered
      rw [task_listTick hq.warm, if_pos (hq.tick.trans htick), hone]
      obtain ⟨h1, h2, -⟩ := listTick_expires ha ht order.timerFirst
      exact ⟨h1, by rw [← hb.interval]; exact h2⟩)
    fun q hq y hy hne ⟨ha, ht⟩ => ⟨task_asserted hq order hy hne ha, (task_told hq hno order hy hne ha .a).2.2.trans ht⟩
  exact heq ▸ hr

/-- One NOTICE at each enabled port, the timer restarted, and the condition still true at the end (R123 to R125). -/
theorem outputStart_expires (hn : s.noWork) (order : StartOrder) (hno : s.swapsNext = false) (htick : s.tickNext = true)
    (hroom : s.events.roomy) (ha : s.events.asserted) (ht : s.events.timer = some 1) {p : PortId}
    (hp : s.portEnabled p = true) :
    ∃ r : StartRun, s.outputStart order = r.state ∧ s.offeredTo p r := by
  obtain ⟨r, -, ⟨-, hr⟩, heq⟩ := outputStart_through .listTick
    (fun q => (q.state.events.asserted ∧ q.state.events.timer = some 1) ∧ q.state.straps = s.straps ∧ s.untold p q)
    (fun q => q.state.events.asserted ∧ s.offeredTo p q) hn order
    ⟨⟨ha, ht⟩, rfl, .inl ⟨by simp [State.beginStart], by cases p <;> rfl⟩⟩
    (fun q hq y hy hne ⟨⟨ha, ht⟩, hst, hu⟩ => ⟨⟨task_asserted hq order hy hne ha,
      (task_told hq hno order hy hne ha p).2.2.trans ht⟩,
      ((task_leaves hq order hy).1.straps (by cases y <;> simp [startBlocks])).trans hst, task_untold hq hno order hy hne ha hu⟩)
    (fun q hq hload ⟨⟨ha, ht⟩, hst, hu⟩ => by
      have hone := hq.delivered
      rw [task_listTick hq.warm, if_pos (hq.tick.trans htick), hone]
      obtain ⟨hasserted, -, -, l, hall⟩ := listTick_expires ha ht order.timerFirst
      obtain ⟨hport, hdrop⟩ := hall p
      have hen : q.state.portEnabled p = true := by rwa [State.portEnabled, hst]
      have hcount : q.state.events.ordinaryCount < 62 := by
        have h1 := ordinaryCount_le_load q.state.events
        have h2 : s.events.ordinaryCount ≤ 32 := hroom
        have h3 : q.state.events.load + 0 ≤ s.events.ordinaryCount + 14 := hload
        omega
      rw [hen] at hport
      refine ⟨hasserted, l, ?_⟩
      rcases hu with ⟨h1, h2⟩ | ⟨h1, h2⟩
      · rw [h2] at hport hdrop
        exact .inl ⟨.inl ⟨h1, hport⟩, fun hf => hdrop hen hf hcount⟩
      · rw [h2] at hport hdrop
        exact .inr ⟨⟨h1, hport⟩, fun hf => hdrop hen hf hcount⟩)
    fun q hq y hy hne ⟨ha, hu⟩ => ⟨task_asserted hq order hy hne ha, task_offeredTo hq hno order hy hne ha hu⟩
  exact ⟨r, heq, hr⟩

end

/-- Settles O39: one NOTICE at each enabled port, before its octets or behind them. -/
theorem timerExpiryOffersANotice : Obligations.TimerExpiryOffersANotice := by
  unfold Obligations.TimerExpiryOffersANotice
  intro order s htick htimer hattn hcond hn hroom hpend
  have hno : s.swapsNext = false := by simp [State.swapsNext, hpend]
  have hexec : exec (.noticeTimerExpiry order) s = .next (s.outputStart (withEarly .listTick order)) :=
    if_pos (by simp [State.timerRunsOut, htick, htimer])
  have ht := touches_outputStart hn (withEarly .listTick order)
  have hend := outputStart_timer hn (withEarly .listTick order) hno htick ⟨hattn, hcond⟩ htimer
  refine ⟨_, hexec, hend.2, hend.1.1, ht.sups (by simp), ht.straps (by simp),
    (outputStart_active hn _).2 hno, fun p hp => ?_⟩
  obtain ⟨r, heq, hr⟩ := outputStart_expires hn (withEarly .listTick order) hno htick hroom ⟨hattn, hcond⟩ htimer hp
  rw [heq]
  exact ⟨offeredTo_of_empty hr, offeredTo_of_long_head hr, fun m x rest h _ => offeredTo_of_any hr⟩

end Sys2Proof.Machine
end

section
/-! SUPPORT. The capture unit at the completion of an input frame: the octet of its source, and the acceptance that meets
its trigger (R163 to R167). -/

namespace Sys2Proof.Machine

/-! ### One octet, one acceptance -/

theorem store_storedOctet (u : Capture) (job : Job) (captured : Nat) (stamp : Stamp) (o : Octet) :
    u.storedOctet job captured stamp o (u.store job captured stamp o).1 (u.store job captured stamp o).2 := by
  have hfull : (u.filling.isEmpty && u.emptyPools == 0) = true ↔ u.filling = [] ∧ 4 ≤ u.ready.length := by
    rw [Bool.and_eq_true, List.isEmpty_iff, beq_iff_eq]
    refine and_congr_right fun hf => ?_
    rw [Capture.emptyPools, hf]
    simp [Config.pools, Nat.sub_eq_zero_iff_le]
  have hpool : u.filling.length + 1 = Config.poolOctets ↔ u.filling.length = 63 := by
    rw [show Config.poolOctets = 63 + 1 from rfl]
    exact Nat.add_right_cancel_iff
  unfold Capture.store
  by_cases h : u.filling = [] ∧ 4 ≤ u.ready.length
  · rw [if_pos (hfull.mpr h)]
    refine ⟨fun _ => ⟨rfl, rfl⟩, fun hn => ?_⟩
    rcases hn with hn | hn
    · exact absurd h.1 hn
    · exact absurd h.2 (by omega)
  · rw [if_neg fun hc => h (hfull.mp hc)]
    refine ⟨fun hc => absurd hc h, fun _ => ⟨fun hl => ?_, fun hl hp => ?_, fun hl hp => ?_⟩⟩
    · rw [if_pos hl]
      exact ⟨rfl, rfl⟩
    · rw [if_neg hl, if_pos (hpool.mpr hp)]
      exact ⟨rfl, rfl⟩
    · rw [if_neg hl, if_neg fun hc => hp (hpool.mp hc)]
      exact ⟨rfl, rfl⟩

/-- A trigger is met by an octet as R164 says. -/
theorem metBy_iff (t : Trigger) (o : Octet) : t.metBy o = true ↔ t = .now ∨ t = .octet o := by
  cases t with
  | now => simp [Trigger.metBy]
  | octet v => simp [Trigger.metBy, eq_comm (a := o)]
  | code k n c => simp [Trigger.metBy]

/-- What the unit makes of an octet is what the rules say of it (R163 to R167). -/
theorem take_tookOctet (u : Capture) (now : Stamp) (o : Octet) : u.tookOctet now o (u.take now o).1 (u.take now o).2 := by
  unfold Capture.tookOctet Capture.take
  cases hu : u.phase with
  | armed job =>
    simp only [← metBy_iff]
    split
    · exact store_storedOctet u job 0 now o
    · exact ⟨rfl, rfl⟩
  | running job captured stamp => exact store_storedOctet u job captured stamp o
  | idle => exact ⟨rfl, rfl⟩
  | ended how job captured stamp => exact ⟨rfl, rfl⟩

/-- What an octet raises is reported, where the list has room (R171). -/
theorem captureOctet_reports {t : State} {o : Octet} (h : t.events.load < 63) {v : EventValue}
    (hv : (t.capture.take t.timing.stamp o).2 = some v) : (t.captureOctet o).events.reports .capture v := by
  unfold State.captureOctet
  split
  · rename_i u hu
    rw [hu] at hv
    cases hv
  · rename_i u w hu
    rw [hu] at hv
    obtain rfl : w = v := by simpa using hv
    exact raise_reports (s := t.setCapture u) (key := .capture) (admits_of_load h _) (by simp) w

/-- An acceptance leaves the unit its job. -/
theorem acceptance_of_other {u : Capture} {k : Highway} {n : Slot} {c : Code}
    (h : ∀ job, u.phase.job = some job → job.trigger ≠ .code k n c) (now : Stamp) : u.acceptance now k n c = u := by
  unfold Capture.acceptance
  split
  · rename_i job hu
    exact if_neg (h job (by rw [hu]; rfl))
  · rfl
  · rfl
  · rfl

/-- The acceptances of an evaluation at the capture unit. -/
def Capture.acceptances (u : Capture) (now : Stamp) (k : Highway) (l : List (Slot × Code × Bool)) : Capture :=
  l.foldl (fun u x => u.acceptance now k x.1 x.2.1) u

theorem acceptances_of_other {u : Capture} {k : Highway} (h : ∀ job n c, u.phase.job = some job → job.trigger ≠ .code k n c)
    (now : Stamp) (l : List (Slot × Code × Bool)) : u.acceptances now k l = u := by
  induction l with
  | nil => rfl
  | cons x l ih =>
    rw [Capture.acceptances, List.foldl_cons, acceptance_of_other fun job => h job _ _]
    exact ih

theorem acceptances_of_running {u : Capture} {job : Job} {captured : Nat} {stamp : Stamp}
    (h : u.phase = .running job captured stamp) (now : Stamp) (k : Highway) (l : List (Slot × Code × Bool)) :
    u.acceptances now k l = u := by
  induction l with
  | nil => rfl
  | cons x l ih =>
    rw [Capture.acceptances, List.foldl_cons, show u.acceptance now k x.1 x.2.1 = u by simp [Capture.acceptance, h]]
    exact ih

/-- An ARMED capture with a CODE trigger runs when its code is accepted in its slot (R164). -/
theorem acceptances_of_armed {u : Capture} {job : Job} {k : Highway} {m : Slot} {c : Code} (hu : u.phase = .armed job)
    (ht : job.trigger = .code k m c) (now : Stamp) (l : List (Slot × Code × Bool)) :
    ((∃ w, (m, c, w) ∈ l) → u.acceptances now k l = { u with phase := .running job 0 now }) ∧
      ((¬∃ w, (m, c, w) ∈ l) → u.acceptances now k l = u) := by
  induction l with
  | nil => exact ⟨(fun ⟨_, h⟩ => by cases h), fun _ => rfl⟩
  | cons x l ih =>
    obtain ⟨n, d, w⟩ := x
    rw [Capture.acceptances, List.foldl_cons]
    by_cases hx : n = m ∧ d = c
    · obtain ⟨rfl, rfl⟩ := hx
      have hrun : u.acceptance now k n d = { u with phase := .running job 0 now } := by
        simp [Capture.acceptance, hu, ht]
      rw [hrun]
      exact ⟨fun _ => acceptances_of_running rfl now k l, fun h => absurd ⟨w, List.mem_cons_self⟩ h⟩
    · have hkeep : u.acceptance now k n d = u := acceptance_of_other (fun job' hj => by
        rw [hu] at hj
        cases hj
        rw [ht]
        intro he
        cases he
        exact hx ⟨rfl, rfl⟩) now
      have hmem : (∃ w', (m, c, w') ∈ (n, d, w) :: l) ↔ ∃ w', (m, c, w') ∈ l :=
        exists_congr fun w' => by
          rw [List.mem_cons, or_iff_right]
          intro he
          cases he
          exact hx ⟨rfl, rfl⟩
      rw [hkeep, hmem]
      exact ih

theorem handAcceptances_capture (s : State) (k : Highway) (l : List (Slot × Code × Bool)) :
    (l.foldl (fun t x => t.handAcceptance k x) s).capture = s.capture.acceptances s.timing.stamp k l := by
  induction l generalizing s with
  | nil => rfl
  | cons x l ih =>
    have ht := touches_setCapture s (s.capture.acceptance s.timing.stamp k x.1 x.2.1)
    have hone : (s.handAcceptance k x).capture = s.capture.acceptance s.timing.stamp k x.1 x.2.1 ∧
        (s.handAcceptance k x).timing = s.timing := by
      unfold State.handAcceptance
      simp only
      split
      · exact ⟨(touches_raise _ _ _).capture (by simp), (touches_raise _ _ _).timing (by simp)⟩
      · exact ⟨rfl, rfl⟩
    rw [List.foldl_cons, ih, hone.1, hone.2]
    rfl

/-! ### A quiet completion and the capture unit -/

section
variable {s : State} {k : Highway} {a : Align} {f : InFrame} {after : Framer}

/-- The supervisor's share at the capture unit: the acceptances of the frame numbered 15 (R91, R164). -/
theorem supervisorTask_capture :
    (s.quietTask k a f after .supervisor).capture =
      if a.handsOver = true ∧ a.frameNumber = 15 then
        s.capture.acceptances s.timing.stamp k ((s.sup k).accepted f a.isFlywheel (s.receiver k).persistence)
      else s.capture := by
  rw [quietTask_of_ne (by simp), supervisorTask_eq]
  by_cases ho : a.handsOver = true
  · rw [if_pos ho]
    by_cases hn : a.frameNumber = 15
    · rw [if_pos ⟨ho, hn⟩, hn, superviseFrame_last, handAcceptances_capture]
      rfl
    · rw [if_neg fun h => hn h.2]
      unfold State.superviseFrame
      simp only
      rw [if_neg hn]
      rfl
  · rw [if_neg ho, if_neg fun h => ho h.1]

theorem quietTask_capture_of_octets (h : ∀ job n c, s.capture.phase.job = some job → job.trigger ≠ .code k n c)
    {x : CompletionTask} (hx : x ≠ .capture) : (s.quietTask k a f after x).capture = s.capture := by
  by_cases hs : x = .supervisor
  · subst hs
    rw [supervisorTask_capture]
    split
    · exact acceptances_of_other h _ _
    · rfl
  · exact quietTask_capture_other s k a f after hs hx

theorem quietTasks_capture_of_octets (h : ∀ job n c, s.capture.phase.job = some job → job.trigger ≠ .code k n c)
    {l : List CompletionTask} (hl : .capture ∉ l) : (s.quietTasks k a f after l).capture = s.capture :=
  quietTasks_keep s k a f after (fun t => t.capture = s.capture) l rfl fun t x hx ht =>
    (quietTask_capture_of_octets (by rwa [ht]) fun e => hl (e ▸ hx)).trans ht

/-- The share of the capture unit in a frame of its source (R163). -/
theorem captureTask_of_source {job : Job} {n : Slot} (hj : s.capture.phase.job = some job)
    (hs : job.source = .input k n) (ha : a.inService = true) :
    s.quietTask k a f after .capture = s.captureOctet f.payload[n] := by
  obtain ⟨source, trigger, length⟩ := job
  cases hs
  rw [quietTask_of_ne (by simp)]
  unfold State.completionTask
  simp only [if_pos ha, hj, if_true]

theorem captureTask_of_other (h : a.inService = false ∨
    ∀ job, s.capture.phase.job = some job → Source.onInput k job.source = false) :
    s.quietTask k a f after .capture = s := by
  rw [quietTask_of_ne (by simp)]
  unfold State.completionTask
  simp only
  split
  · rename_i ha
    have h := h.resolve_left (by simp [ha])
    split
    · rename_i j n t len hj
      rw [if_neg]
      rintro rfl
      simpa [Source.onInput] using h _ hj
    · rfl
    · rfl
  · rfl

end

section
variable {s : State} {k : Highway} {f : InFrame}

theorem taskRaises_capture {w : Slot → Bool} {x : CompletionTask} (h : taskRaises k w .capture x) : x = .capture := by
  cases x with
  | capture => rfl
  | supervisor => obtain ⟨n, -, h⟩ := h; cases h
  | framer => cases h
  | queue | guard => cases h

/-- A frame that is not handed over leaves the capture unit and the supervisor (R44, R51). -/
theorem completeFrame_of_not_handed (hf : (s.receiver k).inFrame = true) (ho : (s.receiver k).align.handsOver = false)
    (order : CompletionOrder) : (s.completeFrame k f order).capture = s.capture ∧
      ∀ j n, (s.completeFrame k f order).slotState j n = s.slotState j n := by
  unfold State.completeFrame
  rw [if_pos hf]
  split
  · exact ⟨rfl, fun _ _ => rfl⟩
  · exact ⟨rfl, fun _ _ => rfl⟩
  · have ht := fun a => touches_setAlign s k a false
    exact ⟨(ht _).capture (by simp), fun j n => (ht _).slotState j n (by simp)⟩
  · rename_i h1 h2 h3
    exfalso
    cases hx : (s.receiver k).align with
    | disabled => exact h1 hx
    | search history => exact h2 _ hx
    | confirm e c history => exact h3 _ _ _ hx
    | guard e c => rw [hx] at ho; cases ho
    | aligned e => rw [hx] at ho; cases ho
    | flywheel e b => rw [hx] at ho; cases ho

/-- What the completion of a frame of the source makes of a capture that waits for no code of this highway
(R163 to R167). -/
theorem completeFrame_captures {job : Job} {n : Slot} (hj : s.capture.phase.job = some job)
    (hs : job.source = .input k n) (hf : (s.receiver k).inFrame = true) (hq : s.framerQuiet k f)
    (ht : ∀ m c, job.trigger ≠ .code k m c) (order : CompletionOrder) :
    (s.inService k = false → (s.completeFrame k f order).capture = s.capture) ∧
      (s.inService k = true →
        (s.completeFrame k f order).capture = (s.capture.take s.timing.stamp f.payload[n]).1 ∧
        ∀ v, (s.capture.take s.timing.stamp f.payload[n]).2 = some v →
          s.events.ordinaryCount + (s.sup k).watchedCount ≤ 57 →
          (s.completeFrame k f order).events.reports .capture v) := by
  have htrigger : ∀ job' n' c, s.capture.phase.job = some job' → job'.trigger ≠ .code k n' c := fun job' n' c hj' => by
    rw [hj] at hj'
    cases hj'
    exact ht n' c
  by_cases ho : (s.receiver k).align.handsOver = true
  · obtain ⟨before, after, framer, he, hb, ha, -, hload⟩ := completeFrame_at hf ho hq order .capture
    have halign := touches_setAlign s k (s.receiver k).align false
    have hkept := halign.trans (quietTasks_kept (s := s.setAlign k (s.receiver k).align false) (k := k)
      (a := (s.receiver k).align) (f := f) (after := framer) before)
    have hcap : ((s.setAlign k (s.receiver k).align false).quietTasks k (s.receiver k).align f framer before).capture =
        s.capture := (quietTasks_capture_of_octets (by rwa [halign.capture (by simp)]) hb).trans (halign.capture (by simp))
    have hstamp := congrArg Timing.stamp (hkept.timing (by simp [completionBlocks]))
    rw [he]
    generalize (s.setAlign k (s.receiver k).align false).quietTasks k (s.receiver k).align f framer before = t at *
    refine ⟨fun hserv => ?_, fun hserv => ?_⟩
    · rw [captureTask_of_other (.inl hserv), quietTasks_capture_of_octets (by rwa [hcap]) ha, hcap]
    · rw [captureTask_of_source (by rw [hcap]; exact hj) hs hserv]
      have hone : (t.captureOctet f.payload[n]).capture = (s.capture.take s.timing.stamp f.payload[n]).1 := by
        rw [captureOctet_capture, hcap, hstamp]
      refine ⟨?_, fun v hv hroom => quietTasks_reports rfl (fun x hx hr => ha (taskRaises_capture hr ▸ hx))
        (captureOctet_reports ?_ (by rw [hcap, hstamp]; exact hv))⟩
      · rw [quietTasks_capture_of_octets _ ha, hone]
        rw [hone, take_job]
        exact htrigger
      · simp only [taskCost] at hload
        omega
  · have ho : (s.receiver k).align.handsOver = false := by simpa using ho
    refine ⟨fun _ => (completeFrame_of_not_handed hf ho order).1, fun hserv => ?_⟩
    rw [handsOver_of_inService hserv] at ho
    cases ho

/-- A CODE trigger is met by the acceptance of its code in its slot alone (R164). -/
theorem completeFrame_triggers {job : Job} {m : Slot} {c : Code} (hu : s.capture.phase = .armed job)
    (ht : job.trigger = .code k m c) (hs : Source.onInput k job.source = false)
    (hf : (s.receiver k).inFrame = true) (hq : s.framerQuiet k f) (order : CompletionOrder) :
    (s.completeFrame k f order).capture =
      if (s.slotState k m).stable ≠ some c ∧ ((s.completeFrame k f order).slotState k m).stable = some c then
        { s.capture with phase := .running job 0 s.timing.stamp }
      else s.capture := by
  by_cases ho : (s.receiver k).align.handsOver = true
  · obtain ⟨before, after, framer, he, hb, ha, -, -⟩ := completeFrame_at hf ho hq order .supervisor
    have halign := touches_setAlign s k (s.receiver k).align false
    have hcapture : ∀ {t : State} {l : List CompletionTask}, .supervisor ∉ l →
        (∀ job', t.capture.phase.job = some job' → Source.onInput k job'.source = false) →
        (t.quietTasks k (s.receiver k).align f framer l).capture = t.capture := fun {t} {l} hl hsrc =>
      quietTasks_keep t k _ f framer (fun u => u.capture = t.capture) l rfl fun u x hx hu => by
        by_cases hc : x = .capture
        · subst hc
          rw [captureTask_of_other (.inr (by rwa [hu])), hu]
        · exact (quietTask_capture_other u k _ f framer (fun e => hl (e ▸ hx)) hc).trans hu
    have hkept := halign.trans (quietTasks_kept (s := s.setAlign k (s.receiver k).align false) (k := k)
      (a := (s.receiver k).align) (f := f) (after := framer) before)
    have hsource : ∀ u : Capture, u.phase.job = some job → ∀ job', u.phase.job = some job' →
        Source.onInput k job'.source = false := fun u hu job' hj' => by
      rw [hu] at hj'
      cases hj'
      exact hs
    have hjob : s.capture.phase.job = some job := by rw [hu]; rfl
    have hcap := (hcapture (t := s.setAlign k (s.receiver k).align false) hb
      (hsource _ (by rw [halign.capture (by simp)]; exact hjob))).trans (halign.capture (by simp))
    have hsup := (quietTasks_sup (s.setAlign k (s.receiver k).align false) k (s.receiver k).align f framer hb k).trans
      (halign.sup k (by simp))
    have hpers := quietTasks_persistence (s.setAlign k (s.receiver k).align false) k (s.receiver k).align f framer before
    rw [setAlign_receiver] at hpers
    have hstamp := congrArg Timing.stamp (hkept.timing (by simp [completionBlocks]))
    have hslots : (s.completeFrame k f order).sup k = (s.sup k).handed (s.receiver k).align.frameNumber f
        (s.receiver k).align.isFlywheel (s.receiver k).persistence s.timing.stamp := by
      rw [he, quietTasks_sup _ k _ f framer ha k, quietTask_of_ne (by simp), supervisorTask_eq, if_pos ho,
        superviseFrame_sup, if_pos rfl, hsup, hpers, hstamp]
    rw [slotState_eq_sup, slotState_eq_sup, hslots, he]
    generalize (s.setAlign k (s.receiver k).align false).quietTasks k (s.receiver k).align f framer before = t at *
    have htask : (t.quietTask k (s.receiver k).align f framer .supervisor).capture =
        if (s.receiver k).align.frameNumber = 15 then s.capture.acceptances s.timing.stamp k
          ((s.sup k).accepted f (s.receiver k).align.isFlywheel (s.receiver k).persistence) else s.capture := by
      rw [supervisorTask_capture, hcap, hstamp, hsup, hpers]
      simp only [ho, true_and]
    have hend : (t.quietTask k (s.receiver k).align f framer .supervisor).capture =
        if (s.sup k).slots[m].stable ≠ some c ∧ (((s.sup k).handed (s.receiver k).align.frameNumber f
            (s.receiver k).align.isFlywheel (s.receiver k).persistence s.timing.stamp).slots[m]).stable = some c then
          { s.capture with phase := .running job 0 s.timing.stamp }
        else s.capture := by
      rw [htask]
      by_cases hn : (s.receiver k).align.frameNumber = 15
      · rw [if_pos hn, hn]
        obtain ⟨hyes, hno⟩ := acceptances_of_armed hu ht s.timing.stamp
          ((s.sup k).accepted f (s.receiver k).align.isFlywheel (s.receiver k).persistence)
        have hmem := fun w => mem_accepted_iff (s.sup k) f (s.receiver k).align.isFlywheel
          (s.receiver k).persistence s.timing.stamp m c w
        split
        · rename_i h
          exact hyes ⟨_, (hmem _).mpr ⟨rfl, h.1, h.2⟩⟩
        · rename_i h
          exact hno fun ⟨w, hw⟩ => h ((hmem w).mp hw).2
      · rw [if_neg hn, if_neg]
        rintro ⟨hne, hst⟩
        rw [handed_slots, if_neg fun h => hn h.1] at hst
        exact hne hst
    rw [hcapture ha, hend]
    rw [hend]
    split
    · exact hsource _ rfl
    · exact hsource _ hjob
  · have ho : (s.receiver k).align.handsOver = false := by simpa using ho
    obtain ⟨h1, h2⟩ := completeFrame_of_not_handed (f := f) hf ho order
    rw [h1, h2, if_neg]
    rintro ⟨hne, hst⟩
    exact hne hst

end

end Sys2Proof.Machine
end

section
/-! SUPPORT. The capture unit at an output frame start, and the end of a capture at its length (R163, R166). -/

namespace Sys2Proof.Machine

/-! ### The octet of an output source -/

section
variable {s : State} {r : StartRun}

/-- Outside the management slots the octets of a frame are not those of a port (R80, R81). -/
theorem slotOctet_of_plain {f : State} {n : Slot} (h : mgmtSlot f.straps n = false) (k : Highway) (mgmt mgmt' : List Octet) :
    f.slotOctet k mgmt n = f.slotOctet k mgmt' n := by
  unfold State.slotOctet
  simp only [h, Bool.false_eq_true, if_false]

/-- The octet of slot `n` of highway `k` stands in the frame for good: it is in a frame of this start, and the port that
could still change it has given its octets. -/
def State.placed (s : State) (k : Highway) (n : Slot) (r : StartRun) : Prop :=
  (∃ mgmt, (r.state.output k).line = s.frameState.buildLine k mgmt) ∧ ∀ p, s.filledBy k n = some p → p ∈ r.taken

theorem takeOctets_line (h : r.calm s false) (p : PortId) (k : Highway) :
    (r.takeOctets p).state.output k = r.state.output k ∨
      p ∉ r.taken ∧ portOn s.straps k = some p ∧
        ∃ mgmt, ((r.takeOctets p).state.output k).line = s.frameState.buildLine k mgmt := by
  by_cases hp : p ∈ r.taken
  · rw [takeOctets_of_taken hp]
    exact .inl rfl
  · have hs : (r.takeOctets p).state = r.state.given s.frameState p := by rw [takeOctets_eq_of_calm h hp]
    rw [hs, given_output]
    split
    · rename_i hc
      obtain ⟨hsend, hk⟩ := hc
      rw [frameState_portSends] at hsend
      refine .inr ⟨hp, (portOn_eq_some_iff _ _ _).mpr ⟨(Bool.and_eq_true_iff.mp hsend).1, ?_⟩, _, rfl⟩
      simpa [State.portPair] using hk
    · exact .inl rfl

theorem takeOctets_frames (h : r.calm s false) (p : PortId) {k : Highway}
    (hl : ∃ mgmt, (r.state.output k).line = s.frameState.buildLine k mgmt) :
    ∃ mgmt, ((r.takeOctets p).state.output k).line = s.frameState.buildLine k mgmt := by
  rcases takeOctets_line h p k with e | ⟨-, -, e⟩
  · rwa [e]
  · exact e

theorem takeOctets_placed (h : r.calm s false) (p : PortId) {k : Highway} {n : Slot} (hr : s.placed k n r) :
    s.placed k n (r.takeOctets p) ∧
      ((r.takeOctets p).state.output k).line[3 + n.val]'(by omega) = (r.state.output k).line[3 + n.val]'(by omega) := by
  obtain ⟨hl, hf⟩ := hr
  refine ⟨⟨takeOctets_frames h p hl, fun q hq => (mem_takeOctets_taken h q p).mpr (.inr (hf q hq))⟩, ?_⟩
  rcases takeOctets_line h p k with e | ⟨hp, hon, mgmt', e⟩
  · rw [e]
  · obtain ⟨mgmt, hl⟩ := hl
    have hplain : mgmtSlot s.frameState.straps n = false := by
      by_contra hm
      rw [frameState_straps, Bool.not_eq_false] at hm
      exact hp (hf p ((if_pos hm).trans hon))
    simp only [e, hl]
    rw [buildLine_slot, buildLine_slot, slotOctet_of_plain hplain k mgmt' mgmt]

theorem task_frames (h : r.calm s false) (order : StartOrder) {x : StartTask} (hx : x ≠ .reset) {k : Highway}
    (hl : ∃ mgmt, (r.state.output k).line = s.frameState.buildLine k mgmt) :
    ∃ mgmt, ((r.task order x).state.output k).line = s.frameState.buildLine k mgmt := by
  obtain ⟨q, t, ht⟩ := task_partOf h order hx
  rw [State.output, ht.outputs_eq]
  rcases ht.gives with rfl | ⟨p, rfl⟩
  · exact hl
  · exact takeOctets_frames h p hl

theorem task_placed (h : r.calm s false) (order : StartOrder) {x : StartTask} (hx : x ≠ .reset) {k : Highway} {n : Slot}
    (hr : s.placed k n r) :
    s.placed k n (r.task order x) ∧ ((r.task order x).state.output k).line[3 + n.val]'(by omega) =
      (r.state.output k).line[3 + n.val]'(by omega) := by
  obtain ⟨q, t, ht⟩ := task_partOf h order hx
  have hq : s.placed k n q ∧ (q.state.output k).line[3 + n.val]'(by omega) =
      (r.state.output k).line[3 + n.val]'(by omega) := by
    rcases ht.gives with rfl | ⟨p, rfl⟩
    · exact ⟨hr, rfl⟩
    · exact takeOctets_placed h p hr
  have hout : (r.task order x).state.output k = q.state.output k := by rw [State.output, State.output, ht.outputs_eq]
  unfold State.placed
  rw [ht.taken, hout]
  exact hq

/-- The octet is placed before it is handed over (R81, R163). -/
theorem sourced_placed (h : r.calm s false) {k : Highway} {n : Slot}
    (hl : ∃ mgmt, (r.state.output k).line = s.frameState.buildLine k mgmt) : s.placed k n (r.sourced k n) := by
  have hfilled : r.frame.filledBy k n = s.filledBy k n := by
    rw [h.frame, State.filledBy, State.filledBy, frameState_straps]
  unfold StartRun.sourced
  rw [hfilled]
  cases hf : s.filledBy k n with
  | none => exact ⟨hl, fun p hp => by rw [hf] at hp; cases hp⟩
  | some p =>
    refine ⟨takeOctets_frames h p hl, fun q hq => (mem_takeOctets_taken h q p).mpr (.inl ?_)⟩
    rw [hf] at hq
    exact Option.some.inj hq

/-- What the part of the unit hands over is handed over at its own part alone. -/
theorem task_handed_other (h : r.calm s false) (order : StartOrder) {x : StartTask} (hx : x ≠ .reset) (hc : x ≠ .capture) :
    (r.task order x).handed = r.handed := by
  have hgive : ∀ p, (r.takeOctets p).handed = r.handed := fun p => by
    by_cases hp : p ∈ r.taken
    · rw [takeOctets_of_taken hp]
    · rw [takeOctets_eq_of_calm h hp]
  cases x with
  | timing => rw [task_timing h.warm]; rfl
  | slip k =>
    rw [task_slip h.warm, takeSlip_eq h]
    split <;> rfl
  | swap =>
    rw [task_swap h.warm]
    unfold StartRun.takeSwap
    split <;> rfl
  | copy =>
    rw [task_copy h.warm]
    unfold StartRun.takeCopy
    split <;> rfl
  | take p => exact task_take h.warm order p ▸ hgive p
  | start p => rw [task_start h.warm, startCommand_of_calm h, hgive]
  | capture => exact absurd rfl hc
  | leaseTick =>
    rw [task_leaseTick h.warm]
    split <;> rfl
  | listTick =>
    rw [task_listTick h.warm]
    split <;> rfl
  | reset => exact absurd rfl hx

/-- What a start makes of a capture whose source is on an enabled output highway (R163 to R167). -/
theorem outputStart_captures (hn : s.noWork) (order : StartOrder) {k : Highway} {n : Slot} {job : Job}
    (hj : s.capture.phase.job = some job) (hs : job.source = .output k n) (he : (s.output k).enabled = true) :
    ∃ stamp, (stamp = s.timing.stamp ∨ stamp = (s.outputStart order).timing.stamp) ∧
      (s.outputStart order).capture =
        (s.capture.take stamp (((s.outputStart order).output k).line[3 + n.val]'(by omega))).1 ∧
      ∀ v, (s.capture.take stamp (((s.outputStart order).output k).line[3 + n.val]'(by omega))).2 = some v →
        s.events.roomy → (s.outputStart order).events.reports .capture v := by
  have hbegin : ∃ mgmt, (s.beginStart.state.output k).line = s.frameState.buildLine k mgmt :=
    ⟨[], by rw [beginStart_output]; simp [State.nextOutput, he]⟩
  obtain ⟨r, -, ⟨-, stamp, hstamp, hc, hrep⟩, heq⟩ := outputStart_through .capture
    (fun q => (∃ mgmt, (q.state.output k).line = s.frameState.buildLine k mgmt) ∧ q.handed = [] ∧
      q.state.capture = s.capture ∧ (q.state.timing = s.timing ∨ q.state.timing = s.timing.advance))
    (fun q => s.placed k n q ∧ ∃ stamp, (stamp = s.timing.stamp ∨ stamp = s.timing.advance.stamp) ∧
      q.state.capture = (s.capture.take stamp ((q.state.output k).line[3 + n.val]'(by omega))).1 ∧
      ∀ v, (s.capture.take stamp ((q.state.output k).line[3 + n.val]'(by omega))).2 = some v → s.events.roomy →
        q.state.events.reports .capture v) hn order
    ⟨hbegin, rfl, rfl, .inl rfl⟩
    (fun q hq y hy hne ⟨hl, hh, hc, ht⟩ => ⟨task_frames hq order hy hl, (task_handed_other hq order hy hne).trans hh,
      ((task_leaves hq order hy).1.capture (by cases y <;> simp_all [startBlocks])).trans hc, by
      rcases task_timing_cases hq order hy with e | e
      · rw [e]; exact ht
      · exact .inr e⟩)
    (fun q hq hload ⟨hl, hh, hc, ht⟩ => by
      obtain ⟨handed, hcap⟩ := takeCapture_of_source (r := q) (k := k) (n := n) (by rw [hc]; exact hj) hs
        (by rw [hh]; exact List.not_mem_nil) (by rw [hq.frame, frameState_output]; exact he)
        fun p => (touches_takeOctets hq p).capture (by simp)
      have hplaced := sourced_placed (n := n) hq hl
      have htouch := touches_sourced hq k n
      have htiming := htouch.timing (by simp)
      have hcapture := (htouch.capture (by simp)).trans hc
      have hevents := htouch.events (by simp)
      rw [task_capture hq.warm, hcap]
      generalize q.sourced k n = u at hplaced htiming hcapture hevents ⊢
      have hout : ∀ o, (u.state.captureOctet o).output k = u.state.output k := fun o =>
        (touches_captureOctet u.state o).output k (by simp)
      refine ⟨⟨by simp only [hout]; exact hplaced.1, hplaced.2⟩, u.state.timing.stamp, ?_, ?_, fun v hv hroom => ?_⟩
      · rw [htiming]
        exact ht.imp (congrArg Timing.stamp) (congrArg Timing.stamp)
      · simp only [hout]
        rw [captureOctet_capture, hcapture]
      · simp only [hout] at hv
        refine captureOctet_reports ?_ (by rw [hcapture]; exact hv)
        rw [hevents]
        have : s.events.ordinaryCount ≤ 32 := hroom
        have : q.state.events.load + 1 ≤ s.events.ordinaryCount + 14 := hload
        omega)
    fun q hq y hy hne ⟨hp, stamp, hst, hc, hrep⟩ => by
      obtain ⟨hp', hline⟩ := task_placed hq order hy hp
      refine ⟨hp', stamp, hst, ?_, fun v hv hroom => ?_⟩
      · rw [hline]
        exact ((task_leaves hq order hy).1.capture (by cases y <;> simp_all [startBlocks])).trans hc
      · rw [hline] at hv
        exact (task_leaves hq order hy).2.kept _ _ rfl (by cases y <;> simp_all [startRaises]) (hrep v hv hroom)
  refine ⟨stamp, ?_, ?_⟩
  · rw [outputStart_timing hn]
    exact hstamp
  · rw [heq]
    exact ⟨hc, hrep⟩

end

/-- Settles O40: the octet of an input source at its completion, the octet of an output source at its start, and the
acceptance that meets a CODE trigger. -/
theorem captureTakesItsOctets : Obligations.CaptureTakesItsOctets := by
  unfold Obligations.CaptureTakesItsOctets
  refine ⟨fun k n f order job s hj hs hf hq ht => ?_, fun k n order job s hj hs hn => ?_,
    fun h m c f order job s hu ht hs hf hq => ⟨_, rfl, completeFrame_triggers hu ht hs hf hq order⟩⟩
  · obtain ⟨hout, hin⟩ := completeFrame_captures (f := f) hj hs hf hq ht order
    refine ⟨_, rfl, hout, fun hserv => ⟨(s.capture.take s.timing.stamp f.payload[n]).2, ?_, fun v hv hroom hwatched => ?_⟩⟩
    · rw [(hin hserv).1]
      exact take_tookOctet _ _ _
    · refine (hin hserv).2 v hv ?_
      have hcount : (s.sup k).watchedCount = 0 := by
        rw [watchedCount_eq, List.length_eq_zero_iff, List.filter_eq_nil_iff]
        exact fun m _ => by simpa [slotState_eq_sup] using hwatched m
      have : s.events.ordinaryCount ≤ 32 := hroom
      omega
  · refine ⟨_, rfl, fun hd => outputStart_capture hn order fun k' n' job' hj' hs' => ?_, fun he => ?_⟩
    · rw [hj] at hj'
      cases hj'
      rw [hs] at hs'
      cases hs'
      exact hd
    · obtain ⟨stamp, hstamp, hc, hrep⟩ := outputStart_captures hn order hj hs he
      refine ⟨_, stamp, hstamp, ?_, hrep⟩
      rw [hc]
      exact take_tookOctet _ _ _

/-! ### The end at the length (R166) -/

/-- The octet that completes the length of a RUNNING capture. -/
theorem take_of_last {u : Capture} {job : Job} {captured : Nat} {stamp : Stamp} (hu : u.phase = .running job captured stamp)
    (hl : captured + 1 = job.length) (hp : u.filling ≠ [] ∨ u.ready.length < 4) (now : Stamp) (o : Octet) :
    u.take now o =
      ({ phase := .ended .done job (captured + 1) stamp, filling := []
         ready := u.ready ++ [{ sequence := u.nextSequence, final := true, octets := u.filling ++ [o] }]
         nextSequence := u.nextSequence + 1 }, some .done) := by
  have h := take_tookOctet u now o
  unfold Capture.tookOctet at h
  simp only [hu] at h
  obtain ⟨h1, h2⟩ := (h.2 hp).1 hl
  exact Prod.ext h1 h2

/-- A capture that has ended waits for no code (R164). -/
theorem acceptances_of_ended {u : Capture} {how : Ending} {job : Job} {captured : Nat} {stamp : Stamp}
    (h : u.phase = .ended how job captured stamp) (now : Stamp) (k : Highway) (l : List (Slot × Code × Bool)) :
    u.acceptances now k l = u := by
  induction l with
  | nil => rfl
  | cons x l ih =>
    rw [Capture.acceptances, List.foldl_cons, show u.acceptance now k x.1 x.2.1 = u by simp [Capture.acceptance, h]]
    exact ih

/-- A frame whose capture unit is served first. -/
theorem completeFrame_first {s : State} {k : Highway} {f : InFrame} (hf : (s.receiver k).inFrame = true)
    (ho : (s.receiver k).align.handsOver = true) (hq : s.framerQuiet k f) (order : CompletionOrder)
    (x : CompletionTask) :
    ∃ after framer, s.completeFrame k f (x :: order) =
        ((s.setAlign k (s.receiver k).align false).quietTask k (s.receiver k).align f framer x).quietTasks k
          (s.receiver k).align f framer after ∧ x ∉ after := by
  have ht := touches_setAlign s k (s.receiver k).align false
  obtain ⟨hquiet, -⟩ := framerQuiet_congr (k := k) (ht.straps (by simp))
    (fun p => congrArg Port.framer (ht.port p (by simp) (by simp))) f
  refine ⟨(firstMentions (order ++ completionTasks)).filter (fun y => y ≠ x),
    (s.setAlign k (s.receiver k).align false).framerAfter k f, ?_, by simp⟩
  rw [completeFrame_of_handsOver hf ho, handOver_quiet (hquiet hq), List.cons_append, firstMentions, List.foldl_cons]
  rfl

/-- Settles O41: the last octet of an input source is taken before the other shares of its frame, that of an output source
at its part of the start. -/
theorem captureEndsAtItsLength : Obligations.CaptureEndsAtItsLength := by
  unfold Obligations.CaptureEndsAtItsLength
  intro f completion start job captured stamp s hu hl hp hroom
  have hj : s.capture.phase.job = some job := by rw [hu]; rfl
  have hlast := take_of_last hu hl hp
  refine ⟨fun k n hs hf hserv hq => ?_, fun k n hs he hn => ?_⟩
  · have hexec : exec (.captureDone f completion start) s = .next (s.completeFrame k f (.capture :: completion)) := by
      show execCaptureDone f completion start s = _
      obtain ⟨source, trigger, length⟩ := job
      cases hs
      unfold execCaptureDone
      simp only [hj]
      exact if_pos (by simp [hf, hserv, State.captureEnds, Capture.endsWith, hlast])
    have ho := handsOver_of_inService hserv
    obtain ⟨after, framer, he, hafter⟩ := completeFrame_first hf ho hq completion .capture
    have halign := touches_setAlign s k (s.receiver k).align false
    have htask := captureTask_of_source (s := s.setAlign k (s.receiver k).align false) (k := k)
      (a := (s.receiver k).align) (f := f) (after := framer) (by rw [halign.capture (by simp)]; exact hj) hs hserv
    have htake : ((s.setAlign k (s.receiver k).align false).capture.take
        (s.setAlign k (s.receiver k).align false).timing.stamp f.payload[n]) = _ := hlast s.timing.stamp f.payload[n]
    have hone : ((s.setAlign k (s.receiver k).align false).captureOctet f.payload[n]).capture = _ :=
      (captureOctet_capture _ _).trans (congrArg Prod.fst htake)
    have hkept := (halign.trans (touches_captureOctet _ f.payload[n])).trans
      (quietTasks_kept (s := (s.setAlign k (s.receiver k).align false).captureOctet f.payload[n]) (k := k)
        (a := (s.receiver k).align) (f := f) (after := framer) after)
    refine ⟨_, hexec, ?_, ?_, ?_⟩
    · rw [he, htask]
      refine Eq.trans (quietTasks_keep _ k _ f framer (fun t => t.capture = _) after hone fun t x hx ht => ?_) rfl
      by_cases hsup : x = .supervisor
      · subst hsup
        rw [supervisorTask_capture]
        split
        · exact (acceptances_of_ended (by rw [ht]) _ _ _).trans ht
        · exact ht
      · exact (quietTask_capture_other t k _ f framer hsup fun e => hafter (e ▸ hx)).trans ht
    · rw [he, htask]
      refine quietTasks_reports rfl (fun x hx hr => hafter (taskRaises_capture hr ▸ hx))
        (captureOctet_reports ?_ (congrArg Prod.snd htake))
      rw [halign.events (by simp)]
      have := load_le s.events
      have : s.events.ordinaryCount ≤ 32 := hroom
      omega
    · rw [he, htask]
      exact ⟨hkept.bank0 (by simp [completionBlocks]), hkept.bank1 (by simp [completionBlocks]),
        hkept.engine (by simp [completionBlocks]), hkept.outputs (by simp [completionBlocks]),
        hkept.lease (by simp [completionBlocks]), hkept.timing (by simp [completionBlocks])⟩
  · have hexec : exec (.captureDone f completion start) s = .next (s.outputStart (withEarly .capture start)) := by
      show execCaptureDone f completion start s = _
      obtain ⟨source, trigger, length⟩ := job
      cases hs
      unfold execCaptureDone
      simp only [hj]
      exact if_pos (by simp [he, State.captureEnds, Capture.endsWith, hlast])
    obtain ⟨now, -, hc, hrep⟩ := outputStart_captures hn (withEarly .capture start) hj hs he
    have ht := touches_outputStart hn (withEarly .capture start)
    rw [hlast] at hc hrep
    exact ⟨_, hexec, hc, hrep _ rfl hroom, ht.sups (by simp), ht.straps (by simp)⟩

end Sys2Proof.Machine
end

section
/-! SUPPORT. An output frame start that ends in a reset (R146): whatever its order, every part but the reset has come about
in the end, and the reset that the transmit queues showed before the start is then due. -/

namespace Sys2Proof.Machine

/-! ### The RA flag being sent (R53) -/

/-- No move of a command or an event touches the RA flag that is being sent. -/
theorem State.Work.raSent {s t : State} {bs : List Block} (h : s.Work bs t) (k : Highway) :
    (t.output k).raSent = (s.output k).raSent := by
  have ht := h.touches
  cases h with
  | outputs o h => exact h k
  | _ => rw [ht.output k (by simp)]

theorem works_raSent {s t : State} (h : s.Works t) (k : Highway) : (t.output k).raSent = (s.output k).raSent := by
  induction h with
  | refl => rfl
  | tail _ h ih => exact (h.choose_spec.raSent k).trans ih

/-! ### The start on its way -/

/-- What holds of the start of state `s` on its way: while no reset has taken effect (`whole`) a port that has given its
octets has brought about the reset that its transmit queue showed; every reserved place has its command, the ports of `l`
have given their octets and started what they start, and the RA flags are those of the receivers before the start. -/
structure StartRun.sound (s : State) (whole : Bool) (l : List PortId) (r : StartRun) : Prop where
  due     : whole = true → ∀ p ∈ r.taken, r.due p = s.resetNext p
  queued  : ∀ p ∈ r.reserved, (r.state.port p).commands ≠ []
  settled : ∀ p ∈ l, p ∈ r.taken ∧ p ∉ r.reserved
  raSent  : ∀ k, (r.state.output k).raSent = (s.receiver k).align.sendsRA

theorem beginStart_sound (s : State) (whole : Bool) : s.beginStart.sound s whole [] where
  due _ _ h := by cases h
  queued _ h := by cases h
  settled _ h := by cases h
  raSent k := by
    simp [State.beginStart, State.buildFrames, State.output, State.setOutputs, State.nextOutput]

section
variable {s : State} {whole : Bool} {l : List PortId} {done : Bool} {r : StartRun}

/-- A part that leaves the command queues and the RA flags keeps what holds of the start. -/
theorem sound_of_state (h : r.sound s whole l) {t : State}
    (hc : ∀ p, (t.port p).commands = (r.state.port p).commands)
    (hra : ∀ k, (t.output k).raSent = (r.state.output k).raSent) (f : State) (c : Option PendingCommit)
    (swaps begun : Bool) (slips : List Highway) (delivered : Bool) (handed : List Highway) :
    StartRun.sound s whole l
      { r with
        state := t, frame := f, swap := c, swaps := swaps, begun := begun, slips := slips, delivered := delivered
        handed := handed } where
  due hw p hp := by
    have := h.due hw p hp
    cases p <;> exact this
  queued p hp := by simpa [hc] using h.queued p hp
  settled := h.settled
  raSent k := (hra k).trans (h.raSent k)

theorem sound_of_restsAs (h : r.sound s whole l) {t : State} (ht : r.state.restsAs t) {bs : List Block}
    (hb : r.state.touches bs t) (ho : Block.outputs ∉ bs) (c : Option PendingCommit) (begun : Bool) :
    StartRun.sound s whole l { r with state := t, swap := c, begun := begun } :=
  sound_of_state h (fun p => (ht.ports p).commands) (fun k => by rw [hb.output k ho]) _ _ _ _ _ _ _

theorem takeTiming_sound (h : r.sound s whole l) : r.takeTiming.sound s whole l :=
  sound_of_restsAs h (restsAs_setTiming _ _) (touches_setTiming _ _) (by simp) _ _

theorem takeSlip_sound (h : r.sound s whole l) (k : Highway) : (r.takeSlip k).sound s whole l := by
  unfold StartRun.takeSlip
  split
  · exact sound_of_restsAs h (restsAs_repeatSlip _ k) (touches_repeatSlip _ k) (by simp) _ _
  · exact h

theorem takeSwap_sound (h : r.sound s whole l) : r.takeSwap.sound s whole l := by
  have hk := takeSwap_keepsQueues r
  unfold StartRun.takeSwap at hk ⊢
  split
  · rename_i c hc
    simp only [hc] at hk
    exact sound_of_state h hk.commands
      (fun k => by rw [(touches_makeSwap _ c).output k (by simp)]; simp [StartRun.takeTiming]) _ _ _ _ _ _ _
  · exact sound_of_state h (fun _ => rfl) (fun _ => rfl) _ _ _ _ _ _ _

theorem takeCopy_sound (h : r.sound s whole l) : r.takeCopy.sound s whole l := by
  unfold StartRun.takeCopy
  split
  · exact h
  · exact sound_of_restsAs h (restsAs_syncStep _) (touches_syncStep _) (by simp) _ _

/-- The octets of a port bring about the reset that its transmit queue showed (R141, R146). -/
theorem takeOctets_sound (hs : r.serves s done) (h : r.sound s whole l) (p : PortId) : (r.takeOctets p).sound s whole l := by
  by_cases hp : p ∈ r.taken
  · rwa [takeOctets_of_taken hp]
  have hk := takeOctets_keepsQueues r p
  have hn : p ∉ r.reserved := fun hm => hp (hs.reserved p hm).1
  have hreset : (r.frame.octetsFrom p (r.state.port p).transmit).2.2 = s.resetNext p := by
    rw [hs.frame]
    exact octetsFrom_reset_of_same (hs.transmit p hp)
  refine ⟨fun hw q hq => ?_, fun q hq => ?_, fun q hq => ?_, fun k => ?_⟩
  · have hd : q ∈ r.taken → r.due q = s.resetNext q := h.due hw q
    have hm : q = p ∨ q ∈ r.taken := by simpa [StartRun.takeOctets, hp] using hq
    rcases hm with rfl | hm
    · cases q <;> simpa [StartRun.takeOctets, hp, StartRun.due] using hreset
    · have hne : p ≠ q := fun e => hp (e ▸ hm)
      cases p <;> cases q <;> simp_all [StartRun.takeOctets, StartRun.due]
  · rw [hk.commands]
    by_cases hqr : q ∈ r.reserved
    · exact h.queued q hqr
    · have hc : q = p ∧ (r.state.port p).commands ≠ [] := by
        by_cases hcan : Port.canStart
            { r.state.port p with transmit := (r.frame.octetsFrom p (r.state.port p).transmit).2.1 } = true
        · refine ⟨by simpa [StartRun.takeOctets, hp, hcan, hqr] using hq, fun he => ?_⟩
          simp [Port.canStart, he] at hcan
        · simp [StartRun.takeOctets, hp, hcan, hqr] at hq
      rw [hc.1]
      exact hc.2
  · obtain ⟨hq1, hq2⟩ := h.settled q hq
    refine ⟨hk.taken q hq1, fun hm => ?_⟩
    have hne : q ≠ p := fun e => hp (e ▸ hq1)
    unfold StartRun.takeOctets at hm
    rw [if_neg hp] at hm
    simp only at hm
    split at hm
    · exact (List.mem_cons.mp hm).elim hne hq2
    · exact hq2 hm
  · refine Eq.trans ?_ (h.raSent k)
    unfold StartRun.takeOctets
    rw [if_neg hp]
    have hplace : ∀ x mgmt j, (((r.state.setPort p x).placeOctets r.frame j mgmt).output k).raSent =
        (r.state.output k).raSent := fun x mgmt j => by
      rw [works_raSent (works_placeOctets _ _ _ _) k]
      simp
    simp only
    split
    · rw [State.reservePlace, setPort_output]
      split
      · exact hplace _ _ _
      · simp
    · split
      · exact hplace _ _ _
      · simp

theorem handOctet_sound (hs : r.serves s done) (h : r.sound s whole l) (k : Highway) : (r.handOctet k).sound s whole l := by
  have hskip : StartRun.sound s whole l { r with handed := k :: r.handed } :=
    sound_of_state h (fun _ => rfl) (fun _ => rfl) _ _ _ _ _ _ _
  have hcapture : ∀ {q : StartRun} (o : Octet), q.sound s whole l →
      StartRun.sound s whole l { q with state := q.state.captureOctet o, handed := k :: r.handed, begun := true } :=
    fun {q} o hq => sound_of_state hq (fun p => ((restsAs_captureOctet _ o).ports p).commands)
      (fun j => by rw [(touches_captureOctet _ o).output j (by simp)]) _ _ _ _ _ _ _
  unfold StartRun.handOctet
  split
  · exact h
  · split
    · split
      · simp only
        split
        · exact hcapture _ (takeOctets_sound hs h _)
        · exact hcapture _ h
      · exact hskip
    · exact hskip
    · exact hskip

theorem takeCapture_sound (hs : r.serves s done) (h : r.sound s whole l) : r.takeCapture.sound s whole l :=
  (foldl_keeps (fun r => StartRun.serves s done r ∧ StartRun.sound s whole l r) _ _ _ ⟨hs, h⟩ fun _ k _ hr =>
    ⟨handOctet_serves hr.1 k, handOctet_sound hr.1 hr.2 k⟩).2

theorem before_sound (hs : r.serves s done) (h : r.sound s whole l) (c : Command) : (r.before c).sound s whole l := by
  unfold StartRun.before
  split
  · split
    · exact takeSwap_sound h
    · exact h
  · split
    · exact handOctet_sound hs h _
    · exact h
  · exact takeTiming_sound h
  all_goals exact h

theorem checkSwap_sound (h : r.sound s whole l) : r.checkSwap.sound s whole l := by
  unfold StartRun.checkSwap
  split
  · unfold StartRun.setSwap
    split
    · exact sound_of_state h (fun _ => rfl) (fun _ => rfl) _ _ _ _ _ _ _
    · exact sound_of_state h (fun p => by simp [State.rebuildFrames])
        (fun k => by simp [State.rebuildFrames, State.output, State.setOutputs]) _ _ _ _ _ _ _
  · exact h

/-- A port whose command is executed has no reserved place any more (R139). -/
theorem execute_sound (hs : r.serves s done) (h : r.sound s whole l) {p : PortId} (hp : p ∈ r.taken) :
    (r.execute p).sound s whole (p :: l) := by
  unfold StartRun.execute
  split
  · rename_i hr
    obtain ⟨q, rest, hq⟩ := List.exists_cons_of_ne_nil (h.queued p hr)
    have hk := before_keepsQueues r q.command
    have hu := before_sound hs h q.command
    have hhead := (hs.reserved p hr).2 q rest hq
    have hmem : q ∈ ((r.before q.command).state.port p).commands := by simp [hk.commands, hq]
    have hrun := (runsTo_executeCommand hmem hhead).trans (runsTo_runPort _ p)
    have hworks := (works_executeCommand q (List.ne_nil_of_mem hmem)).trans (works_runPort _ p)
    rw [hq]
    refine checkSwap_sound (r := { r.before q.command with
      state := _, reserved := (r.before q.command).reserved.filter (· ≠ p), delivered := _ }) ⟨?_, ?_, ?_, ?_⟩
    · intro hw o ho
      have := hu.due hw o ho
      cases o <;> exact this
    · intro o ho
      obtain ⟨ho, hne⟩ : o ∈ (r.before q.command).reserved ∧ o ≠ p := by simpa using ho
      simpa [(hrun.other o hne).commands] using hu.queued o ho
    · intro o ho
      rcases List.mem_cons.mp ho with rfl | ho
      · exact ⟨hk.taken _ hp, by simp⟩
      · exact ⟨(hu.settled o ho).1, fun hm => (hu.settled o ho).2 (List.mem_of_mem_filter hm)⟩
    · intro k
      exact (works_raSent hworks k).trans (hu.raSent k)
  · rename_i hr
    refine { h with settled := fun o ho => ?_ }
    rcases List.mem_cons.mp ho with rfl | ho
    · exact ⟨hp, hr⟩
    · exact h.settled o ho

theorem StartRun.sound.mono (h : r.sound s whole l) {m : List PortId} (hm : ∀ p ∈ m, p ∈ l) : r.sound s whole m :=
  { h with settled := fun p hp => h.settled p (hm p hp) }

theorem mem_taken_takeOctets (r : StartRun) (p : PortId) : p ∈ (r.takeOctets p).taken := by
  unfold StartRun.takeOctets
  split
  · assumption
  · exact List.mem_cons_self

theorem execute_taken (r : StartRun) (o p : PortId) (hp : p ∈ r.taken) : p ∈ (r.execute o).taken := by
  have hcheck : ∀ u : StartRun, u.checkSwap.taken = u.taken := fun u => by
    unfold StartRun.checkSwap StartRun.setSwap
    split
    · split <;> rfl
    · rfl
  unfold StartRun.execute
  split
  · split
    · rename_i q rest hq
      simp only
      rw [hcheck]
      exact (before_keepsQueues r q.command).taken p hp
    · exact hp
  · exact hp

/-- After the part of a port its octets are given and its command has started (R139, R143). -/
theorem startCommand_sound (hs : r.serves s done) (h : r.sound s whole l) (p : PortId) :
    (r.startCommand p).sound s whole (p :: l) := by
  have hq := takeOctets_sound hs h p
  have hqs := takeOctets_serves hs p
  have hp := mem_taken_takeOctets r p
  unfold StartRun.startCommand
  simp only
  split
  · have hx : ((r.takeOctets p).execute (otherPort p)).sound s whole l ∧
        p ∈ ((r.takeOctets p).execute (otherPort p)).taken := by
      by_cases ho : otherPort p ∈ (r.takeOctets p).reserved
      · have hot := (hqs.reserved _ ho).1
        exact ⟨(execute_sound hqs hq hot).mono fun _ => List.mem_cons_of_mem _, execute_taken _ _ p hp⟩
      · rw [StartRun.execute, if_neg ho]
        exact ⟨hq, hp⟩
    exact execute_sound (execute_serves hqs _) hx.1 hx.2
  · rename_i hr
    refine { hq with settled := fun o ho => ?_ }
    rcases List.mem_cons.mp ho with rfl | ho
    · exact ⟨hp, hr⟩
    · exact hq.settled o ho

end

end Sys2Proof.Machine
end

section
/-! SUPPORT. The cold reset at the end of an output frame start, and O43. -/

namespace Sys2Proof.Machine

/-! ### The start that ends in a cold reset (R146) -/

/-- A cold reset has taken effect: the frames being sent are those of the start, and every other block has its power-on
state. -/
structure StartRun.restarted (s : State) (r : StartRun) : Prop where
  cold   : r.cold = true
  lines  : r.sendsFrames s
  raSent : ∀ k, (r.state.output k).raSent = (s.receiver k).align.sendsRA
  reset   : ∃ u : State, u.pins = s.pins ∧ u.pending = s.pending ∧ r.state = u.resetCold

section
variable {s : State} {l : List PortId} {done : Bool} {r : StartRun}

/-- The reset of the part that takes the first one is due, once both ports have given their octets. -/
theorem resetDue_cold (h : r.sound s true l) (ha : .a ∈ r.taken) (hb : .b ∈ r.taken) {bFirst : Bool}
    (hc : s.resetNext (if bFirst then .b else .a) = some .cold) : r.resetDue bFirst = some .cold := by
  have h1 : r.resetA = s.resetNext .a := h.due rfl .a ha
  have h2 : r.resetB = s.resetNext .b := h.due rfl .b hb
  unfold StartRun.resetDue
  cases bFirst <;> simp_all

theorem resetCold_raSent (u : State) (k : Highway) : (u.resetCold.output k).raSent = (u.output k).raSent := by
  simp [State.resetCold, State.output, State.setOutputs]

/-- The reset takes effect as soon as it is ready (R146). -/
theorem takeReset_restarts (hs : r.serves s done) (h : r.sound s true l) (hst : s.Starts r.state) {bFirst : Bool}
    (hc : s.resetNext (if bFirst then .b else .a) = some .cold) :
    r.resetReady = true ∧ (r.takeReset bFirst).restarted s ∨ r.resetReady = false ∧ r.takeReset bFirst = r := by
  by_cases hready : r.resetReady = true
  · refine .inl ⟨hready, ?_⟩
    have hr := hready
    simp only [StartRun.resetReady, Bool.and_eq_true, decide_eq_true_eq] at hr
    obtain ⟨⟨⟨-, ha⟩, hb⟩, -⟩ := hr
    have hdue := resetDue_cold h ha hb hc
    have hcold := takeReset_serves hs bFirst
    have ht := touches_of_starts hst
    unfold StartRun.takeReset at hcold ⊢
    simp only [hready, hdue, if_true] at hcold ⊢
    have he := hcold.resolve_left fun hw => by cases hw.warm
    exact ⟨rfl, he.sending, fun k => (resetCold_raSent _ k).trans (h.raSent k),
      ⟨r.state, ht.pins (by simp), ht.pending (by simp), rfl⟩⟩
  · exact .inr ⟨by simpa using hready, if_neg hready⟩

/-- The ports whose commands part `x` starts. -/
def partSettles : StartTask → List PortId
  | .start p => [p]
  | .timing | .slip _ | .swap | .copy | .take _ | .capture | .leaseTick | .listTick | .reset => []

/-- A part that is no reset keeps what holds of the start. -/
theorem task_sound_of_ne {whole : Bool} (hs : r.serves s done) (h : r.sound s whole l) (order : StartOrder) {x : StartTask}
    (hx : x ≠ .reset) : (r.task order x).cold = false ∧ (r.task order x).sound s whole (partSettles x ++ l) := by
  unfold StartRun.task
  rw [if_neg (by simp [hs.warm])]
  cases x with
  | timing => exact ⟨hs.warm, takeTiming_sound h⟩
  | slip k => exact ⟨(takeSlip_serves hs k).warm, takeSlip_sound h k⟩
  | swap => exact ⟨(takeSwap_serves hs).warm, takeSwap_sound h⟩
  | copy => exact ⟨(takeCopy_serves hs).warm, takeCopy_sound h⟩
  | take p => exact ⟨(takeOctets_serves hs p).warm, takeOctets_sound hs h p⟩
  | start p => exact ⟨(startCommand_serves hs p).warm, startCommand_sound hs h p⟩
  | capture => exact ⟨(takeCapture_serves hs).warm, takeCapture_sound hs h⟩
  | leaseTick =>
    simp only
    split
    · exact ⟨hs.warm, sound_of_restsAs h (restsAs_leaseTick _) (touches_leaseTick _) (by simp) _ _⟩
    · exact ⟨hs.warm, h⟩
  | listTick =>
    simp only
    split
    · exact ⟨hs.warm, sound_of_restsAs h (restsAs_listTick _ _ _) (touches_listTick _ _ _) (by simp) _ _⟩
    · exact ⟨hs.warm, h⟩
  | reset => exact absurd rfl hx

/-- Each part leaves the start on its way to the reset, or the reset has taken effect. -/
theorem task_sound (hs : r.serves s done) (h : r.sound s true l) (hst : s.Starts r.state) (order : StartOrder)
    (hc : s.resetNext (if order.resetBFirst then .b else .a) = some .cold) (x : StartTask) :
    (r.task order x).serves s (done || decide (x = .swap)) ∧ (r.task order x).sound s true (partSettles x ++ l) ∧
      s.Starts (r.task order x).state ∨ (r.task order x).restarted s := by
  by_cases hx : x = .reset
  · subst hx
    have ht : r.task order .reset = r.takeReset order.resetBFirst := by
      rw [StartRun.task, if_neg (by simp [hs.warm])]
    rw [ht]
    rcases takeReset_restarts hs h hst hc with ⟨-, hr⟩ | ⟨-, hr⟩
    · exact .inr hr
    · exact .inl ⟨by rw [hr]; simpa using hs, by rw [hr]; exact h, by rw [hr]; exact hst⟩
  obtain ⟨hwarm, hsound⟩ := task_sound_of_ne hs h order hx
  refine .inl ⟨(task_serves hs order x).resolve_right fun he => by simp [he.cold] at hwarm, hsound, ?_⟩
  exact (starts_task r order x).elim (hst.trans ·) fun he => by simp [he.1] at hwarm

/-- The whole start: the reset that the transmit queue of the port showed takes effect at its end at the latest. -/
theorem outputStart_restarts (s : State) (order : StartOrder)
    (hc : s.resetNext (if order.resetBFirst then .b else .a) = some .cold) :
    ∃ r : StartRun, r.restarted s ∧ s.outputStart order = r.state := by
  have hfold : ∀ (m : List StartTask) (d : Bool) (l : List PortId) (r : StartRun),
      (r.serves s d ∧ r.sound s true l ∧ s.Starts r.state ∨ r.restarted s) →
      (∃ l', (m.foldl (fun r x => r.task order x) r).serves s (d || decide (.swap ∈ m)) ∧
          (m.foldl (fun r x => r.task order x) r).sound s true l' ∧ (∀ p, p ∈ l ∨ .start p ∈ m → p ∈ l') ∧
          s.Starts (m.foldl (fun r x => r.task order x) r).state) ∨
        (m.foldl (fun r x => r.task order x) r).restarted s := by
    intro m
    induction m with
    | nil => exact fun d l r h => h.imp_left fun ⟨h1, h2, h3⟩ => ⟨l, by simpa using h1, h2, by simp, h3⟩
    | cons x m ih =>
      intro d l r h
      rcases h with ⟨h1, h2, h3⟩ | h
      · refine (ih _ (partSettles x ++ l) _ (task_sound h1 h2 h3 order hc x)).imp_left ?_
        rintro ⟨l', g1, g2, g3, g4⟩
        refine ⟨l', by simpa [Bool.or_assoc, eq_comm] using g1, g2, fun p hp => g3 p ?_, g4⟩
        rcases hp with hp | hp
        · exact .inl (List.mem_append_right _ hp)
        · rcases List.mem_cons.mp hp with rfl | hp
          · exact .inl (by simp [partSettles])
          · exact .inr hp
      · exact .inr (foldl_keeps (StartRun.restarted s) _ _ _ h fun q x _ hq => by rwa [task_of_cold hq.cold])
  have hb : s.Starts s.beginStart.state := State.StartMove.select.starts.tail ⟨_, .frames _⟩
  have hall := hfold (startParts order) false [] s.beginStart
    (.inl ⟨beginStart_serves s, beginStart_sound s true, hb⟩)
  rcases hall with ⟨l, h1, h2, h3, h4⟩ | h
  · rw [decide_eq_true (mem_startParts order .swap)] at h1
    have ha := h2.settled .a (h3 .a (.inr (mem_startParts order _)))
    have hb := h2.settled .b (h3 .b (.inr (mem_startParts order _)))
    refine ⟨_, ?_, rfl⟩
    rw [StartRun.task, if_neg (by simp [h1.warm])]
    refine ((takeReset_restarts h1 h2 h4 hc).resolve_right fun hr => ?_).2
    have hres : ((startParts order).foldl (fun r x => r.task order x) s.beginStart).reserved = [] :=
      List.eq_nil_iff_forall_not_mem.mpr fun p => by cases p; exacts [ha.2, hb.2]
    have hn := (h1.finished rfl).2
    simp only [StartRun.resetReady, ha.1, hb.1, hres] at hr
    simp [hn] at hr
  · exact ⟨_, by rw [task_of_cold h.cold]; exact h, rfl⟩

end

/-- Settles O43: the reset is the one due first, and is ready at the end of the start at the latest. The frames being sent
are those of the start, and their RA flags are those of the receivers before it. -/
theorem coldResetTakesEffect : Obligations.ColdResetTakesEffect := by
  intro pins order s hc
  have hrun : ∃ o : StartOrder, exec (.coldResetEffect pins order) s = .next ((s.setPins pins).outputStart o) ∧
      (s.setPins pins).resetNext (if o.resetBFirst then .b else .a) = some .cold := by
    by_cases ha : s.resetNext .a = some .cold
    · exact ⟨{ order with resetBFirst := false }, by simp only [exec, execColdResetEffect, if_pos ha], ha⟩
    · exact ⟨{ order with resetBFirst := true },
        by simp only [exec, execColdResetEffect, if_neg ha, if_pos (hc.resolve_left ha)], hc.resolve_left ha⟩
  obtain ⟨o, hexec, hdue⟩ := hrun
  obtain ⟨r, hr, he⟩ := outputStart_restarts (s.setPins pins) o hdue
  obtain ⟨u, hp, hq, hu⟩ := hr.reset
  refine ⟨_, hexec, ?_, fun k => ?_⟩
  · rw [he, hu]
    simp only [State.resetCold, State.resetPowerOn, hp, hq, State.setOutputs]
    rfl
  · have hset : (r.state.output k).enabled = true ∧ (r.state.output k).idleOctet = 0xFF ∧
        (r.state.output k).idleCode = 0 := by
      rw [hu]
      simp [State.resetCold, State.output, State.setOutputs, State.resetPowerOn, State.powerOn, initialOutput]
    obtain ⟨hon, hoff⟩ := hr.lines.lines k
    rw [hr.lines.frame] at hon hoff
    simp only [setActiveBank_output, frameState_output] at hon hoff
    rw [he]
    refine ⟨hset.1, hset.2.1, hset.2.2, hoff, fun hen => ?_⟩
    obtain ⟨mgmt, hl⟩ := hon hen
    rw [hl, buildLine_marker, hr.raSent k, setActiveBank_receiver, frameState_receiver, setActiveBank_timing,
      frameState_timing, advance_frame]
    rfl

end Sys2Proof.Machine
end

section
/-! SUPPORT. A start at which a warm reset takes effect (R146): its parts before the reset are those of a start at which
nothing waits, and those after it find a fresh event list, fresh ports, and no lease and no capture. -/

namespace Sys2Proof.Machine

section
variable {s : State} {r : StartRun}

/-! ### Before the reset -/

/-- A run of parts without the reset: the start stays calm, a swap that is due is made by its part, and a port gives its
octets at its part. -/
theorem tasks_calm (order : StartOrder) {l : List StartTask} (h : r.calm s false) (hl : .reset ∉ l) :
    (r.tasks order l).calm s false ∧ (.swap ∈ l ∨ r.swap = none → (r.tasks order l).swap = none) ∧
      ∀ p, .take p ∈ l ∨ p ∈ r.taken → p ∈ (r.tasks order l).taken := by
  induction l generalizing r with
  | nil => exact ⟨h, by simp [StartRun.tasks], by simp [StartRun.tasks]⟩
  | cons x l ih =>
    have hx : x ≠ .reset := fun e => hl (e ▸ List.mem_cons_self)
    obtain ⟨h1, h2, h3⟩ := ih (task_calm h order hx) fun hm => hl (List.mem_cons_of_mem _ hm)
    refine ⟨h1, fun hs => h2 ?_, fun p hp => h3 p ?_⟩
    · by_cases hsw : x = .swap
      · right
        subst hsw
        rw [task_swap h.warm]
        unfold StartRun.takeSwap
        split
        · rfl
        · assumption
      · refine (hs.imp_left fun hm => (List.mem_cons.mp hm).resolve_left fun e => hsw e.symm).imp_right fun hn => ?_
        rw [task_swap_other h order hx hsw, hn]
    · rcases hp with hp | hp
      · rcases List.mem_cons.mp hp with rfl | hp
        · right
          rw [task_take h.warm]
          exact mem_taken_takeOctets r p
        · exact .inl hp
      · right
        obtain ⟨q, t, ht⟩ := task_partOf h order hx
        rw [ht.taken]
        rcases ht.gives with rfl | ⟨p', rfl⟩
        · exact hp
        · exact (mem_takeOctets_taken h p p').mpr (.inr hp)

/-- What every part before the reset keeps, a run of them keeps. -/
theorem tasks_keep_calm (P : StartRun → Prop) (order : StartOrder) {l : List StartTask} (h : r.calm s false)
    (hl : .reset ∉ l) (h0 : P r)
    (hstep : ∀ q, q.calm s false → ∀ x ∈ l, x ≠ .reset → P q → P (q.task order x)) : P (r.tasks order l) :=
  (foldl_keeps (fun q => q.calm s false ∧ P q) _ l r ⟨h, h0⟩ fun q x hx ⟨hq, hp⟩ =>
    have hr : x ≠ .reset := fun e => hl (e ▸ hx)
    ⟨task_calm hq order hr, hstep q hq x hx hr hp⟩).2

/-! ### After the reset -/

/-- What a part does after the reset. -/
def State.later (s : State) (order : StartOrder) (t : State) : StartTask → State
  | .timing => t.setTiming s.timing.advance
  | .slip k => if s.repeats k then t.repeatSlip k else t
  | .copy => if s.swapsNext then t else t.syncStep
  | .listTick => if s.tickNext then t.listTick order.timerFirst false else t
  | .swap | .take _ | .start _ | .capture | .leaseTick | .reset => t

/-- What holds of the start of state `s` once a warm reset has taken effect. -/
structure StartRun.after (s : State) (r : StartRun) : Prop where
  frame     : r.frame = s.frameState
  swaps     : r.swaps = s.swapsNext
  swap      : r.swap = none
  slips     : r.slips = highways.filter s.repeats
  tick      : r.tick = s.tickNext
  warm      : r.cold = false
  reserved  : r.reserved = []
  delivered : r.delivered = false
  taken     : ∀ p, p ∈ r.taken
  due       : ∀ p, r.due p = none
  capture   : r.state.capture = initialCapture
  holder    : r.state.lease.holder = none

theorem later_touches (order : StartOrder) (t : State) (x : StartTask) :
    t.touches [.timing, .receivers, .bank0, .bank1, .engine, .events, .portA, .portB, .draws] (s.later order t x) := by
  cases x with
  | timing => exact (touches_setTiming t _).mono (by simp)
  | slip k =>
    unfold State.later
    simp only
    split
    · exact (touches_repeatSlip t k).mono (by simp)
    · exact touches_refl _ _
  | copy =>
    unfold State.later
    simp only
    split
    · exact touches_refl _ _
    · exact (touches_syncStep t).mono (by simp)
  | listTick =>
    unfold State.later
    simp only
    split
    · exact (touches_listTick t _ _).mono (by simp)
    · exact touches_refl _ _
  | _ => exact touches_refl _ _

theorem StartRun.after.take (h : r.after s) (p : PortId) : r.takeOctets p = r := takeOctets_of_taken (h.taken p)

/-- A part after the reset. -/
theorem task_after (h : r.after s) (order : StartOrder) (x : StartTask) :
    (r.task order x).after s ∧ (r.task order x).state = s.later order r.state x := by
  have keep : ∀ {r' : StartRun}, r'.state = s.later order r.state x → r'.frame = r.frame → r'.swaps = r.swaps →
      r'.swap = none → r'.slips = r.slips → r'.tick = r.tick → r'.cold = r.cold → r'.reserved = r.reserved →
      r'.delivered = r.delivered → r'.taken = r.taken → r'.due = r.due →
      r'.after s ∧ r'.state = s.later order r.state x := by
    intro r' hs h1 h2 h3 h4 h5 h6 h7 h8 h9 h10
    have ht := later_touches (s := s) order r.state x
    refine ⟨⟨h1.trans h.frame, h2.trans h.swaps, h3, h4.trans h.slips, h5.trans h.tick, h6.trans h.warm,
      h7.trans h.reserved, h8.trans h.delivered, fun p => h9 ▸ h.taken p, fun p => h10 ▸ h.due p, ?_, ?_⟩, hs⟩
    · rw [hs, ht.capture (by simp), h.capture]
    · rw [hs, ht.lease (by simp), h.holder]
  cases x with
  | timing =>
    rw [task_timing h.warm]
    refine keep ?_ rfl rfl h.swap rfl rfl rfl rfl rfl rfl rfl
    rw [StartRun.takeTiming, h.frame, frameState_timing]
    rfl
  | slip k =>
    rw [task_slip h.warm]
    unfold StartRun.takeSlip
    split
    · rename_i hk
      have hk' : s.repeats k = true := by simpa [h.slips, mem_highways] using hk
      exact keep (by simp [State.later, hk']) rfl rfl h.swap rfl rfl rfl rfl rfl rfl rfl
    · rename_i hk
      have hk' : s.repeats k = false := by simpa [h.slips, mem_highways] using hk
      exact keep (by simp [State.later, hk']) rfl rfl h.swap rfl rfl rfl rfl rfl rfl rfl
  | swap =>
    rw [task_swap h.warm, takeSwap_of_none h.swap]
    exact keep rfl rfl rfl h.swap rfl rfl rfl rfl rfl rfl rfl
  | copy =>
    rw [task_copy h.warm]
    unfold StartRun.takeCopy
    split
    · rename_i hsw
      exact keep (by simp [State.later, ← h.swaps, hsw]) rfl rfl h.swap rfl rfl rfl rfl rfl rfl rfl
    · rename_i hsw
      exact keep (by simp [State.later, ← h.swaps, hsw]) rfl rfl h.swap rfl rfl rfl rfl rfl rfl rfl
  | take p =>
    rw [task_take h.warm, h.take]
    exact keep rfl rfl rfl h.swap rfl rfl rfl rfl rfl rfl rfl
  | start p =>
    have hstart : r.startCommand p = r := by
      unfold StartRun.startCommand
      simp [h.take, h.reserved]
    rw [task_start h.warm, hstart]
    exact keep rfl rfl rfl h.swap rfl rfl rfl rfl rfl rfl rfl
  | capture =>
    obtain ⟨hs, heq⟩ := takeCapture_of_spent (r := r) fun k n job hj => by rw [h.capture] at hj; cases hj
    rw [task_capture h.warm, heq]
    exact keep rfl rfl rfl h.swap rfl rfl rfl rfl rfl rfl rfl
  | leaseTick =>
    have htick : r.state.leaseTick = r.state := by
      unfold State.leaseTick
      rw [h.holder]
    rw [task_leaseTick h.warm, htick]
    split
    · exact keep rfl rfl rfl h.swap rfl rfl rfl rfl rfl rfl rfl
    · exact keep rfl rfl rfl h.swap rfl rfl rfl rfl rfl rfl rfl
  | listTick =>
    rw [task_listTick h.warm]
    split
    · rename_i ht
      exact keep (by simp [State.later, ← h.tick, ht, h.delivered]) rfl rfl h.swap rfl rfl rfl rfl rfl rfl rfl
    · rename_i ht
      exact keep (by simp [State.later, ← h.tick, ht]) rfl rfl h.swap rfl rfl rfl rfl rfl rfl rfl
  | reset =>
    have hA : r.resetA = none := h.due .a
    have hB : r.resetB = none := h.due .b
    have hreset : r.takeReset order.resetBFirst = r := by simp [StartRun.takeReset, StartRun.resetDue, hA, hB]
    rw [task_reset h.warm, hreset]
    exact keep rfl rfl rfl h.swap rfl rfl rfl rfl rfl rfl rfl

theorem tasks_after (h : r.after s) (order : StartOrder) (l : List StartTask) :
    (r.tasks order l).after s ∧ (r.tasks order l).state = l.foldl (s.later order) r.state := by
  induction l generalizing r with
  | nil => exact ⟨h, rfl⟩
  | cons x l ih =>
    obtain ⟨h1, h2⟩ := task_after h order x
    obtain ⟨h3, h4⟩ := ih h1
    exact ⟨h3, h4.trans (by rw [h2]; rfl)⟩

/-! ### The reset -/

/-- A warm reset is due at one port, nothing at the other, and no command can start (R145, R146). -/
structure State.warmNext (s : State) (p : PortId) : Prop where
  due   : s.resetNext p = some .warm
  other : s.resetNext (otherPort p) = none
  still : ∀ q, (s.port q).still

theorem resetDue_warm {p : PortId} (hw : s.warmNext p) (h : r.calm s false) (ht : ∀ p, p ∈ r.taken) (bFirst : Bool) :
    r.resetDue bFirst = some .warm := by
  have hA : r.resetA = s.resetNext .a := by simpa [StartRun.due, ht] using h.due .a
  have hB : r.resetB = s.resetNext .b := by simpa [StartRun.due, ht] using h.due .b
  obtain ⟨hd, ho, -⟩ := hw
  unfold StartRun.resetDue
  cases p <;> cases bFirst <;> simp_all [otherPort]

/-- The reset takes effect once the swap has been made and both ports have given their octets (R146). -/
theorem takeReset_warm {p : PortId} (hw : s.warmNext p) (h : r.calm s false) (bFirst : Bool) :
    (r.swap = none ∧ (∀ p, p ∈ r.taken) ∧ (r.takeReset bFirst).after s ∧
        (r.takeReset bFirst).state = r.state.resetWarm) ∨
      ¬(r.swap = none ∧ ∀ p, p ∈ r.taken) ∧ r.takeReset bFirst = r := by
  by_cases hready : r.swap = none ∧ ∀ p, p ∈ r.taken
  · obtain ⟨hs, ht⟩ := hready
    have hr : r.resetReady = true := by simp [StartRun.resetReady, hs, ht, h.reserved]
    have heq : r.takeReset bFirst =
        { r with state := r.state.resetWarm, delivered := false, resetA := none, resetB := none } := by
      unfold StartRun.takeReset
      rw [if_pos hr, resetDue_warm hw h ht bFirst]
    rw [heq]
    exact .inl ⟨hs, ht, ⟨h.frame, h.swaps, hs, h.slips, h.tick, h.warm, h.reserved, rfl, ht,
      fun p => by cases p <;> rfl, rfl, rfl⟩, rfl⟩
  · refine .inr ⟨hready, ?_⟩
    have hr : ¬r.resetReady = true := by
      simp only [StartRun.resetReady, Bool.and_eq_true, Option.isNone_iff_eq_none, decide_eq_true_eq]
      rintro ⟨⟨⟨h1, h2⟩, h3⟩, -⟩
      exact hready ⟨h1, fun p => by cases p <;> assumption⟩
    exact if_neg hr

/-- A start at which a warm reset takes effect: parts before the reset, the reset, and parts after it (R146). -/
theorem outputStart_warm {p : PortId} (hw : s.warmNext p) (order : StartOrder) :
    ∃ (before after : List StartTask) (q : StartRun), q = s.beginStart.tasks order before ∧ q.calm s false ∧
      q.swap = none ∧ .reset ∉ before ∧ (∀ x, x ≠ .reset → x ∈ before ∨ x ∈ after) ∧ (before ++ after).Nodup ∧
      s.outputStart order = after.foldl (s.later order) q.state.resetWarm := by
  obtain ⟨b, a, hl, hb, ha, -⟩ := startParts_split order .reset
  have h0 := beginStart_calm hw.still
  obtain ⟨hq, -, -⟩ := tasks_calm order h0 hb
  have hmem : ∀ x, x ≠ .reset → x ∈ b ∨ x ∈ a := fun x hx => by
    have := mem_startParts order x
    rw [hl] at this
    simpa [hx] using this
  have hnd : (b ++ a).Nodup := by
    have := startParts_nodup order
    rw [hl] at this
    exact this.sublist ((List.Sublist.refl b).append (List.sublist_cons_self _ a))
  have hrun : s.outputStart order =
      ((((s.beginStart.tasks order b).task order .reset).tasks order a).task order .reset).state := by
    unfold State.outputStart
    simp only [hl, List.foldl_append, List.foldl_cons]
    rfl
  rcases takeReset_warm hw hq order.resetBFirst with ⟨hs, ht, haft, hst⟩ | ⟨hn, heq⟩
  · refine ⟨b, a, _, rfl, hq, hs, hb, hmem, hnd, ?_⟩
    rw [hrun, task_reset hq.warm]
    obtain ⟨h1, h2⟩ := tasks_after haft order a
    rw [(task_after h1 order .reset).2, h2, hst]
    rfl
  · have hcat : ((s.beginStart.tasks order b).tasks order a) = s.beginStart.tasks order (b ++ a) :=
      (List.foldl_append ..).symm
    have hba : StartTask.reset ∉ b ++ a := by simp [hb, ha]
    obtain ⟨hq', hswap, htaken⟩ := tasks_calm order h0 hba
    have hs' := hswap (.inl (List.mem_append.mpr (hmem .swap (by simp))))
    have ht' : ∀ p, p ∈ (s.beginStart.tasks order (b ++ a)).taken := fun p =>
      htaken p (.inl (List.mem_append.mpr (hmem (.take p) (by simp))))
    refine ⟨b ++ a, [], _, rfl, hq', hs', hba, fun x hx => .inl (List.mem_append.mpr (hmem x hx)), by simpa using hnd,
      ?_⟩
    rw [hrun, task_reset hq.warm, heq, hcat, task_reset hq'.warm]
    rcases takeReset_warm hw hq' order.resetBFirst with ⟨-, -, -, hst⟩ | ⟨hn', -⟩
    · exact hst
    · exact absurd ⟨hs', ht'⟩ hn'

end

end Sys2Proof.Machine
end

section
/-! SUPPORT. The event list and the ports after a warm reset, while the parts of the start behind it go on (R128, R149). -/

namespace Sys2Proof.Machine

/-! ### The fresh list and the fresh ports -/

/-- The ports and the list after a warm reset: list `l0` with the entries `es`, and ports that hold nothing but at most
`n` NOTICE messages. While the condition has not been true nothing has been offered (R123, R124). -/
structure State.restartedWith (n : Nat) (l0 : EventList) (es : List Event) (t : State) : Prop where
  list  : t.events = { l0 with entries := es, timer := t.events.timer, attn := t.events.attn }
  attn  : t.events.attn = t.events.condition
  quiet : t.events.attn = false → t.events.timer = none ∧ ∀ p, (t.port p).transmit = []
  ports : ∀ p, ∃ places : List Place, t.port p = { initialPort with transmit := places } ∧ places.length ≤ n ∧
    ∀ x ∈ places, ∃ notice, x = .message notice none ∧ notice.take 4 = [0xB4, 0x08, 0x00, 0xC0]

section
variable {n : Nat} {l0 : EventList} {es : List Event} {t : State}

theorem State.restartedWith.mono (h : t.restartedWith n l0 es) {m : Nat} (hm : n ≤ m) : t.restartedWith m l0 es :=
  ⟨h.list, h.attn, h.quiet, fun p =>
    have ⟨places, h1, h2, h3⟩ := h.ports p
    ⟨places, h1, h2.trans hm, h3⟩⟩

theorem State.restartedWith.of_touches (h : t.restartedWith n l0 es) {u : State} {bs : List Block}
    (ht : t.touches bs u) (he : Block.events ∉ bs) (ha : Block.portA ∉ bs) (hb : Block.portB ∉ bs) :
    u.restartedWith n l0 es := by
  have hev := ht.events he
  have hp : ∀ p, u.port p = t.port p := fun p => ht.port p ha hb
  exact ⟨by rw [hev]; exact h.list, by rw [hev]; exact h.attn, by rw [hev]; simpa [hp] using h.quiet,
    fun p => by rw [hp]; exact h.ports p⟩

/-- NOTICE messages offered to ports with room are queued, and nothing is dropped (R123). -/
theorem restartedWith_offerNotices (hn : n < 6) (hl : t.events = { l0 with entries := es, timer := t.events.timer, attn := t.events.attn })
    (ha : t.events.attn = true) (hc : t.events.condition = true)
    (hp : ∀ p, ∃ places : List Place, t.port p = { initialPort with transmit := places } ∧ places.length ≤ n ∧
      ∀ x ∈ places, ∃ notice, x = .message notice none ∧ notice.take 4 = [0xB4, 0x08, 0x00, 0xC0]) :
    t.offerNotices.restartedWith (n + 1) l0 es := by
  have hplace : ∀ p, (t.port p).hasPlace = true := fun p => by
    obtain ⟨places, h1, h2, -⟩ := hp p
    rw [h1]
    exact decide_eq_true (show places.length < 6 by omega)
  have hev : t.offerNotices.events = t.events := by
    have hd : ∀ p, t.dropsNotice p = false := fun p => by simp [State.dropsNotice, hplace]
    unfold State.offerNotices
    simp only [hd]
    rw [queueNotice_events, queueNotice_events]
  refine ⟨by rw [hev]; exact hl, by rw [hev, ha, hc], (fun h => by rw [hev, ha] at h; cases h), fun p => ?_⟩
  obtain ⟨places, h1, h2, h3⟩ := hp p
  rw [offerNotices_port]
  cases hen : t.portEnabled p with
  | false => exact ⟨places, by simpa [Port.offered] using h1, by omega, h3⟩
  | true =>
    refine ⟨places ++ [.message t.events.notice none], ?_, by simpa using h2, fun x hx => ?_⟩
    · rw [offered_of_place (hplace p), h1]
    · rcases List.mem_append.mp hx with hx | hx
      · exact h3 x hx
      · exact ⟨_, by simpa using hx, notice_take t.events⟩

/-- An occurrence that no entry of the list takes makes a new entry, and what the ports hear of it is one NOTICE at most
(R109, R122, R123). -/
theorem restartedWith_raise (h : t.restartedWith n l0 es) (hn : 1 ≤ n) {key : EventKey} (v : EventValue)
    (hkey : ∀ e ∈ es, e.accepts key = false) (hroom : es.length < 63) :
    (t.raise key v).restartedWith n l0 (es ++ [newEntry key v t.timing.stamp]) := by
  have hes : t.events.entries = es := by rw [h.list]
  have htake : t.events.take key v t.timing.stamp =
      { t.events with entries := es ++ [newEntry key v t.timing.stamp] } := by
    rw [take_of_room, hes]
    · rw [hes]; simpa using hkey
    · exact (List.countP_le_length.trans_eq (congrArg List.length hes)).trans_lt hroom
  have hev : (t.takeOccurrence key v).events = { t.events with entries := es ++ [newEntry key v t.timing.stamp] } :=
    htake
  by_cases ha : t.events.attn = true
  · have hc : t.events.condition = true := h.attn ▸ ha
    rw [raise_of_attending hc ha]
    have hcond := condition_take hc key v t.timing.stamp
    have hattn := take_attn t.events key v t.timing.stamp
    have hone : State.restartedWith n l0 (es ++ [newEntry key v t.timing.stamp]) (t.takeOccurrence key v) := by
      refine ⟨?_, ?_, fun hq => ?_, h.ports⟩
      · rw [hev, h.list]
      · exact (hattn.trans ha).trans hcond.symm
      · exact absurd ((hattn.symm.trans hq).symm.trans ha) Bool.false_ne_true
    exact hone
  · have ha : t.events.attn = false := by simpa using ha
    obtain ⟨htimer, htx⟩ := h.quiet ha
    have hattn := (take_attn t.events key v t.timing.stamp).trans ha
    by_cases hc : (t.events.take key v t.timing.stamp).condition = true
    · have hraise : t.raise key v = ((t.takeOccurrence key v).setEvents { (t.takeOccurrence key v).events with
          attn := true, timer := startedTimer (t.takeOccurrence key v).events.interval }).offerNotices :=
        settle_of_rising hc hattn
      rw [hraise]
      refine (restartedWith_offerNotices (n := 0) (by omega) ?_ rfl ?_ fun p => ?_).mono (by omega)
      · rw [setEvents_events, hev, h.list]
      · exact hc
      · obtain ⟨places, h1, -, -⟩ := h.ports p
        have := htx p
        refine ⟨[], ?_, le_rfl, fun x hx => by cases hx⟩
        simp only [setEvents_port, State.takeOccurrence]
        rw [h1] at this ⊢
        simpa using this
    · have hset : t.raise key v = t.takeOccurrence key v :=
        settleAttention_of_settled (hattn.trans (Bool.eq_false_iff.mpr hc).symm)
      rw [hset]
      refine ⟨?_, hattn.trans (by simpa [State.takeOccurrence] using hc), fun _ => ?_, fun p => by simpa [State.takeOccurrence] using h.ports p⟩
      · rw [hev, h.list]
      · rw [hev]
        exact ⟨htimer, htx⟩

/-- A tick at the list: there is no batch, and the timer runs only after an offer (R119, R124). -/
theorem restartedWith_listTick (h : t.restartedWith n l0 es) (hn : n < 6) (hb : l0.batch = none) (timerFirst : Bool) :
    (t.listTick timerFirst false).restartedWith (n + 1) l0 es := by
  have hhold : ∀ {u : State} {m : Nat}, u.restartedWith m l0 es → u.holdTick = u := fun {u m} hu => by
    unfold State.holdTick
    rw [hu.list, hb]
  have htick : (t.timerTick t.events.timer false).restartedWith (n + 1) l0 es := by
    unfold State.timerTick
    split
    · exact h.mono (by omega)
    · rename_i x hx
      have ha : t.events.attn = true := by
        by_contra hn'
        rw [(h.quiet (by simpa using hn')).1] at hx
        cases hx
      have hc : t.events.condition = true := h.attn ▸ ha
      split
      · refine ⟨?_, ?_, fun hq => ?_, fun p => ?_⟩
        · rw [setEvents_events, h.list]
        · exact ha.trans hc.symm
        · exact absurd (hq.symm.trans ha) Bool.false_ne_true
        · obtain ⟨places, h1, h2, h3⟩ := h.ports p
          exact ⟨places, h1, by omega, h3⟩
      · refine restartedWith_offerNotices hn ?_ ha hc h.ports
        rw [setEvents_events, h.list]
  unfold State.listTick
  split
  · rw [hhold htick]
    exact htick
  · rw [hhold h]
    exact htick

end

end Sys2Proof.Machine
end

section
/-! SUPPORT. What a start with a warm reset leaves, and O44. -/

namespace Sys2Proof.Machine

/-- A run over distinct parts, by the parts that it has seen. -/
theorem foldl_seen {α σ : Type} (f : σ → α → σ) (P : List α → σ → Prop) {l : List α} (hnd : l.Nodup) {t : σ}
    (h0 : P [] t)
    (hstep : ∀ seen x t, x ∈ l → x ∉ seen → seen.length < l.length → P seen t → P (x :: seen) (f t x)) :
    P l.reverse (l.foldl f t) := by
  suffices h : ∀ (m seen : List α) (t : σ), l = seen.reverse ++ m → P seen t → P l.reverse (m.foldl f t) from
    h l [] t rfl h0
  intro m
  induction m with
  | nil =>
    intro seen t hl ht
    have : l.reverse = seen := by simp [hl]
    rwa [this]
  | cons x m ih =>
    intro seen t hl ht
    have hx : x ∉ seen := fun hm => by
      rw [hl] at hnd
      exact List.disjoint_of_nodup_append hnd (List.mem_reverse.mpr hm) List.mem_cons_self
    refine ih (x :: seen) _ (by simp [hl]) (hstep seen x t (by simp [hl]) hx ?_ ht)
    simp [hl]

section
variable {s : State} {p : PortId}

/-- What the parts before the reset make of the start, the reset turns into what the parts after it keep. -/
theorem warm_keep (hw : s.warmNext p) (order : StartOrder) (B : StartRun → Prop) (A : State → Prop)
    (h0 : B s.beginStart) (hstep : ∀ q, q.calm s false → ∀ x, x ≠ .reset → B q → B (q.task order x))
    (hreset : ∀ q, q.calm s false → q.swap = none → B q → A q.state.resetWarm)
    (hlater : ∀ t x, A t → A (s.later order t x)) : A (s.outputStart order) := by
  obtain ⟨before, after, q, rfl, hq, hs, hb, -, -, heq⟩ := outputStart_warm hw order
  have hB := tasks_keep_calm B order (beginStart_calm hw.still) hb h0 fun q hq x _ hx => hstep q hq x hx
  rw [heq]
  exact foldl_keeps A _ _ _ (hreset _ hq hs hB) fun t x _ ht => hlater t x ht

/-- Until part `x` is taken `P` holds, and from then on `Q`, before the reset and behind it. -/
theorem warm_through (hw : s.warmNext p) (order : StartOrder) (x : StartTask) (hx : x ≠ .reset) (P Q : State → Prop)
    (h0 : P s.beginStart.state)
    (hP : ∀ q : StartRun, q.calm s false → ∀ y, y ≠ .reset → y ≠ x → P q.state → P (q.task order y).state)
    (hPQ : ∀ q : StartRun, q.calm s false → P q.state → Q (q.task order x).state)
    (hQ : ∀ q : StartRun, q.calm s false → ∀ y, y ≠ .reset → y ≠ x → Q q.state → Q (q.task order y).state)
    (hPr : ∀ t, P t → P t.resetWarm) (hQr : ∀ t, Q t → Q t.resetWarm)
    (hPl : ∀ t y, y ≠ x → P t → P (s.later order t y)) (hPQl : ∀ t, P t → Q (s.later order t x))
    (hQl : ∀ t y, y ≠ x → Q t → Q (s.later order t y)) : Q (s.outputStart order) := by
  obtain ⟨before, after, q, rfl, hq, hs, hb, hmem, hnd, heq⟩ := outputStart_warm hw order
  have hc := beginStart_calm hw.still
  rw [heq]
  have split : ∀ l : List StartTask, l.Nodup → x ∈ l → ∃ l1 l2, l = l1 ++ x :: l2 ∧ x ∉ l1 ∧ x ∉ l2 := by
    intro l hl hm
    obtain ⟨l1, l2, rfl⟩ := List.append_of_mem hm
    exact ⟨l1, l2, rfl, fun h => List.disjoint_of_nodup_append hl h List.mem_cons_self,
      (List.nodup_cons.mp (List.nodup_append.mp hl).2.1).1⟩
  rcases hmem x hx with hm | hm
  · have hna : x ∉ after := fun h => List.disjoint_of_nodup_append hnd hm h
    obtain ⟨l1, l2, hl, hn1, hn2⟩ := split before (List.nodup_append.mp hnd).1 hm
    rw [hl] at hb
    have hb1 : StartTask.reset ∉ l1 := fun h => hb (List.mem_append_left _ h)
    have hb2 : StartTask.reset ∉ l2 := fun h => hb (List.mem_append_right _ (List.mem_cons_of_mem _ h))
    have h1 := tasks_keep_calm (fun q => P q.state) order hc hb1 h0
      fun q hq y hy hr => hP q hq y hr fun e => hn1 (e ▸ hy)
    have hc1 := (tasks_calm order hc hb1).1
    have h2 := tasks_keep_calm (fun q => Q q.state) order (task_calm hc1 order hx) hb2 (hPQ _ hc1 h1)
      fun q hq y hy hr => hQ q hq y hr fun e => hn2 (e ▸ hy)
    have hrun : s.beginStart.tasks order before = ((s.beginStart.tasks order l1).task order x).tasks order l2 := by
      rw [hl]
      exact List.foldl_append ..
    rw [hrun]
    exact foldl_keeps Q _ _ _ (hQr _ h2) fun t y hy ht => hQl t y (fun e => hna (e ▸ hy)) ht
  · have hnb : x ∉ before := fun h => List.disjoint_of_nodup_append hnd h hm
    obtain ⟨l1, l2, hl, hn1, hn2⟩ := split after (List.nodup_append.mp hnd).2.1 hm
    have h1 := tasks_keep_calm (fun q => P q.state) order hc hb h0
      fun q hq y hy hr => hP q hq y hr fun e => hnb (e ▸ hy)
    rw [hl, List.foldl_append, List.foldl_cons]
    have h2 := foldl_keeps P (s.later order) l1 _ (hPr _ h1) fun t y hy ht => hPl t y (fun e => hn1 (e ▸ hy)) ht
    exact foldl_keeps Q (s.later order) l2 _ (hPQl _ h2) fun t y hy ht => hQl t y (fun e => hn2 (e ▸ hy)) ht

/-! ### What the start leaves alone -/

theorem startBlocks_within {x : StartTask} {b : Block} (h : b ∈ startBlocks x) :
    b ∈ [Block.bank0, .bank1, .activeBank, .engine, .receivers, .timing, .outputs, .events, .portA, .portB, .lease,
      .capture, .draws] := by
  cases b with
  | queues | sups | pins | straps | pending => cases x <;> simp [startBlocks] at h
  | _ => simp

theorem warm_touches (hw : s.warmNext p) (order : StartOrder) :
    s.beginStart.state.touches [.bank0, .bank1, .activeBank, .engine, .receivers, .timing, .outputs, .events, .portA,
      .portB, .lease, .capture, .draws] (s.outputStart order) :=
  warm_keep hw order
    (fun q => s.beginStart.state.touches [.bank0, .bank1, .activeBank, .engine, .receivers, .timing, .outputs, .events,
      .portA, .portB, .lease, .capture, .draws] q.state) _ (touches_refl _ _)
    (fun q hq x hx ht => (ht.trans ((task_leaves hq order hx).1.mono fun b hb => startBlocks_within hb)).mono (by simp))
    (fun q _ _ ht => (ht.trans (touches_resetWarm q.state)).mono (by simp))
    fun t x ht => (ht.trans (later_touches order t x)).mono (by simp)

theorem warm_capture (hw : s.warmNext p) (order : StartOrder) : (s.outputStart order).capture = initialCapture :=
  warm_keep hw order (fun _ => True) (fun t => t.capture = initialCapture) trivial (fun _ _ _ _ _ => trivial)
    (fun _ _ _ _ => rfl) fun t x ht => ((later_touches order t x).capture (by simp)).trans ht

theorem leaseTick_period (t : State) : t.leaseTick.lease.period = t.lease.period := by
  unfold State.leaseTick
  split
  · rfl
  · split
    · rw [(touches_raise _ _ _).lease (by simp)]
      rfl
    · rfl

theorem warm_lease (hw : s.warmNext p) (order : StartOrder) :
    (s.outputStart order).lease = { holder := none, period := s.lease.period } :=
  warm_keep hw order (fun q => q.state.lease.period = s.lease.period)
    (fun t => t.lease = { holder := none, period := s.lease.period }) rfl
    (fun q hq x hx h => by
      by_cases hl : x = .leaseTick
      · subst hl
        rw [task_leaseTick hq.warm]
        split
        · exact (leaseTick_period _).trans h
        · exact h
      · rw [(task_leaves hq order hx).1.lease (by cases x <;> simp_all [startBlocks])]
        exact h)
    (fun q _ _ h => by rw [← h]; rfl) fun t x ht => ((later_touches order t x).lease (by simp)).trans ht

theorem warm_output (hw : s.warmNext p) (order : StartOrder) (k : Highway) :
    ∃ line, (s.outputStart order).output k = { s.frameState.nextOutput k with line := line } :=
  warm_keep hw order (fun q => ∃ line, q.state.output k = { s.frameState.nextOutput k with line := line })
    (fun t => ∃ line, t.output k = { s.frameState.nextOutput k with line := line }) ⟨_, beginStart_output s k⟩
    (fun q hq x hx ⟨line, hl⟩ => by
      obtain ⟨q', t, ht⟩ := task_partOf hq order hx
      rw [State.output, ht.outputs_eq]
      rcases ht.gives with rfl | ⟨p', rfl⟩
      · exact ⟨line, hl⟩
      · obtain ⟨line', hl'⟩ := takeOctets_output hq p' k
        exact ⟨line', hl'.trans (by rw [hl])⟩)
    (fun _ _ _ h => h) fun t x ⟨line, hl⟩ => ⟨line, ((later_touches order t x).output k (by simp)).trans hl⟩

/-! ### Timing, map and engine -/

theorem later_timing (order : StartOrder) (t : State) {x : StartTask} (hx : x ≠ .timing) :
    (s.later order t x).timing = t.timing := by
  cases x with
  | timing => exact absurd rfl hx
  | slip k =>
    unfold State.later
    simp only
    split
    · exact (touches_repeatSlip t k).timing (by simp)
    · rfl
  | copy =>
    unfold State.later
    simp only
    split
    · rfl
    · exact (touches_syncStep t).timing (by simp)
  | listTick =>
    unfold State.later
    simp only
    split
    · exact (touches_listTick t _ _).timing (by simp)
    · rfl
  | _ => rfl

theorem later_mapAs (order : StartOrder) (t : State) {x : StartTask} (hx : x ≠ .copy) : t.mapAs (s.later order t x) := by
  have keep : ∀ {u : State} {bs : List Block}, t.touches bs u → Block.bank0 ∉ bs → Block.bank1 ∉ bs →
      Block.activeBank ∉ bs → Block.engine ∉ bs → t.mapAs u := fun h h0 h1 h2 h3 =>
    ⟨h.bank0 h0, h.bank1 h1, h.activeBank h2, h.engine h3⟩
  cases x with
  | copy => exact absurd rfl hx
  | timing => exact keep (touches_setTiming t _) (by simp) (by simp) (by simp) (by simp)
  | slip k =>
    unfold State.later
    simp only
    split
    · exact keep (touches_repeatSlip t k) (by simp) (by simp) (by simp) (by simp)
    · exact ⟨rfl, rfl, rfl, rfl⟩
  | listTick =>
    unfold State.later
    simp only
    split
    · exact keep (touches_listTick t _ _) (by simp) (by simp) (by simp) (by simp)
    · exact ⟨rfl, rfl, rfl, rfl⟩
  | _ => exact ⟨rfl, rfl, rfl, rfl⟩

theorem warm_timing (hw : s.warmNext p) (order : StartOrder) : (s.outputStart order).timing = s.timing.advance :=
  warm_through hw order .timing (by simp) (fun _ => True) (fun t => t.timing = s.timing.advance) trivial
    (fun _ _ _ _ _ _ => trivial)
    (fun q hq _ => by
      rw [task_timing hq.warm, ← frameState_timing, ← hq.frame]
      rfl)
    (fun q hq y hy _ h => (task_timing_cases hq order hy).elim (fun e => e.trans h) id)
    (fun _ _ => trivial) (fun _ h => h) (fun _ _ _ _ => trivial) (fun _ _ => rfl)
    fun t y hy h => (later_timing order t hy).trans h

theorem later_activeBank (order : StartOrder) (t : State) (x : StartTask) :
    (s.later order t x).activeBank = t.activeBank := (later_touches order t x).activeBank (by simp)

/-- The swap has been made before the reset, so that the bank that becomes ACTIVE is (R25, R37, R38). -/
theorem warm_activeBank (hw : s.warmNext p) (order : StartOrder) : (s.outputStart order).activeBank = s.nextActive := by
  have hnone : s.dueSwap = none → s.activeBank = s.nextActive := fun h => by
    have := dueSwap_isSome s
    rw [h] at this
    simp [State.nextActive, ← this]
  refine warm_keep hw order
    (fun q => q.state.activeBank = if q.swap.isSome then s.activeBank else s.nextActive)
    (fun t => t.activeBank = s.nextActive) ?_ (fun q hq x hx h => ?_) (fun q _ hn h => ?_)
    fun t x ht => (later_activeBank order t x).trans ht
  · cases hd : s.dueSwap with
    | none =>
      rw [show s.beginStart.swap = none from hd]
      exact hnone hd
    | some c =>
      rw [show s.beginStart.swap = some c from hd]
      rfl
  · by_cases hs : x = .swap
    · subst hs
      cases hsw : q.swap with
      | none =>
        rw [task_swap hq.warm, takeSwap_of_none hsw]
        rw [hsw] at h
        simpa [hsw] using h
      | some c =>
        have hdue : s.swapsNext = true := by
          rw [← dueSwap_isSome]
          rcases hq.swap with e | e
          · rw [hsw] at e; cases e
          · rw [← e, hsw]; rfl
        rw [task_swap_of_some hq hsw, makeSwap_eq]
        simp only [Option.isSome_none, Bool.false_eq_true, if_false]
        rw [(touches_raise _ _ _).activeBank (by simp), (touches_answerCommit _ _ _).activeBank (by simp)]
        have ha : q.state.activeBank = s.activeBank := by simpa [hsw] using h
        simp [State.nextActive, hdue, State.standbyBank, ha]
    · rw [task_swap_other hq order hx hs, (task_leaves hq order hx).1.activeBank (by cases x <;> simp_all [startBlocks])]
      exact h
  · simpa [hn, State.resetWarm] using h

/-- Without a sync the entries stand, and the engine with them but for a swap (R25, R38). -/
theorem warm_engine (hw : s.warmNext p) (order : StartOrder) (hp : s.engine.position = none) :
    (s.outputStart order).bank0 = s.bank0 ∧ (s.outputStart order).bank1 = s.bank1 ∧
      (s.outputStart order).engine = if s.swapsNext then .syncing 0 noMarks else s.engine := by
  have hidle : ∀ t : State, t.engine = s.engine → t.syncStep = t := fun t ht => by
    unfold State.syncStep
    rw [ht]
    split
    · rename_i pos marks he
      rw [he] at hp
      cases hp
    · rfl
    · rfl
  refine warm_keep hw order
    (fun q => q.state.bank0 = s.bank0 ∧ q.state.bank1 = s.bank1 ∧
      q.state.engine = if q.swap.isSome || !s.swapsNext then s.engine else .syncing 0 noMarks)
    (fun t => t.bank0 = s.bank0 ∧ t.bank1 = s.bank1 ∧
      t.engine = if s.swapsNext then .syncing 0 noMarks else s.engine) ?_ (fun q hq x hx h => ?_) (fun q _ hn h => ?_)
    fun t x ht => ?_
  · refine ⟨rfl, rfl, ?_⟩
    rw [show s.beginStart.swap = s.dueSwap from rfl, dueSwap_isSome]
    cases s.swapsNext <;> rfl
  · obtain ⟨h0, h1, he⟩ := h
    by_cases hs : x = .swap
    · subst hs
      cases hsw : q.swap with
      | none =>
        rw [task_swap hq.warm, takeSwap_of_none hsw]
        exact ⟨h0, h1, by simpa [hsw] using he⟩
      | some c =>
        have hdue : s.swapsNext = true := by
          rw [← dueSwap_isSome]
          rcases hq.swap with e | e
          · rw [hsw] at e; cases e
          · rw [← e, hsw]; rfl
        rw [task_swap_of_some hq hsw, makeSwap_eq]
        simp only [Option.isSome_none, hdue]
        rw [(touches_raise _ _ _).bank0 (by simp), (touches_answerCommit _ _ _).bank0 (by simp),
          (touches_raise _ _ _).bank1 (by simp), (touches_answerCommit _ _ _).bank1 (by simp),
          (touches_raise _ _ _).engine (by simp), (touches_answerCommit _ _ _).engine (by simp)]
        exact ⟨h0, h1, rfl⟩
    · rw [task_swap_other hq order hx hs]
      by_cases hc : x = .copy
      · subst hc
        rw [task_copy hq.warm, StartRun.takeCopy]
        split
        · exact ⟨h0, h1, he⟩
        · rename_i hno
          have hno' : s.swapsNext = false := by simpa [hq.swaps] using hno
          simp only
          rw [hidle q.state (by simpa [hno'] using he)]
          exact ⟨h0, h1, he⟩
      · have ht := (task_leaves hq order hx).1
        rw [ht.bank0 (by cases x <;> simp_all [startBlocks]), ht.bank1 (by cases x <;> simp_all [startBlocks]),
          ht.engine (by cases x <;> simp_all [startBlocks])]
        exact ⟨h0, h1, he⟩
  · obtain ⟨h0, h1, he⟩ := h
    refine ⟨h0, h1, he.trans ?_⟩
    rw [hn]
    cases s.swapsNext <;> rfl
  · obtain ⟨h0, h1, he⟩ := ht
    by_cases hc : x = .copy
    · subst hc
      by_cases hsw : s.swapsNext = true
      · rw [State.later, if_pos hsw]
        exact ⟨h0, h1, he⟩
      · rw [State.later, if_neg hsw, hidle t (by simpa [hsw] using he)]
        exact ⟨h0, h1, he⟩
    · obtain ⟨g0, g1, -, g3⟩ := later_mapAs (s := s) order t hc
      exact ⟨g0.trans h0, g1.trans h1, g3.trans he⟩

/-- A sync goes on: the copy is made once, before the reset or after it (R29, R39). -/
theorem warm_copied (hw : s.warmNext p) (order : StartOrder) {pos : Highway} {marks : Marks}
    (he : s.engine = .syncing pos marks) : s.copied pos marks (s.outputStart order) := by
  have hno := swapsNext_of_syncing he
  refine warm_through hw order .copy (by simp) (fun t => s.mapAs t) (fun t => s.copied pos marks t) ⟨rfl, rfl, rfl, rfl⟩
    (fun q hq y hy hne h => h.trans (task_map hq hno order hy hne)) (fun q hq h => ?_)
    (fun q hq y hy hne h => h.then (task_map hq hno order hy hne)) (fun _ h => h) (fun _ h => h)
    (fun t y hne h => h.trans (later_mapAs order t hne)) (fun t h => ?_)
    fun t y hne h => h.then (later_mapAs order t hne)
  · rw [task_copy hq.warm, StartRun.takeCopy, if_neg (by simp [hq.swaps, hno])]
    exact copied_syncStep h he
  · simp only [State.later, hno]
    exact copied_syncStep h he

end

end Sys2Proof.Machine
end

section
/-! SUPPORT. The receivers, the list and the ports after a start with a warm reset, and O44. -/

namespace Sys2Proof.Machine

section
variable {s : State} {p : PortId}

/-- The settings of the event list (R126). -/
def EventList.setAs (l m : EventList) : Prop :=
  m.mask = l.mask ∧ m.interval = l.interval ∧ m.holdTime = l.holdTime

theorem EventList.setAs.trans {l m n : EventList} (h : l.setAs m) (h' : m.setAs n) : l.setAs n :=
  ⟨h'.1.trans h.1, h'.2.1.trans h.2.1, h'.2.2.trans h.2.2⟩

theorem EventList.hears.setAs {l m : EventList} (h : l.hears m) : l.setAs m := by
  rw [h.same]
  exact ⟨rfl, rfl, rfl⟩

theorem setAs_settleAttention (t : State) : t.events.setAs t.settleAttention.events := by
  unfold State.settleAttention
  split
  · exact ⟨rfl, rfl, rfl⟩
  · split
    · exact (offerNotices_hears (t.setEvents { t.events with attn := true, timer := startedTimer t.events.interval })).setAs
    · exact ⟨rfl, rfl, rfl⟩

theorem setAs_raise (t : State) (key : EventKey) (v : EventValue) : t.events.setAs (t.raise key v).events :=
  (take_hears t.events key v t.timing.stamp).setAs.trans (setAs_settleAttention (t.takeOccurrence key v))

theorem setAs_listTick (t : State) (timerFirst delivered : Bool) :
    t.events.setAs (t.listTick timerFirst delivered).events := by
  have hhold : ∀ u : State, u.events.setAs u.holdTick.events := by
    intro u
    unfold State.holdTick
    split
    · exact ⟨rfl, rfl, rfl⟩
    · split
      · exact ⟨rfl, rfl, rfl⟩
      · rename_i b _ _
        exact setAs_settleAttention (u.setEvents { u.events with batch := some { b with hold := b.hold - 1 } })
  have htimer : ∀ (u : State) (running : Option Octet), u.events.setAs (u.timerTick running delivered).events := by
    intro u running
    unfold State.timerTick
    split
    · exact ⟨rfl, rfl, rfl⟩
    · split
      · exact ⟨rfl, rfl, rfl⟩
      · split
        · exact ⟨rfl, rfl, rfl⟩
        · exact (offerNotices_hears (u.setEvents { u.events with timer := startedTimer u.events.interval })).setAs
  unfold State.listTick
  split
  · exact (htimer t _).trans (hhold _)
  · exact (hhold t).trans (htimer _ _)

/-- No part before the reset changes a setting of the list. -/
theorem task_setAs {r : StartRun} (h : r.calm s false) (order : StartOrder) {x : StartTask} (hx : x ≠ .reset) :
    r.state.events.setAs (r.task order x).state.events := by
  obtain ⟨q, t, ht⟩ := task_partOf h order hx
  rw [← ht.events_eq h]
  rcases ht.ends with e | ⟨key, v, -, e⟩ | ⟨-, -, e⟩ <;> rw [e]
  · exact ⟨rfl, rfl, rfl⟩
  · exact setAs_raise t key v
  · exact setAs_listTick t _ _

/-! ### The list behind the reset -/

/-- An entry that the parts in `seen` make on the fresh list (R39, R74). -/
def State.makes (s : State) (seen : List StartTask) (e : Event) : Prop :=
  e.delivered = false ∧
    ((∃ k, .slip k ∈ seen ∧ s.repeats k = true ∧ e.body = .ordinary (.slip k) .repeated .repeated 1) ∨
      .copy ∈ seen ∧ (∃ marks, s.engine = .syncing 7 marks) ∧ e.body = .ordinary .commit .syncDone .syncDone 1)

/-- What holds behind the reset when the parts in `seen` have been taken. `copied` says that the copy of a sync came before
the reset. -/
structure State.freshAfter (s : State) (copied : Prop) (seen : List StartTask) (t : State) : Prop where
  list      : ∃ es, t.restartedWith (if .listTick ∈ seen then 2 else 1) s.events.warm es ∧ es.length ≤ seen.length ∧
    ∀ e ∈ es, s.makes seen e
  receivers : ∀ k, t.receiver k = { s.receiver k with counters := zeroHighwayCounters } ∧ .slip k ∉ seen ∨
    s.repeats k = false ∧ t.receiver k = { s.receiver k with counters := zeroHighwayCounters } ∨
    .slip k ∈ seen ∧ s.repeats k = true ∧
      t.receiver k = { s.receiver k with counters := { zeroHighwayCounters with repeatSlips := 1 } }
  engine    : s.swapsNext = false → ¬copied → .copy ∉ seen → t.engine = s.engine

theorem State.makes.mono {seen : List StartTask} {e : Event} (h : s.makes seen e) (x : StartTask) :
    s.makes (x :: seen) e :=
  ⟨h.1, h.2.imp (fun ⟨k, hk, h⟩ => ⟨k, List.mem_cons_of_mem _ hk, h⟩) fun ⟨hc, h⟩ => ⟨List.mem_cons_of_mem _ hc, h⟩⟩

/-- A part that raises nothing behind the reset. -/
theorem freshAfter_skip {copied : Prop} {seen : List StartTask} {t : State} (h : s.freshAfter copied seen t)
    {u : State} {bs : List Block} (ht : t.touches bs u) (he : Block.events ∉ bs) (ha : Block.portA ∉ bs)
    (hb : Block.portB ∉ bs) (hr : Block.receivers ∉ bs) {x : StartTask} (hslip : ∀ k, x = .slip k → s.repeats k = false)
    (heng : x ≠ .copy → Block.engine ∉ bs) : s.freshAfter copied (x :: seen) u where
  list := by
    obtain ⟨es, h1, h2, h3⟩ := h.list
    refine ⟨es, ((h1.of_touches ht he ha hb).mono ?_), by simp; omega, fun e he => (h3 e he).mono x⟩
    by_cases hl : StartTask.listTick ∈ seen
    · simp [hl]
    · simp only [hl, if_false]
      split <;> omega
  receivers k := by
    rw [ht.receiver k hr]
    rcases h.receivers k with ⟨h1, h2⟩ | h1 | h1
    · by_cases hx : x = .slip k
      · exact .inr (.inl ⟨hslip k hx, h1⟩)
      · exact .inl ⟨h1, by simp [h2, Ne.symm hx]⟩
    · exact .inr (.inl h1)
    · exact .inr (.inr ⟨List.mem_cons_of_mem _ h1.1, h1.2⟩)
  engine hno hc hn := by
    have hx : x ≠ .copy := fun e => hn (e ▸ List.mem_cons_self)
    rw [ht.engine (heng hx)]
    exact h.engine hno hc fun hm => hn (List.mem_cons_of_mem _ hm)

theorem newEntry_body (key : EventKey) (v : EventValue) (now : Stamp) :
    (newEntry key v now).delivered = false ∧ (newEntry key v now).body = .ordinary key v v 1 := ⟨rfl, rfl⟩

/-- The entry of a part that has not been taken is not on the list yet, so that its occurrence makes one. -/
theorem State.makes.accepts {seen : List StartTask} {e : Event} (h : s.makes seen e) {key : EventKey}
    (hslip : ∀ k, .slip k ∈ seen → key ≠ .slip k) (hcopy : .copy ∈ seen → key ≠ .commit) : e.accepts key = false := by
  obtain ⟨-, ⟨k, hk, -, hb⟩ | ⟨hc, -, hb⟩⟩ := h
  · simp [Event.accepts, hb, (hslip k hk).symm]
  · simp [Event.accepts, hb, (hcopy hc).symm]

/-- An occurrence behind the reset makes its entry (R109). -/
theorem list_raise {seen : List StartTask} {t : State} {x : StartTask} (hx : x ∉ seen) (hlen : seen.length < 63)
    (h : ∃ es, t.restartedWith (if .listTick ∈ seen then 2 else 1) s.events.warm es ∧ es.length ≤ seen.length ∧
      ∀ e ∈ es, s.makes seen e) {key : EventKey} {v : EventValue}
    (hkey : (∃ k, x = .slip k ∧ key = .slip k ∧ v = .repeated ∧ s.repeats k = true) ∨
      x = .copy ∧ key = .commit ∧ v = .syncDone ∧ ∃ marks, s.engine = .syncing 7 marks) :
    ∃ es, (t.raise key v).restartedWith (if .listTick ∈ x :: seen then 2 else 1) s.events.warm es ∧
      es.length ≤ (x :: seen).length ∧ ∀ e ∈ es, s.makes (x :: seen) e := by
  obtain ⟨es, h1, h2, h3⟩ := h
  have hl : (if StartTask.listTick ∈ x :: seen then 2 else 1) = if StartTask.listTick ∈ seen then 2 else 1 := by
    have : StartTask.listTick ≠ x := by
      rintro rfl
      rcases hkey with ⟨k, e, -⟩ | ⟨e, -⟩ <;> cases e
    simp [this]
  have hnew : s.makes (x :: seen) (newEntry key v t.timing.stamp) := by
    refine ⟨rfl, ?_⟩
    rcases hkey with ⟨k, rfl, rfl, rfl, hr⟩ | ⟨rfl, rfl, rfl, hm⟩
    · exact .inl ⟨k, List.mem_cons_self, hr, rfl⟩
    · exact .inr ⟨List.mem_cons_self, hm, rfl⟩
  refine ⟨es ++ [newEntry key v t.timing.stamp], ?_, ?_, fun e he => ?_⟩
  · rw [hl]
    refine restartedWith_raise h1 (by split <;> omega) v (fun e he => (h3 e he).accepts ?_ ?_) (by omega)
    · rintro k hk rfl
      rcases hkey with ⟨k', rfl, e, -⟩ | ⟨-, e, -⟩
      · cases e
        exact hx hk
      · cases e
    · rintro hc rfl
      rcases hkey with ⟨k', -, e, -⟩ | ⟨rfl, -⟩
      · cases e
      · exact hx hc
  · simp only [List.length_append, List.length_cons, List.length_nil]
    omega
  · rcases List.mem_append.mp he with he | he
    · exact (h3 e he).mono x
    · rw [List.mem_singleton.mp he]
      exact hnew

/-- Each part behind the reset, on the fresh list (R39, R65, R74). -/
theorem later_fresh (order : StartOrder) {copied : Prop} {seen : List StartTask} {t : State} {x : StartTask}
    (hx : x ∉ seen) (hlen : seen.length < 63) (hc : x = .copy → ¬copied) (h : s.freshAfter copied seen t) :
    s.freshAfter copied (x :: seen) (s.later order t x) := by
  have skip : (∀ k, x = .slip k → s.repeats k = false) → s.freshAfter copied (x :: seen) t := fun hs =>
    freshAfter_skip h (bs := []) (touches_refl _ _) (by simp) (by simp) (by simp) (by simp) hs (by simp)
  cases x with
  | timing =>
    exact freshAfter_skip h (touches_setTiming t s.timing.advance) (by simp) (by simp) (by simp) (by simp)
      (fun k e => by cases e) (by simp)
  | slip k =>
    unfold State.later
    simp only
    split
    · rename_i hr
      have hcount := touches_countHighway t k fun c => { c with repeatSlips := saturate c.repeatSlips }
      refine ⟨list_raise hx hlen ?_ (.inl ⟨k, rfl, rfl, rfl, hr⟩), fun j => ?_, fun hno hcp hn => ?_⟩
      · obtain ⟨es, h1, h2⟩ := h.list
        exact ⟨es, h1.of_touches hcount (by simp) (by simp) (by simp), h2⟩
      · rw [repeatSlip_receiver]
        by_cases hj : k = j
        · subst hj
          rw [if_pos rfl]
          rcases h.receivers k with ⟨h1, -⟩ | ⟨h1, -⟩ | h1
          · exact .inr (.inr ⟨List.mem_cons_self, hr, by rw [h1]; rfl⟩)
          · rw [hr] at h1; cases h1
          · exact absurd h1.1 hx
        · rw [if_neg hj]
          rcases h.receivers j with ⟨h1, h2⟩ | h1 | h1
          · exact .inl ⟨h1, by simp [h2, Ne.symm hj]⟩
          · exact .inr (.inl h1)
          · exact .inr (.inr ⟨List.mem_cons_of_mem _ h1.1, h1.2⟩)
      · rw [(touches_repeatSlip t k).engine (by simp)]
        exact h.engine hno hcp fun hm => hn (List.mem_cons_of_mem _ hm)
    · rename_i hr
      exact skip fun j e => by cases e; simpa using hr
  | copy =>
    unfold State.later
    simp only
    split
    · exact skip fun k e => by cases e
    · rename_i hno
      have heng : t.engine = s.engine := h.engine (by simpa using hno) (hc rfl) hx
      cases he : s.engine with
      | syncing pos marks =>
        have hcopy := touches_copyHighway t pos marks
        rcases syncStep_of_syncing (heng.trans he) with e | ⟨hp, e⟩
        · rw [← e]
          exact freshAfter_skip h (hcopy.trans (touches_setEngine _ _)) (by simp) (by simp) (by simp) (by simp)
            (fun k e => by cases e) (by simp)
        · have hskip := freshAfter_skip h (x := .copy) (hcopy.trans (touches_setEngine _ .idle)) (by simp) (by simp)
            (by simp) (by simp) (fun k e => by cases e) (by simp)
          rw [e]
          refine ⟨list_raise hx hlen ?_ (.inr ⟨rfl, rfl, rfl, marks, hp ▸ he⟩), fun j => ?_, fun _ _ hn => ?_⟩
          · obtain ⟨es, h1, h2⟩ := h.list
            exact ⟨es, h1.of_touches (hcopy.trans (touches_setEngine _ _)) (by simp) (by simp) (by simp), h2⟩
          · rw [(touches_raise _ _ _).receiver j (by simp)]
            exact hskip.receivers j
          · exact absurd List.mem_cons_self hn
      | idle | pending c =>
        have : t.syncStep = t := by
          unfold State.syncStep
          rw [heng, he]
        rw [this]
        exact skip fun k e => by cases e
  | listTick =>
    unfold State.later
    simp only
    split
    · have ht := touches_listTick t order.timerFirst false
      refine ⟨?_, fun j => ?_, fun hno hcp hn => ?_⟩
      · obtain ⟨es, h1, h2, h3⟩ := h.list
        rw [if_neg hx] at h1
        rw [if_pos List.mem_cons_self]
        exact ⟨es, restartedWith_listTick h1 (by omega) rfl _, by simp; omega, fun e he => (h3 e he).mono _⟩
      · rw [ht.receiver j (by simp)]
        simpa using h.receivers j
      · rw [ht.engine (by simp)]
        exact h.engine hno hcp fun hm => hn (List.mem_cons_of_mem _ hm)
    · exact skip fun k e => by cases e
  | _ => exact skip fun k e => by cases e

end

end Sys2Proof.Machine
end

section
/-! SUPPORT. O44: a warm reset at a start without other commands. -/

namespace Sys2Proof.Machine

section
variable {s : State} {p : PortId}

theorem warm_of_setAs {l m : EventList} (h : l.setAs m) : m.warm = l.warm := by
  obtain ⟨h1, h2, h3⟩ := h
  simp [EventList.warm, h1, h2, h3]

theorem mem_startTasks (x : StartTask) : x ∈ startTasks := (startParts_perm standingOrder).mem_iff.mp (mem_startParts _ x)

/-- The reset empties the list and the ports (R128, R149). -/
theorem restartedWith_resetWarm (t : State) (n : Nat) : t.resetWarm.restartedWith n t.events.warm [] := by
  have hc : t.events.warm.condition = false := by
    simp [EventList.condition, EventList.warm, EventList.waiting, EventList.lapsed]
  have hport : ∀ q, t.resetWarm.port q = initialPort := fun q => by cases q <;> rfl
  exact ⟨rfl, hc.symm, fun _ => ⟨rfl, fun q => by rw [hport]; rfl⟩,
    fun q => ⟨[], hport q, Nat.zero_le _, fun x hx => by cases hx⟩⟩

/-- The list, the ports and the receivers at the end of a start with a warm reset. -/
theorem warm_fresh (hw : s.warmNext p) (order : StartOrder) :
    ∃ copied seen, s.freshAfter copied seen (s.outputStart order) := by
  obtain ⟨before, after, q, rfl, hq, hs, hb, hmem, hnd, heq⟩ := outputStart_warm hw order
  have hc := beginStart_calm hw.still
  have hset : s.events.setAs (s.beginStart.tasks order before).state.events :=
    tasks_keep_calm (fun q => s.events.setAs q.state.events) order hc hb ⟨rfl, rfl, rfl⟩
      fun q hq x _ hx h => h.trans (task_setAs hq order hx)
  have hrec : ∀ k, ∃ c, (s.beginStart.tasks order before).state.receiver k = { s.receiver k with counters := c } :=
    fun k => tasks_keep_calm (fun q => ∃ c, q.state.receiver k = { s.receiver k with counters := c }) order hc hb
      ⟨_, rfl⟩ fun q hq x _ hx ⟨c, h⟩ => by
        by_cases hk : x = .slip k
        · subst hk
          rw [task_slip hq.warm, takeSlip_eq hq]
          split
          · exact ⟨_, by rw [repeatSlip_receiver, if_pos rfl, h]⟩
          · exact ⟨c, h⟩
        · exact ⟨c, (task_receiver_other hq order hx hk).trans h⟩
  have hmap : s.swapsNext = false → .copy ∉ before → s.mapAs (s.beginStart.tasks order before).state := fun hno hcp =>
    tasks_keep_calm (fun q => s.mapAs q.state) order hc hb ⟨rfl, rfl, rfl, rfl⟩
      fun q hq x hxm hx h => h.trans (task_map hq hno order hx fun e => hcp (e ▸ hxm))
  have h0 : s.freshAfter (.copy ∈ before) [] (s.beginStart.tasks order before).state.resetWarm := by
    refine ⟨⟨[], ?_, le_rfl, fun e he => by cases he⟩, fun k => .inl ⟨?_, by simp⟩, fun hno hcp _ => ?_⟩
    · rw [← warm_of_setAs hset]
      exact restartedWith_resetWarm _ _
    · obtain ⟨c, h⟩ := hrec k
      rw [resetWarm_receiver, h]
    · exact (hmap hno hcp).2.2.2
  have hlen : after.length ≤ startTasks.length :=
    ((List.nodup_append.mp hnd).2.1.subperm fun x _ => mem_startTasks x).length_le
  refine ⟨.copy ∈ before, after.reverse, ?_⟩
  rw [heq]
  exact foldl_seen (s.later order) (s.freshAfter (.copy ∈ before)) (List.nodup_append.mp hnd).2.1 h0
    fun seen x t hx hn hl ht => later_fresh order hn
      (by rw [show startTasks.length = 19 from rfl] at hlen; omega)
      (fun e hcp => by subst e; exact List.disjoint_of_nodup_append hnd hcp hx) ht

/-- Where no slip and no end of a sync comes about, the list and the ports are as the reset leaves them. -/
theorem warm_quiet (hw : s.warmNext p) (order : StartOrder) (hr : ∀ k, s.repeats k = false)
    (he : ∀ marks, s.engine ≠ .syncing 7 marks) :
    (∀ q, (s.outputStart order).port q = initialPort) ∧ (s.outputStart order).events = s.events.warm := by
  obtain ⟨copied, seen, ⟨es, h1, -, h3⟩, -, -⟩ := warm_fresh hw order
  obtain rfl : es = [] := List.eq_nil_iff_forall_not_mem.mpr fun e hm => by
    rcases (h3 e hm).2 with ⟨k, -, hk, -⟩ | ⟨-, ⟨marks, hk⟩, -⟩
    · simp [hr] at hk
    · exact he marks hk
  have hlist := h1.list
  have hattn : (s.outputStart order).events.attn = false := by
    rw [h1.attn, hlist]
    simp [EventList.condition, EventList.warm, EventList.waiting, EventList.lapsed]
  obtain ⟨ht, htx⟩ := h1.quiet hattn
  refine ⟨fun q => ?_, ?_⟩
  · obtain ⟨places, hp, -, -⟩ := h1.ports q
    have := htx q
    rw [hp] at this ⊢
    rw [show places = [] from this]
    rfl
  · rw [hlist, ht, hattn]
    rfl

end

/-- Settles O44: the parts before the reset are those of a quiet start, and those behind it act on the fresh list. -/
theorem warmResetClearsManagement : Obligations.WarmResetClearsManagement := by
  intro order p s hdue hother hcommands hstarted
  have hw : s.warmNext p := by
    refine ⟨hdue, hother, fun q => ?_⟩
    by_cases hq : q = p
    · exact hq ▸ hstarted
    · have : q = otherPort p := by cases p <;> cases q <;> simp_all [otherPort]
      rw [this, Port.still, hcommands]
      simp
  obtain ⟨o, hexec⟩ : ∃ o, exec (.warmResetEffect order) s = .next (s.outputStart o) := by
    simp only [exec, execWarmResetEffect]
    cases p with
    | a => exact ⟨_, if_pos hdue⟩
    | b =>
      have ha : s.resetNext .a = none := hother
      exact ⟨_, (if_neg (by rw [ha]; simp)).trans (if_pos hdue)⟩
  obtain ⟨copied, seen, ⟨es, h1, -, h3⟩, hrec, -⟩ := warm_fresh hw o
  have ht := warm_touches hw o
  have hqueue : ∀ k, (s.outputStart o).queue k = s.selectedQueue k := fun k => by
    rw [ht.queue k (by simp), beginStart_state]
    simp [State.queue]
  have hlist := h1.list
  refine ⟨_, hexec, warm_lease hw o, warm_capture hw o, fun q => ?_, ?_, ?_, ?_, ?_, ?_, ?_, ?_, fun hr he => ?_,
    fun k => ⟨?_, fun hk => ?_, fun f rest hs hf => ?_, ?_⟩, warm_activeBank hw o, warm_engine hw o, fun pos marks he => ?_,
    ht.sups (by simp), ht.straps (by simp), ht.pins (by simp), (warm_timing hw o).trans (advance_eq _)⟩
  · obtain ⟨places, hp, -, hn⟩ := h1.ports q
    rw [hp]
    exact ⟨rfl, rfl, rfl, rfl, hn⟩
  · rw [hlist]; rfl
  · rw [hlist]; rfl
  · rw [hlist]; rfl
  · rw [hlist]; rfl
  · rw [hlist]; rfl
  · rw [hlist]; rfl
  · intro e he
    rw [hlist] at he
    obtain ⟨hd, ⟨k, -, hk⟩ | ⟨-, hk⟩⟩ := h3 e he
    · exact ⟨hd, .inl ⟨k, hk⟩⟩
    · exact ⟨hd, .inr hk⟩
  · obtain ⟨hp, hev⟩ := warm_quiet hw o hr he
    exact ⟨hp .a, hp .b, hev⟩
  · rcases hrec k with ⟨h, -⟩ | ⟨-, h⟩ | ⟨-, h⟩
    · exact .inl h
    · exact .inl h
    · exact .inr h
  · rw [hqueue]
    by_cases hs : s.inService k = true
    · exact selectedQueue_empty (hk.resolve_left (by simp [hs]))
    · exact selectedQueue_out (by simpa using hs)
  · exact (hqueue k).trans (selectedQueue_head hs hf)
  · obtain ⟨line, hl⟩ := warm_output hw o k
    rw [hl]
    simp [State.nextOutput]
  · have hcopied := warm_copied hw o he
    exact ⟨hcopied.2.2.2, activeEntry_of_copied hcopied⟩

end Sys2Proof.Machine
end

section
/-! SUPPORT. What leaves the queues of the ports to themselves: every happening but those of the ports' own commands,
messages and octets. -/

namespace Sys2Proof.Machine

/-! ### A port that does nothing of its own -/

/-- Port `y` is port `x` after news and a reset of its framer: NOTICEs at the tail, as long as there is a place, and
figures that are counted. -/
def Port.goes (x y : Port) : Prop :=
  ∃ more f c, y = { x with framer := f, transmit := x.transmit ++ more, counters := c } ∧
    (∀ z ∈ more, z.isNotice) ∧ (more ≠ [] → y.transmit.length ≤ 6)

theorem Port.goes.refl (x : Port) : x.goes x := ⟨[], x.framer, x.counters, by simp, by simp, by simp⟩

theorem Port.goes.trans {x y z : Port} (h : x.goes y) (h' : y.goes z) : x.goes z := by
  obtain ⟨m, f, c, rfl, hm, hl⟩ := h
  obtain ⟨m', f', c', rfl, hm', hl'⟩ := h'
  refine ⟨m ++ m', f', c', by simp, fun z hz => (List.mem_append.mp hz).elim (hm z) (hm' z), fun hne => ?_⟩
  by_cases h' : m' = []
  · subst h'
    simpa using hl (by simpa using hne)
  · exact hl' h'

theorem Port.hears.goes {x y : Port} (h : x.hears y) : x.goes y := by
  obtain ⟨more, c, rfl, hm, hl⟩ := h
  exact ⟨more, x.framer, c, rfl, hm, hl⟩

/-- State `t` leaves the ports to themselves and the pending commit as state `s` has it. -/
structure State.spares (s t : State) : Prop where
  record : t.engine.record = s.engine.record
  ports  : ∀ p, (s.port p).goes (t.port p)

theorem State.spares.refl (s : State) : s.spares s := ⟨rfl, fun _ => .refl _⟩

theorem State.spares.trans {s t u : State} (h : s.spares t) (h' : t.spares u) : s.spares u :=
  ⟨h'.record.trans h.record, fun p => (h.ports p).trans (h'.ports p)⟩

theorem spares_of_touches {s t : State} {bs : List Block} (h : s.touches bs t) (he : Block.engine ∉ bs)
    (ha : Block.portA ∉ bs) (hb : Block.portB ∉ bs) : s.spares t :=
  ⟨by rw [h.engine he], fun p => by rw [h.port p ha hb]; exact .refl _⟩

theorem spares_of_hears {s t : State} {bs : List Block} (h : s.touches bs t) (he : Block.engine ∉ bs)
    (hp : ∀ p, (s.port p).hears (t.port p)) : s.spares t :=
  ⟨by rw [h.engine he], fun p => (hp p).goes⟩

theorem spares_raise (s : State) (key : EventKey) (v : EventValue) : s.spares (s.raise key v) :=
  spares_of_hears (touches_raise s key v) (by simp) (hears_raise s key v).ports

theorem spares_settleAttention (s : State) : s.spares s.settleAttention :=
  spares_of_hears (touches_settleAttention s) (by simp) (hears_settleAttention s).ports

theorem spares_setPort (s : State) (p : PortId) {x : Port} (h : (s.port p).goes x) : s.spares (s.setPort p x) :=
  ⟨by simp, fun q => by
    by_cases hq : p = q
    · subst hq; simpa using h
    · simpa [hq] using Port.goes.refl (s.port q)⟩

theorem spares_countPort (s : State) (p : PortId) (f : PortCounters → PortCounters) : s.spares (s.countPort p f) :=
  spares_setPort s p ⟨[], _, f (s.port p).counters, by simp; rfl, by simp, by simp⟩

theorem spares_setFramer (s : State) (p : PortId) (f : Framer) : s.spares (s.setFramer p f) :=
  spares_setPort s p ⟨[], f, _, by simp; rfl, by simp, by simp⟩

/-! ### Entry into SEARCH and DISABLED (R49, R50) -/

theorem spares_breakCapture (s : State) (down : Source → Bool) : s.spares (s.breakCapture down) := by
  unfold State.breakCapture
  split
  · split
    · exact (spares_of_touches (touches_setCapture s _) (by simp) (by simp) (by simp)).trans (spares_raise _ _ _)
    · exact .refl s
  all_goals exact .refl s

theorem spares_loseLink (s : State) (k : Highway) : s.spares (s.loseLink k) := by
  unfold State.loseLink
  split
  · exact .refl s
  · split
    · exact (spares_of_touches (touches_setLease s _) (by simp) (by simp) (by simp)).trans (spares_raise _ _ _)
    · exact .refl s

theorem spares_resetFramer (s : State) (k : Highway) : s.spares (s.resetFramer k) := by
  unfold State.resetFramer
  split
  · exact spares_setFramer s _ _
  · exact .refl s

theorem spares_setAlign (s : State) (k : Highway) (a : Align) (inFrame : Bool) : s.spares (s.setAlign k a inFrame) :=
  spares_of_touches (touches_setAlign s k a inFrame) (by simp) (by simp) (by simp)

theorem spares_leave (s : State) (k : Highway) (a : Align) : s.spares ((s.setAlign k a false).leaveTraffic k) :=
  (spares_setAlign s k a false).trans (spares_of_touches (touches_leaveTraffic _ k) (by simp) (by simp) (by simp))

theorem spares_enterSearch (s : State) (k : Highway) (history : List Bool) : s.spares (s.enterSearch k history) :=
  (((spares_leave s k _).trans (spares_resetFramer _ k)).trans (spares_loseLink _ k)).trans (spares_breakCapture _ _)

theorem spares_enterDisabled (s : State) (k : Highway) : s.spares (s.enterDisabled k) := by
  refine ((spares_leave s k .disabled).trans ?_).trans (spares_breakCapture _ _)
  split
  · exact spares_raise _ _ _
  · exact .refl _

/-! ### Commands (R139) -/

theorem record_of_not_pending {e : Engine} (h : e.isPending = false) : e.record = none := by
  cases e with
  | pending r => cases h
  | idle | syncing pos marks => rfl

theorem writeStandby_record (s : State) (k : Highway) (first : Nat) (es : List Entry) :
    (s.writeStandby k first es).engine.record = s.engine.record := by
  unfold State.writeStandby
  cases h : s.engine <;> simp [h, Engine.record]

theorem State.Act.spares {s t : State} {bs : List Block} (h : s.Act bs t) : s.spares t := by
  have ht := h.work.touches
  cases h with
  | news key v => exact spares_raise s key v
  | fetch p ack =>
    exact (spares_of_touches (touches_setEvents s _) (by simp) (by simp) (by simp)).trans (spares_settleAttention _)
  | attention mask interval hold h =>
    exact (spares_of_touches (touches_setEvents s _) (by simp) (by simp) (by simp)).trans (spares_settleAttention _)
  | clearPort p => exact spares_countPort s p _
  | write k first es h =>
    exact ⟨writeStandby_record s k first _, fun p => by rw [ht.port p (by simp) (by simp)]; exact .refl _⟩
  | idle he | sync he =>
    exact ⟨(record_of_not_pending he).symm, fun p => by rw [ht.port p (by simp) (by simp)]; exact .refl _⟩
  | enabled k h => exact spares_enterSearch s k []
  | disabled k h => exact spares_enterDisabled s k
  | broken down => exact spares_breakCapture s down
  | _ => exact spares_of_touches ht (by simp) (by simp) (by simp)

theorem spares_of_acts {s t : State} (h : s.Acts t) : s.spares t := by
  induction h with
  | refl => exact .refl s
  | tail _ h ih => exact ih.trans h.choose_spec.spares

/-! ### The input highways -/

theorem spares_huntBits (s : State) (k : Highway) (bits : List Bool) : s.spares (s.huntBits k bits) := by
  unfold State.huntBits
  split
  · split <;> exact spares_setAlign s k _ _
  all_goals exact .refl s

theorem spares_countHighway (s : State) (k : Highway) (f : HighwayCounters → HighwayCounters) :
    s.spares (s.countHighway k f) :=
  spares_of_touches (touches_countHighway s k f) (by simp) (by simp) (by simp)

theorem spares_takeRA (s : State) (k : Highway) (ra : Bool) : s.spares (s.takeRA k ra) := by
  unfold State.takeRA
  split
  · exact .refl s
  · exact (spares_of_touches (touches_setReceiver s k _) (by simp) (by simp) (by simp)).trans (spares_raise _ _ _)

theorem spares_markerInConfirm (s : State) (k : Highway) (expected : FrameNumber) (count : Nat) (history : List Bool)
    (o : Octet) : s.spares (s.markerInConfirm k expected count history o) := by
  unfold State.markerInConfirm
  split
  · split
    · exact spares_setAlign s k _ _
    · split
      · exact ((spares_setAlign s k _ _).trans (spares_raise _ _ _)).trans (spares_takeRA _ _ _)
      · exact spares_setAlign s k _ _
  · exact (spares_enterSearch s k []).trans (spares_setAlign _ _ _ _)

theorem spares_markerPosition (s : State) (k : Highway) (o : Octet) : s.spares (s.markerPosition k o) := by
  have hgood : ∀ a, s.spares ((s.setAlign k a true).takeRA k (markerRA o)) := fun a =>
    (spares_setAlign s k a true).trans (spares_takeRA _ _ _)
  have hbad : ∀ a, s.spares ((s.setAlign k a true).countMarkerError k) := fun a =>
    (spares_setAlign s k a true).trans (spares_countHighway _ _ _)
  unfold State.markerPosition
  split
  · exact .refl s
  · split
    · exact .refl s
    · exact .refl s
    · exact spares_markerInConfirm s k _ _ _ _
    · split
      · exact spares_setAlign s k _ _
      · exact spares_enterSearch s k []
    · split
      · exact hgood _
      · exact hbad _
    · split
      · exact hgood _
      · split
        · exact hbad _
        · exact (((spares_countHighway s k _).trans (spares_countHighway _ k _)).trans (spares_raise _ _ _)).trans
            (spares_enterSearch _ k [])

/-- Of the blocks that take their share of a completed frame the framer alone does something of a port's own (R51). -/
theorem spares_completionTask (s : State) (k : Highway) (a : Align) (f : InFrame) {x : CompletionTask}
    (hx : x ≠ .framer) : s.spares (s.completionTask k a f x) :=
  spares_of_hears (touches_completionTask s k a f hx) (by simp [completionBlocks]) (completionTask_raises s k a f hx).1

end Sys2Proof.Machine
end

section
/-! SUPPORT. The limits of a port, and what each operation on its queues and on its cache makes of them (R135 to R141). -/

namespace Sys2Proof.Machine

/-! ### One port -/

/-- The limits of a port's queues and cache (R135, R139), with whole messages behind the head (R143). -/
structure Port.bounded (x : Port) : Prop where
  commands : x.commands.length ≤ 4
  transmit : x.transmit.length ≤ 6
  cache    : x.cache.length ≤ 8
  whole    : x.messagesWhole
  tags     : (x.cache.map (·.tag)).Nodup
  zero     : ∀ e ∈ x.cache, e.tag ≠ 0

/-- How many places are reserved for a command that is being executed (R139). -/
def Port.held (x : Port) : Nat := x.transmit.countP (Place.isReservedFor .command)

theorem settled_iff (x : Port) : x.settled ↔ x.held = 0 := by
  rw [Port.settled, Port.held, List.countP_eq_zero, List.any_eq_false]

/-- A place is kept for the response of a COMMIT (R140). -/
def Port.keepsCommit (x : Port) : Prop := x.transmit.any (Place.isReservedFor .commit) = true

theorem seven_le_responseMessage (tag code : Octet) (r : Reply) : 7 ≤ (responseMessage tag code r).length := by
  simp only [responseMessage, envelope, pairOctets, List.length_cons, List.length_append]
  simp only [List.length_nil]
  omega

theorem isNotice_not_reserved {z : Place} (h : z.isNotice) (r : Reservation) : z.isReservedFor r = false := by
  obtain ⟨notice, rfl, -⟩ := h
  rfl

section
variable {x y : Port}

theorem mem_drop_append {α : Type} {z : α} {l m : List α} (h : z ∈ (l ++ m).drop 1) : z ∈ l.drop 1 ∨ z ∈ m := by
  cases l with
  | nil => exact .inr (List.mem_of_mem_drop h)
  | cons a l => exact (List.mem_append.mp h)

theorem Port.goes.bounded (h : x.goes y) (hx : x.bounded) : y.bounded := by
  obtain ⟨more, f, c, rfl, hm, hl⟩ := h
  refine ⟨hx.commands, ?_, hx.cache, ⟨fun m r hmem => ?_, hx.whole.2⟩, hx.tags, hx.zero⟩
  · by_cases hne : more = []
    · simpa [hne] using hx.transmit
    · exact hl hne
  · rcases mem_drop_append hmem with hmem | hmem
    · exact hx.whole.1 m r hmem
    · obtain ⟨notice, he, -, hlen⟩ := hm _ hmem
      cases he
      exact hlen

theorem Port.goes.held (h : x.goes y) : y.held = x.held := by
  obtain ⟨more, f, c, rfl, hm, -⟩ := h
  have : more.countP (Place.isReservedFor .command) = 0 :=
    List.countP_eq_zero.mpr fun z hz => by simp [isNotice_not_reserved (hm z hz)]
  simp [Port.held, this]

theorem Port.goes.keepsCommit (h : x.goes y) (hx : x.keepsCommit) : y.keepsCommit := by
  obtain ⟨more, f, c, rfl, -, -⟩ := h
  simp only [Port.keepsCommit, List.any_append, Bool.or_eq_true] at hx ⊢
  exact .inl hx

theorem Port.goes.waits (h : x.goes y) (hx : x.waitsForPlace) : y.waitsForPlace := by
  obtain ⟨more, f, c, rfl, -, -⟩ := h
  intro q rest hq hs
  have := hx q rest hq hs
  simp only [List.length_append]
  omega

theorem Port.goes.commands (h : x.goes y) : y.commands = x.commands := by
  obtain ⟨more, f, c, rfl, -, -⟩ := h
  rfl

theorem Port.goes.cache (h : x.goes y) : y.cache = x.cache := by
  obtain ⟨more, f, c, rfl, -, -⟩ := h
  rfl

theorem Port.goes.length (h : x.goes y) : x.transmit.length ≤ y.transmit.length := by
  obtain ⟨more, f, c, rfl, -, -⟩ := h
  simp

end

/-! ### The places of a transmit queue (R141) -/

theorem keepForCommit_length (places : List Place) : (keepForCommit places).length = places.length := by
  induction places with
  | nil => rfl
  | cons y ys ih =>
    cases y with
    | reserved r => cases r <;> simp [keepForCommit, ih]
    | message m z => simp [keepForCommit, ih]

theorem mem_fillPlace_message {r : Reservation} {m n : List Octet} {z z' : Option Scope} {places : List Place}
    (h : .message n z' ∈ fillPlace r m z places) : n = m ∨ .message n z' ∈ places := by
  induction places with
  | nil => cases h
  | cons y ys ih =>
    cases y with
    | reserved r' =>
      unfold fillPlace at h
      split at h
      · rcases List.mem_cons.mp h with h | h
        · cases h; exact .inl rfl
        · exact .inr (List.mem_cons_of_mem _ h)
      · rcases List.mem_cons.mp h with h | h
        · cases h
        · exact (ih h).imp_right (List.mem_cons_of_mem _)
    | message m' z'' =>
      rcases List.mem_cons.mp h with h | h
      · exact .inr (h ▸ List.mem_cons_self)
      · exact (ih h).imp_right (List.mem_cons_of_mem _)

theorem mem_keepForCommit_message {n : List Octet} {z : Option Scope} {places : List Place}
    (h : .message n z ∈ keepForCommit places) : .message n z ∈ places := by
  induction places with
  | nil => cases h
  | cons y ys ih =>
    cases y with
    | reserved r =>
      cases r with
      | command =>
        rcases List.mem_cons.mp h with h | h
        · cases h
        · exact List.mem_cons_of_mem _ h
      | commit =>
        rcases List.mem_cons.mp h with h | h
        · cases h
        · exact List.mem_cons_of_mem _ (ih h)
    | message m z' =>
      rcases List.mem_cons.mp h with h | h
      · exact h ▸ List.mem_cons_self
      · exact List.mem_cons_of_mem _ (ih h)

/-- Behind the head a place filled is a whole message, or what stood there. -/
theorem drop_fillPlace_whole {r : Reservation} {m : List Octet} {z : Option Scope} {places : List Place} (hm : 7 ≤ m.length)
    (h : ∀ n z', .message n z' ∈ places.drop 1 → 7 ≤ n.length) :
    ∀ n z', .message n z' ∈ (fillPlace r m z places).drop 1 → 7 ≤ n.length := by
  intro n z' hn
  cases places with
  | nil => cases hn
  | cons y ys =>
    cases y with
    | reserved r' =>
      unfold fillPlace at hn
      split at hn
      · exact h n z' hn
      · exact (mem_fillPlace_message hn).elim (fun e => e ▸ hm) (h n z')
    | message m' z'' => exact (mem_fillPlace_message hn).elim (fun e => e ▸ hm) (h n z')

theorem drop_keepForCommit_whole {places : List Place} (h : ∀ n z', .message n z' ∈ places.drop 1 → 7 ≤ n.length) :
    ∀ n z', .message n z' ∈ (keepForCommit places).drop 1 → 7 ≤ n.length := by
  intro n z' hn
  cases places with
  | nil => cases hn
  | cons y ys =>
    cases y with
    | reserved r =>
      cases r with
      | command => exact h n z' hn
      | commit => exact h n z' (mem_keepForCommit_message hn)
    | message m z => exact h n z' (mem_keepForCommit_message hn)

theorem fillPlace_command_count (m : List Octet) (z : Option Scope) (places : List Place) :
    (fillPlace .command m z places).countP (Place.isReservedFor .command) =
      places.countP (Place.isReservedFor .command) - 1 := by
  induction places with
  | nil => rfl
  | cons y ys ih =>
    cases y with
    | reserved r =>
      cases r with
      | command => simp [fillPlace, Place.isReservedFor]
      | commit => simp [fillPlace, Place.isReservedFor, ih]
    | message m' z' => simp [fillPlace, Place.isReservedFor, ih]

theorem fillPlace_commit_count (m : List Octet) (z : Option Scope) (places : List Place) :
    (fillPlace .commit m z places).countP (Place.isReservedFor .command) =
      places.countP (Place.isReservedFor .command) := by
  induction places with
  | nil => rfl
  | cons y ys ih =>
    cases y with
    | reserved r =>
      cases r with
      | command => simp [fillPlace, Place.isReservedFor, ih]
      | commit => simp [fillPlace, Place.isReservedFor]
    | message m' z' => simp [fillPlace, Place.isReservedFor, ih]

theorem keepForCommit_count (places : List Place) :
    (keepForCommit places).countP (Place.isReservedFor .command) =
      places.countP (Place.isReservedFor .command) - 1 := by
  induction places with
  | nil => rfl
  | cons y ys ih =>
    cases y with
    | reserved r =>
      cases r with
      | command => simp [keepForCommit, Place.isReservedFor]
      | commit => simp [keepForCommit, Place.isReservedFor, ih]
    | message m z => simp [keepForCommit, Place.isReservedFor, ih]

/-- The place of a COMMIT that is being executed stays reserved for its deferred response (R22). -/
theorem keepForCommit_any {places : List Place} (h : 0 < places.countP (Place.isReservedFor .command)) :
    (keepForCommit places).any (Place.isReservedFor .commit) = true := by
  induction places with
  | nil => cases h
  | cons y ys ih =>
    cases y with
    | reserved r =>
      cases r with
      | command => rfl
      | commit => rfl
    | message m z =>
      rw [List.countP_cons_of_neg (by simp [Place.isReservedFor])] at h
      simpa [keepForCommit, Place.isReservedFor] using ih h

/-! ### The response cache (R135, R137) -/

theorem evictDone_sublist (cache : List CacheEntry) : (evictDone cache).Sublist cache := by
  induction cache with
  | nil => exact .slnil
  | cons e es ih =>
    unfold evictDone
    split
    · exact List.sublist_cons_self _ _
    · exact ih.cons_cons e

theorem evictDone_length {cache : List CacheEntry} (h : ∃ e ∈ cache, e.state.isDone = true) :
    (evictDone cache).length + 1 = cache.length := by
  induction cache with
  | nil =>
    obtain ⟨e, he, -⟩ := h
    cases he
  | cons e es ih =>
    unfold evictDone
    split
    · rfl
    · rename_i hd
      obtain ⟨e', he', hd'⟩ := h
      have hmem : e' ∈ es := (List.mem_cons.mp he').resolve_left fun hee => hd (hee ▸ hd')
      simp [ih ⟨e', hmem, hd'⟩]

/-- What an inserted entry leaves of the others. -/
theorem mem_insertEntry {e e' : CacheEntry} {cache : List CacheEntry} (h : e' ∈ insertEntry e cache) :
    e' = e ∨ e' ∈ cache := by
  unfold insertEntry at h
  rcases List.mem_append.mp h with h | h
  · split at h
    · exact .inr h
    · exact .inr ((evictDone_sublist cache).subset h)
  · exact .inl (List.mem_singleton.mp h)

theorem insertEntry_tags {e : CacheEntry} {cache : List CacheEntry} (hn : (cache.map (·.tag)).Nodup)
    (he : ∀ e' ∈ cache, e'.tag ≠ e.tag) : ((insertEntry e cache).map (·.tag)).Nodup := by
  have hkept : ∀ l : List CacheEntry, l.Sublist cache → ((l ++ [e]).map (·.tag)).Nodup := fun l hl => by
    rw [List.map_append, List.nodup_append]
    refine ⟨hn.sublist (hl.map _), by simp, fun a ha b hb hab => ?_⟩
    obtain ⟨e', he', rfl⟩ := List.mem_map.mp ha
    have : b = e.tag := by simpa using hb
    exact he e' (hl.subset he') (hab.trans this)
  unfold insertEntry
  split
  · exact hkept _ (List.Sublist.refl _)
  · exact hkept _ (evictDone_sublist cache)

/-- A full cache has an entry to evict, while fewer than eight entries are IN_PROGRESS (R137). -/
theorem insertEntry_length {e : CacheEntry} {cache : List CacheEntry} (h8 : cache.length ≤ 8)
    (h : cache.length = 8 → ∃ e ∈ cache, e.state.isDone = true) : (insertEntry e cache).length ≤ 8 := by
  unfold insertEntry
  split
  · rename_i hlt
    have : cache.length < 8 := hlt
    simp only [List.length_append, List.length_singleton]
    omega
  · rename_i hlt
    have hge : ¬cache.length < 8 := hlt
    have := evictDone_length (h (by omega))
    simp only [List.length_append, List.length_singleton]
    omega

theorem completeEntry_tags (tag : Octet) (m : List Octet) (cache : List CacheEntry) :
    (completeEntry tag m cache).map (·.tag) = cache.map (·.tag) := by
  rw [completeEntry, List.map_map]
  refine List.map_congr_left fun e _ => ?_
  simp only [Function.comp]
  split <;> rfl

theorem mem_completeEntry {tag : Octet} {m : List Octet} {cache : List CacheEntry} {e : CacheEntry}
    (h : e ∈ completeEntry tag m cache) : (e ∈ cache ∧ e.tag ≠ tag) ∨ e.tag = tag ∧ e.state = .done m ∧
      ∃ e' ∈ cache, e'.tag = e.tag := by
  obtain ⟨e', he', rfl⟩ := List.mem_map.mp h
  split
  · rename_i ht
    exact .inr ⟨ht, rfl, e', he', rfl⟩
  · rename_i ht
    exact .inl ⟨he', ht⟩

end Sys2Proof.Machine
end

section
/-! SUPPORT. The limits of both ports, and what the path of a command through its port makes of them (R135 to R140). -/

namespace Sys2Proof.Machine

/-! ### Both ports -/

/-- The limits of the ports, with every IN_PROGRESS entry awaited, while a command of each port in `l` is being executed in
its reserved place. -/
structure State.holds (s : State) (l : List PortId) : Prop where
  bounded : ∀ p, (s.port p).bounded
  awaited : ∀ p, ∀ e ∈ (s.port p).cache, e.state = .inProgress → s.awaited p e
  held    : ∀ p, (s.port p).held = if p ∈ l then 1 else 0

theorem portsOk_iff (s : State) : s.portsOk ↔ s.holds [] ∧ ∀ p, (s.port p).waitsForPlace := by
  constructor
  · intro h
    refine ⟨⟨fun p => ?_, fun p => ?_, fun p => ?_⟩, fun p => ?_⟩
    all_goals obtain ⟨h1, h2, h3, h4, h5, h6, h7, h8, h9⟩ := h p
    · exact ⟨h1, h2, h3, h6, h7, h8⟩
    · exact h9
    · exact (settled_iff _).mp h4
    · exact h5
  · intro ⟨h, hw⟩ p
    obtain ⟨h1, h2, h3, h4, h5, h6⟩ := h.bounded p
    exact ⟨h1, h2, h3, (settled_iff _).mpr (h.held p), hw p, h4, h5, h6, h.awaited p⟩

theorem record_eq_some_iff (e : Engine) (r : PendingCommit) : e.record = some r ↔ e = .pending r := by
  cases e <;> simp [Engine.record]

section
variable {s t : State} {l : List PortId} {p : PortId}

/-- An entry that is awaited goes on being so, while its command waits and the place of its COMMIT is kept. -/
theorem awaited_of_keeps {e : CacheEntry} (h : s.awaited p e)
    (hc : ∀ q ∈ (s.port p).commands, q.tag = e.tag → q.cached = true → t.awaited p e)
    (he : ∀ r, s.engine.record = some r → r.port = p → r.tag = e.tag → r.cached = true → (s.port p).keepsCommit →
      t.awaited p e) : t.awaited p e := by
  rcases h with ⟨q, hq, ht, hcached⟩ | ⟨r, hr, hp, ht, hcached, hk⟩
  · exact hc q hq ht hcached
  · exact he r ((record_eq_some_iff _ _).mpr hr) hp ht hcached hk

theorem holds_of_spares (h : s.holds l) (hst : s.spares t) : t.holds l where
  bounded q := (hst.ports q).bounded (h.bounded q)
  awaited q e he hi := by
    rw [(hst.ports q).cache] at he
    refine awaited_of_keeps (h.awaited q e he hi) (fun c hc ht hcached => .inl ⟨c, ?_, ht, hcached⟩)
      fun r hr hp ht hcached hk => .inr ⟨r, ?_, hp, ht, hcached, (hst.ports q).keepsCommit hk⟩
    · rw [(hst.ports q).commands]
      exact hc
    · exact (record_eq_some_iff _ _).mp (hst.record.trans hr)
  held q := (hst.ports q).held.trans (h.held q)

theorem waits_of_spares (h : ∀ q, (s.port q).waitsForPlace) (hst : s.spares t) : ∀ q, (t.port q).waitsForPlace :=
  fun q => (hst.ports q).waits (h q)

theorem portsOk_of_spares (h : s.portsOk) (hst : s.spares t) : t.portsOk :=
  (portsOk_iff t).mpr ⟨holds_of_spares ((portsOk_iff s).mp h).1 hst, waits_of_spares ((portsOk_iff s).mp h).2 hst⟩

/-- What a port does with its own queues is no matter of the other port. -/
theorem holds_setPort (h : s.holds l) {x : Port} (hx : x.bounded)
    (haw : ∀ e ∈ x.cache, e.state = .inProgress → (s.setPort p x).awaited p e) {m : List PortId}
    (hheld : x.held = if p ∈ m then 1 else 0) (hm : ∀ o, o ≠ p → (o ∈ m ↔ o ∈ l)) : (s.setPort p x).holds m := by
  have hother : ∀ o, o ≠ p → (s.setPort p x).port o = s.port o := fun o ho => by simp [ho.symm]
  refine ⟨fun o => ?_, fun o e he hi => ?_, fun o => ?_⟩
  · by_cases ho : o = p
    · subst ho; simpa using hx
    · rw [hother o ho]; exact h.bounded o
  · by_cases ho : o = p
    · subst ho
      exact haw e (by simpa using he) hi
    · rw [hother o ho] at he
      refine awaited_of_keeps (h.awaited o e he hi) (fun c hc ht hcached => .inl ⟨c, ?_, ht, hcached⟩)
        fun r hr hp ht hcached hk => .inr ⟨r, ?_, hp, ht, hcached, ?_⟩
      · rwa [hother o ho]
      · rw [setPort_engine]
        exact (record_eq_some_iff _ _).mp hr
      · rwa [hother o ho]
  · by_cases ho : o = p
    · subst ho; simpa using hheld
    · rw [hother o ho, h.held o]
      simp [hm o ho]

/-- An entry of the port awaits what it awaited, while the port keeps its commands and the place of a COMMIT. -/
theorem awaited_setPort {x : Port} {e : CacheEntry} (h : s.awaited p e)
    (hc : ∀ q ∈ (s.port p).commands, q.tag = e.tag → q.cached = true → q ∈ x.commands)
    (hk : (s.port p).keepsCommit → x.keepsCommit) : (s.setPort p x).awaited p e :=
  awaited_of_keeps h (fun q hq ht hcached => .inl ⟨q, by simpa using hc q hq ht hcached, ht, hcached⟩)
    fun r hr hp ht hcached hkeeps => .inr ⟨r, by rw [setPort_engine]; exact (record_eq_some_iff _ _).mp hr, hp, ht,
      hcached, by rw [show (s.setPort p x).port p = x by simp]; exact hk hkeeps⟩

/-- At most five entries are IN_PROGRESS: those of the waiting commands and of the pending COMMIT (R137). -/
theorem inProgress_le (h : s.holds l) (p : PortId) :
    ((s.port p).cache.filter fun e => !e.state.isDone).length ≤ (s.port p).commands.length + 1 := by
  have hsub : ((s.port p).cache.filter fun e => !e.state.isDone).map (·.tag) ⊆
      (s.port p).commands.map (·.tag) ++ s.engine.record.toList.map (·.tag) := by
    intro a ha
    obtain ⟨e, he, rfl⟩ := List.mem_map.mp ha
    obtain ⟨he, hd⟩ := List.mem_filter.mp he
    have hi : e.state = .inProgress := by
      cases hs : e.state with
      | inProgress => rfl
      | done m => simp [hs, CacheState.isDone] at hd
    rcases h.awaited p e he hi with ⟨q, hq, ht, -⟩ | ⟨r, hr, -, ht, -⟩
    · exact List.mem_append_left _ (List.mem_map.mpr ⟨q, hq, ht⟩)
    · refine List.mem_append_right _ (List.mem_map.mpr ⟨r, ?_, ht⟩)
      simp [hr, Engine.record]
  have hnd : (((s.port p).cache.filter fun e => !e.state.isDone).map (·.tag)).Nodup :=
    (h.bounded p).tags.sublist (List.filter_sublist.map _)
  have hle := (hnd.subperm hsub).length_le
  have hrec : s.engine.record.toList.length ≤ 1 := by cases s.engine.record <;> simp
  simp only [List.length_map, List.length_append] at hle
  omega

/-- A full cache has a DONE entry to evict (R137). -/
theorem exists_done (h : s.holds l) (p : PortId) (h8 : (s.port p).cache.length = 8) :
    ∃ e ∈ (s.port p).cache, e.state.isDone = true := by
  by_contra hn
  have hall : ((s.port p).cache.filter fun e => !e.state.isDone) = (s.port p).cache :=
    List.filter_eq_self.mpr fun e he => by
      simp only [not_exists, not_and] at hn
      simpa using hn e he
  have hle := inProgress_le h p
  have h4 := (h.bounded p).commands
  rw [hall] at hle
  omega

/-! ### Answers on receipt (R136 to R138) -/

/-- No entry awaits the response of commit `r` any more. -/
def State.spent (s : State) (r : PendingCommit) : Prop :=
  ∀ e ∈ (s.port r.port).cache, e.state = .inProgress → r.tag = e.tag → r.cached = true → ¬(s.port r.port).keepsCommit

/-- The engine leaves a pending commit that no entry awaits any more (R26, R27). -/
theorem holds_setEngine {e : Engine} (h : s.holds l) (he : ∀ r, s.engine.record = some r → e.record = some r ∨ s.spent r) :
    (s.setEngine e).holds l where
  bounded q := by simpa using h.bounded q
  awaited q c hc hi := by
    have hc' : c ∈ (s.port q).cache := by simpa using hc
    refine awaited_of_keeps (h.awaited q c hc' hi)
      (fun x hx ht hcached => .inl ⟨x, by simpa using hx, ht, hcached⟩)
      fun r hr hp ht hcached hk => ?_
    rcases he r hr with hr' | hsp
    · exact .inr ⟨r, by rw [setEngine_engine]; exact (record_eq_some_iff _ _).mp hr', hp, ht, hcached,
        by rw [setEngine_port]; exact hk⟩
    · subst hp
      exact absurd hk (hsp c hc' hi ht hcached)
  held q := by simpa using h.held q

theorem Port.hasPlace_iff (x : Port) : x.hasPlace = true ↔ x.transmit.length < 6 := decide_eq_true_iff

theorem Port.bounded.append {x : Port} (hx : x.bounded) (h : x.hasPlace = true) {y : Place}
    (hy : ∀ m z, y = .message m z → 7 ≤ m.length) : Port.bounded { x with transmit := x.transmit ++ [y] } where
  commands := hx.commands
  transmit := by
    have := (Port.hasPlace_iff x).mp h
    simp only [List.length_append, List.length_singleton]
    omega
  cache := hx.cache
  whole := by
    refine ⟨fun m z hm => ?_, hx.whole.2⟩
    rcases mem_drop_append hm with hm | hm
    · exact hx.whole.1 m z hm
    · exact hy m z (List.mem_singleton.mp hm).symm
  tags := hx.tags
  zero := hx.zero

/-- An answer is offered (R138). -/
theorem holds_offerAnswer (h : s.holds l) {m : List Octet} (hm : 7 ≤ m.length) : (s.offerAnswer p m).holds l := by
  unfold State.offerAnswer
  split
  · rename_i hplace
    refine holds_setPort h ((h.bounded p).append hplace fun n z e => by cases e; exact hm) (fun e he hi => ?_) ?_
      fun _ _ => Iff.rfl
    · exact awaited_setPort (h.awaited p e he hi) (fun q hq _ _ => hq)
        fun hk => by simp only [Port.keepsCommit, List.any_append, Bool.or_eq_true] at hk ⊢; exact .inl hk
    · rw [← h.held p]
      simp [Port.held, Place.isReservedFor]
  · exact holds_of_spares h ((spares_countPort s p _).trans (spares_raise _ _ _))

theorem waits_setPort (h : ∀ q, (s.port q).waitsForPlace) {x : Port} (hx : x.waitsForPlace) :
    ∀ q, ((s.setPort p x).port q).waitsForPlace := by
  intro q
  by_cases hq : p = q
  · subst hq; simpa using hx
  · simpa [hq] using h q

theorem waits_offerAnswer (h : ∀ q, (s.port q).waitsForPlace) (m : List Octet) :
    ∀ q, ((s.offerAnswer p m).port q).waitsForPlace := by
  unfold State.offerAnswer
  split
  · refine waits_setPort h fun q rest hq hs => ?_
    have := h p q rest hq hs
    simp only [List.length_append]
    omega
  · exact waits_of_spares h ((spares_countPort s p _).trans (spares_raise _ _ _))

/-- A tag that no entry has gets an entry (R136, R137). -/
theorem Port.bounded.insert {x : Port} (hx : x.bounded) {e : CacheEntry} (ht : ∀ e' ∈ x.cache, e'.tag ≠ e.tag)
    (h0 : e.tag ≠ 0) (h8 : x.cache.length = 8 → ∃ e ∈ x.cache, e.state.isDone = true)
    (hm : ∀ m, e.state = .done m → 7 ≤ m.length) : Port.bounded { x with cache := insertEntry e x.cache } where
  commands := hx.commands
  transmit := hx.transmit
  cache := insertEntry_length hx.cache h8
  whole := by
    refine ⟨hx.whole.1, fun e' he' m hs => ?_⟩
    rcases mem_insertEntry he' with rfl | he'
    · exact hm m hs
    · exact hx.whole.2 e' he' m hs
  tags := insertEntry_tags hx.tags ht
  zero := fun e' he' => (mem_insertEntry he').elim (fun e => e ▸ h0) (hx.zero e')

theorem holds_cacheDone (h : s.holds l) {m : Message} (ht : m.tag = 0 ∨ ∀ e ∈ (s.port p).cache, e.tag ≠ m.tag)
    {a : List Octet} (ha : 7 ≤ a.length) : (s.cacheMessage p m (.done a)).holds l := by
  unfold State.cacheMessage
  split
  · exact h
  · rename_i h0
    refine holds_setPort h ((h.bounded p).insert (ht.resolve_left h0) h0 (exists_done h p) fun n hn => ?_)
      (fun e he hi => ?_) (h.held p) fun _ _ => Iff.rfl
    · cases hn; exact ha
    · rcases mem_insertEntry he with rfl | he
      · cases hi
      · exact awaited_setPort (h.awaited p e he hi) (fun q hq _ _ => hq) id

theorem waits_cacheMessage (h : ∀ q, (s.port q).waitsForPlace) (m : Message) (x : CacheState) :
    ∀ q, ((s.cacheMessage p m x).port q).waitsForPlace := by
  unfold State.cacheMessage
  split
  · exact h
  · exact waits_setPort h fun q rest hq hs => h p q rest hq hs

theorem receipt_portsOk (h : s.portsOk) {m : Message} (ht : m.tag = 0 ∨ ∀ e ∈ (s.port p).cache, e.tag ≠ m.tag)
    (status : Status) : (s.answerReceipt p m status).portsOk := by
  obtain ⟨h, hw⟩ := (portsOk_iff s).mp h
  have h7 := seven_le_responseMessage m.tag m.code (refusal status)
  exact (portsOk_iff _).mpr ⟨holds_offerAnswer (holds_cacheDone h ht h7) h7,
    waits_offerAnswer (waits_cacheMessage hw _ _) _⟩

theorem offerAnswer_portsOk (h : s.portsOk) {m : List Octet} (hm : 7 ≤ m.length) : (s.offerAnswer p m).portsOk := by
  obtain ⟨h, hw⟩ := (portsOk_iff s).mp h
  exact (portsOk_iff _).mpr ⟨holds_offerAnswer h hm, waits_offerAnswer hw _⟩

theorem busy_portsOk (h : s.portsOk) (m : Message) : (s.answerBusy p m).portsOk :=
  offerAnswer_portsOk (portsOk_of_spares h (spares_countPort s p _)) (seven_le_responseMessage _ _ _)

/-! ### An entry whose tag returns with another check (R135) -/

/-- Port `x` without the entry of a tag: its commands go on, and their responses are not cached (R135). -/
def Port.forgetting (x : Port) (tag : Octet) : Port :=
  { x with
    cache := x.cache.filter fun e => e.tag ≠ tag
    commands := x.commands.map fun c => if c.tag = tag then { c with cached := false } else c }

theorem Port.bounded.forget {x : Port} (hx : x.bounded) (tag : Octet) : (x.forgetting tag).bounded where
  commands := by simpa [Port.forgetting] using hx.commands
  transmit := hx.transmit
  cache := (List.length_filter_le _ _).trans hx.cache
  whole := ⟨hx.whole.1, fun e he => hx.whole.2 e (List.mem_of_mem_filter he)⟩
  tags := hx.tags.sublist (List.filter_sublist.map _)
  zero := fun e he => hx.zero e (List.mem_of_mem_filter he)

theorem forgetEntry_eq (s : State) (p : PortId) (tag : Octet) :
    s.forgetEntry p tag = s.setPort p ((s.port p).forgetting tag) ∨
      ∃ r, s.engine = .pending r ∧ r.port = p ∧ r.tag = tag ∧
        s.forgetEntry p tag =
          (s.setPort p ((s.port p).forgetting tag)).setEngine (.pending { r with cached := false }) := by
  unfold State.forgetEntry
  simp only [setPort_engine]
  cases he : s.engine with
  | pending r =>
    by_cases hr : r.port = p ∧ r.tag = tag
    · exact .inr ⟨r, rfl, hr.1, hr.2, if_pos hr⟩
    · exact .inl (if_neg hr)
  | idle | syncing pos marks => exact .inl rfl

theorem holds_forgetting (h : s.holds l) (tag : Octet) : (s.setPort p ((s.port p).forgetting tag)).holds l := by
  refine holds_setPort h ((h.bounded p).forget tag) (fun e he hi => ?_) (h.held p) fun _ _ => Iff.rfl
  obtain ⟨he, hne⟩ := List.mem_filter.mp he
  have hne : e.tag ≠ tag := by simpa using hne
  refine awaited_setPort (h.awaited p e he hi) (fun q hq ht _ => ?_) id
  exact List.mem_map.mpr ⟨q, hq, if_neg (by rw [ht]; exact hne)⟩

theorem waits_forgetting (h : ∀ q, (s.port q).waitsForPlace) (tag : Octet) :
    ∀ q, ((s.setPort p ((s.port p).forgetting tag)).port q).waitsForPlace := by
  refine waits_setPort h fun q rest hq hs => ?_
  cases hc : (s.port p).commands with
  | nil => simp [Port.forgetting, hc] at hq
  | cons c cs =>
    refine h p c cs hc ?_
    simp only [Port.forgetting, hc, List.map_cons, List.cons.injEq] at hq
    obtain ⟨rfl, -⟩ := hq
    split at hs <;> exact hs

theorem forgetEntry_portsOk (h : s.portsOk) (tag : Octet) :
    (s.forgetEntry p tag).portsOk ∧ ∀ e ∈ ((s.forgetEntry p tag).port p).cache, e.tag ≠ tag := by
  obtain ⟨h, hw⟩ := (portsOk_iff s).mp h
  have hgone : ∀ e ∈ ((s.setPort p ((s.port p).forgetting tag)).port p).cache, e.tag ≠ tag := fun e he => by
    simpa using (List.mem_filter.mp (by simpa using he : e ∈ ((s.port p).forgetting tag).cache)).2
  rcases forgetEntry_eq s p tag with heq | ⟨r, hr, rfl, rfl, heq⟩
  · rw [heq]
    exact ⟨(portsOk_iff _).mpr ⟨holds_forgetting h tag, waits_forgetting hw tag⟩, hgone⟩
  · rw [heq]
    refine ⟨(portsOk_iff _).mpr ⟨holds_setEngine (holds_forgetting h _) fun r' hr' => .inr ?_, fun q => ?_⟩, fun e he => ?_⟩
    · rw [setPort_engine, hr] at hr'
      cases hr'
      exact fun e he _ ht => absurd ht.symm (hgone e he)
    · rw [setEngine_port]
      exact waits_forgetting hw _ q
    · rw [setEngine_port] at he
      exact hgone e he

end

end Sys2Proof.Machine
end

section
/-! SUPPORT. The limits of the ports while commands are executed (R139, R140), and while messages are received (R135). -/

namespace Sys2Proof.Machine

section
variable {s t : State} {l : List PortId} {p : PortId}

/-! ### Responses -/

/-- Port `x` with the response of the command or COMMIT of a tag in the place reserved for it (R140). -/
def Port.answered (x : Port) (r : Reservation) (tag : Octet) (cached : Bool) (m : List Octet) (z : Option Scope) : Port :=
  { x with
    transmit := fillPlace r m z x.transmit
    cache := if cached then completeEntry tag m x.cache else x.cache }

theorem Port.bounded.answered {x : Port} (hx : x.bounded) (r : Reservation) (tag : Octet) (cached : Bool) {m : List Octet}
    (hm : 7 ≤ m.length) (z : Option Scope) : (x.answered r tag cached m z).bounded where
  commands := hx.commands
  transmit := by simpa [Port.answered, fillPlace_length] using hx.transmit
  cache := by
    unfold Port.answered
    simp only
    split
    · simpa [completeEntry] using hx.cache
    · exact hx.cache
  whole := by
    refine ⟨drop_fillPlace_whole hm hx.whole.1, fun e he n hn => ?_⟩
    unfold Port.answered at he
    simp only at he
    split at he
    · rcases mem_completeEntry he with ⟨he, -⟩ | ⟨-, hd, -⟩
      · exact hx.whole.2 e he n hn
      · rw [hd] at hn; cases hn; exact hm
    · exact hx.whole.2 e he n hn
  tags := by
    unfold Port.answered
    simp only
    split
    · rw [completeEntry_tags]; exact hx.tags
    · exact hx.tags
  zero := by
    intro e he
    unfold Port.answered at he
    simp only at he
    split at he
    · rcases mem_completeEntry he with ⟨he, -⟩ | ⟨-, -, e', he', ht⟩
      · exact hx.zero e he
      · exact ht ▸ hx.zero e' he'
    · exact hx.zero e he

/-- An entry that is IN_PROGRESS after a response was so before it, and is not the entry of that response. -/
theorem mem_answered_cache {x : Port} {r : Reservation} {tag : Octet} {cached : Bool} {m : List Octet} {z : Option Scope}
    {e : CacheEntry} (he : e ∈ (x.answered r tag cached m z).cache) (hi : e.state = .inProgress) :
    e ∈ x.cache ∧ (cached = true → e.tag ≠ tag) := by
  unfold Port.answered at he
  simp only at he
  split at he
  · rcases mem_completeEntry he with ⟨he, hne⟩ | ⟨-, hd, -⟩
    · exact ⟨he, fun _ => hne⟩
    · rw [hd] at hi; cases hi
  · rename_i hc
    exact ⟨he, fun h => absurd h hc⟩

/-! ### The deferred response of a COMMIT (R26, R27) -/

theorem setEngine_setPort (s : State) (e : Engine) (p : PortId) (x : Port) :
    (s.setEngine e).setPort p x = (s.setPort p x).setEngine e := by cases p <;> rfl

theorem answerCommit_eq (s : State) (r : PendingCommit) (reply : Reply) :
    s.answerCommit r reply = if (s.port r.port).transmit.any (Place.isReservedFor .commit) then
      s.setPort r.port ((s.port r.port).answered .commit r.tag r.cached (responseMessage r.tag Command.commit.code reply) none)
    else s := rfl

theorem answerCommit_setEngine (s : State) (e : Engine) (r : PendingCommit) (reply : Reply) :
    (s.setEngine e).answerCommit r reply = (s.answerCommit r reply).setEngine e := by
  rw [answerCommit_eq, answerCommit_eq, setEngine_port]
  split
  · exact setEngine_setPort _ _ _ _
  · rfl

/-- The response of the pending COMMIT: no entry awaits it any more. -/
theorem holds_answerCommit (h : s.holds l) {r : PendingCommit} (hr : s.engine.record = some r) (reply : Reply) :
    (s.answerCommit r reply).holds l ∧ (s.answerCommit r reply).spent r := by
  have h7 := seven_le_responseMessage r.tag Command.commit.code reply
  rw [answerCommit_eq]
  split
  · refine ⟨holds_setPort h ((h.bounded r.port).answered .commit r.tag r.cached h7 none) (fun e he hi => ?_) ?_
      fun _ _ => Iff.rfl, fun e he hi ht hc => ?_⟩
    · obtain ⟨he, hne⟩ := mem_answered_cache he hi
      refine awaited_of_keeps (h.awaited _ e he hi) (fun q hq ht hc => .inl ⟨q, by simpa [Port.answered] using hq, ht, hc⟩)
        fun r' hr' _ ht hc => ?_
      rw [hr] at hr'
      cases hr'
      exact absurd ht.symm (hne hc)
    · rw [← h.held r.port]
      exact fillPlace_commit_count _ _ _
    · rw [show ∀ x, (s.setPort r.port x).port r.port = x from fun x => by simp] at he
      exact absurd ht.symm ((mem_answered_cache he hi).2 hc)
  · rename_i hk
    exact ⟨h, fun e _ _ _ _ hkeeps => hk hkeeps⟩

/-- The commit is answered and the engine leaves PENDING, in one step (R26, R27). -/
theorem holds_answered (h : s.holds l) {r : PendingCommit} (hr : s.engine.record = some r) (e : Engine) (reply : Reply) :
    ((s.setEngine e).answerCommit r reply).holds l := by
  obtain ⟨h1, h2⟩ := holds_answerCommit h hr reply
  rw [answerCommit_setEngine]
  refine holds_setEngine h1 fun r' hr' => .inr ?_
  rw [(touches_answerCommit s r reply).engine (by simp), hr] at hr'
  cases hr'
  exact h2

/-- A response leaves the commands and takes no place of a transmit queue. -/
theorem answerCommit_waits (h : ∀ q, (s.port q).waitsForPlace) (r : PendingCommit) (reply : Reply) :
    ∀ q, ((s.answerCommit r reply).port q).waitsForPlace := by
  rw [answerCommit_eq]
  split
  · refine waits_setPort h fun q rest hq hs => ?_
    simpa [Port.answered, fillPlace_length] using h r.port q rest hq hs
  · exact h

theorem answerCommit_length (s : State) (r : PendingCommit) (reply : Reply) (q : PortId) :
    ((s.answerCommit r reply).port q).transmit.length = (s.port q).transmit.length := by
  rw [answerCommit_eq]
  split
  · by_cases hq : r.port = q
    · subst hq
      simp [Port.answered, fillPlace_length]
    · simp [hq]
  · rfl

/-! ### A command that is executed (R139, R140) -/

/-- Of the results the deferred one is that of an accepted COMMIT alone (R22, R140). -/
theorem runCommand_deferred {q : Queued} (h : (runCommand p q s).2 = .deferred) : q.command = .commit := by
  unfold runCommand at h
  cases hq : q.command with
  | commit => rfl
  | _ =>
    simp only [hq, runClaim, runRelease, runSetLease, runReset, runWriteEntries, runReadEntries, runClearStandby, runResync,
      runAbortCommit, runSetInput, runSetOutput, runReadHighway, runReadCounters, runReadCountersHighway,
      runReadCountersPort, runWatch, runReadSignaling, runFetchEvents, runSetAttention, runArmCapture, runReadCapture,
      runCancelCapture, State.leased] at h
    repeat' split at h
    all_goals cases h

/-- An ABORT_COMMIT changes nothing, or answers the pending COMMIT and raises its event (R27). -/
theorem runAbortCommit_cases (s : State) (p : PortId) :
    (runAbortCommit p s).1 = s ∨ ∃ r reply, s.engine.record = some r ∧
      (runAbortCommit p s).1 = ((s.setEngine .idle).answerCommit r reply).raise .commit .aborted := by
  unfold runAbortCommit State.leased
  split
  · split
    · exact .inl rfl
    · exact .inl rfl
    · rename_i r he
      exact .inr ⟨r, _, by rw [he]; rfl, rfl⟩
  · exact .inl rfl

/-- What a command does before it completes: the limits hold, no place is lost, and a deferred result leaves the record of
its COMMIT (R22, R140). -/
theorem runCommand_holds (h : s.holds l) {q : Queued} (ha : s.acts p) :
    (runCommand p q s).1.holds l ∧
      (∀ o, (s.port o).transmit.length ≤ ((runCommand p q s).1.port o).transmit.length) ∧
      ((runCommand p q s).2 = .deferred →
        (runCommand p q s).1.engine.record = some { port := p, tag := q.tag, cached := q.cached }) := by
  by_cases hc : q.command = .commit
  · have hrun : runCommand p q s = runCommit p q.tag q.cached s := by unfold runCommand; rw [hc]
    rw [hrun]
    unfold runCommit State.leased
    split
    · split
      · exact ⟨h, fun _ => le_rfl, fun e => by cases e⟩
      · exact ⟨h, fun _ => le_rfl, fun e => by cases e⟩
      · rename_i he
        exact ⟨holds_setEngine h (fun r hr => by rw [he] at hr; cases hr), fun o => by rw [setEngine_port],
          fun _ => rfl⟩
    · exact ⟨h, fun _ => le_rfl, fun e => by cases e⟩
  have hd : (runCommand p q s).2 = .deferred →
      (runCommand p q s).1.engine.record = some { port := p, tag := q.tag, cached := q.cached } :=
    fun e => absurd (runCommand_deferred e) hc
  by_cases hab : q.command = .abortCommit
  · have hrun : runCommand p q s = runAbortCommit p s := by unfold runCommand; rw [hab]
    rw [hrun] at hd ⊢
    rcases runAbortCommit_cases s p with heq | ⟨r, reply, hr, heq⟩
    · exact ⟨by rw [heq]; exact h, fun o => by rw [heq], hd⟩
    · have hsp := spares_raise ((s.setEngine .idle).answerCommit r reply) .commit .aborted
      refine ⟨by rw [heq]; exact holds_of_spares (holds_answered h hr _ _) hsp, fun o => ?_, hd⟩
      rw [heq]
      refine le_trans (le_of_eq ?_) (hsp.ports o).length
      rw [answerCommit_length, setEngine_port]
  · have hsp := spares_of_acts (acts_runCommand s p ha hc hab)
    exact ⟨holds_of_spares h hsp, fun o => (hsp.ports o).length, hd⟩

/-- Fewer commands wait, or as many. -/
theorem Port.bounded.withCommands {x : Port} (hx : x.bounded) {c : List Queued} (h : c.length ≤ 4) :
    Port.bounded { x with commands := c } :=
  ⟨h, hx.transmit, hx.cache, hx.whole, hx.tags, hx.zero⟩

/-- Port `x` after the completion of its head command with result `res` (R140). -/
def Port.completed (x : Port) (q : Queued) (rest : List Queued) : Result → Port
  | .reply r =>
    { x.answered .command q.tag q.cached (responseMessage q.tag q.command.code r) none with commands := rest }
  | .deferred => { x with transmit := keepForCommit x.transmit, commands := rest }
  | .resetAccepted scope r =>
    { x.answered .command q.tag q.cached (responseMessage q.tag q.command.code r) (some scope) with
      commands := { q with started := true } :: rest }

theorem complete_eq {q : Queued} {rest : List Queued} (hq : (t.port p).commands = q :: rest) (res : Result) :
    t.complete p q res = t.setPort p ((t.port p).completed q rest res) := by
  cases res with
  | reply r =>
    simp only [State.complete, State.answerCommand, State.dropHead, setPort_setPort, port_setPort, if_true, hq]
    rfl
  | deferred =>
    simp only [State.complete, State.keepPlace, State.dropHead, setPort_setPort, port_setPort, if_true, hq]
    rfl
  | resetAccepted scope r =>
    simp only [State.complete, State.answerCommand, State.holdHead, setPort_setPort, port_setPort, if_true, hq]
    rfl

theorem completed_commands (x : Port) (q : Queued) (rest : List Queued) (res : Result) :
    (x.completed q rest res).commands = rest ∨ (x.completed q rest res).commands = { q with started := true } :: rest := by
  cases res
  · exact .inl rfl
  · exact .inl rfl
  · exact .inr rfl

theorem completed_length (x : Port) (q : Queued) (rest : List Queued) (res : Result) :
    (x.completed q rest res).transmit.length = x.transmit.length := by
  cases res with
  | reply r => exact fillPlace_length _ _ _ _
  | deferred => exact keepForCommit_length _
  | resetAccepted scope r => exact fillPlace_length _ _ _ _

theorem completed_held (x : Port) (q : Queued) (rest : List Queued) (res : Result) :
    (x.completed q rest res).held = x.held - 1 := by
  cases res with
  | reply r => exact fillPlace_command_count _ _ _
  | deferred => exact keepForCommit_count _
  | resetAccepted scope r => exact fillPlace_command_count _ _ _

theorem Port.bounded.completed {x : Port} (hx : x.bounded) {q : Queued} {rest : List Queued}
    (hq : x.commands = q :: rest) (res : Result) : (x.completed q rest res).bounded := by
  have hlen : rest.length + 1 ≤ 4 := by
    have := hx.commands
    rwa [hq, List.length_cons] at this
  cases res with
  | reply r => exact (hx.answered .command q.tag q.cached (seven_le_responseMessage _ _ r) none).withCommands (by omega)
  | deferred =>
    exact ⟨by simp only [Port.completed]; omega, by simpa [Port.completed, keepForCommit_length] using hx.transmit, hx.cache,
      ⟨drop_keepForCommit_whole hx.whole.1, hx.whole.2⟩, hx.tags, hx.zero⟩
  | resetAccepted scope r =>
    exact (hx.answered .command q.tag q.cached (seven_le_responseMessage _ _ r) (some scope)).withCommands (by simpa using hlen)

/-- The head command completes: its entry is DONE, or awaits the response of the pending COMMIT (R140). -/
theorem holds_complete (h : t.holds l) (hp : p ∈ l) {q : Queued} {rest : List Queued}
    (hq : (t.port p).commands = q :: rest) {res : Result}
    (hd : res = .deferred → t.engine.record = some { port := p, tag := q.tag, cached := q.cached }) :
    (t.complete p q res).holds (l.filter (· ≠ p)) := by
  have hheld : 0 < (t.port p).held := by rw [h.held, if_pos hp]; exact Nat.one_pos
  have haw : ∀ x : Port, (∀ c ∈ rest, c ∈ x.commands) → ((t.port p).keepsCommit → x.keepsCommit) → ∀ e, t.awaited p e →
      (q.tag = e.tag → q.cached = true → (t.setPort p x).awaited p e) → (t.setPort p x).awaited p e :=
    fun x hc hk e he hhead => awaited_of_keeps he
      (fun c hcm ht hcached => by
        rw [hq] at hcm
        rcases List.mem_cons.mp hcm with rfl | hcm
        · exact hhead ht hcached
        · exact .inl ⟨c, by simpa using hc c hcm, ht, hcached⟩)
      fun r hr hrp ht hcached hkeeps => .inr ⟨r, by rw [setPort_engine]; exact (record_eq_some_iff _ _).mp hr, hrp, ht,
        hcached, by rw [show (t.setPort p x).port p = x by simp]; exact hk hkeeps⟩
  have hanswer : ∀ (x : Port) (m : List Octet) (z : Option Scope) (e : CacheEntry),
      (∀ c ∈ rest, c ∈ x.commands) → x.transmit = fillPlace .command m z (t.port p).transmit →
      e ∈ ((t.port p).answered .command q.tag q.cached m z).cache → e.state = .inProgress → (t.setPort p x).awaited p e := by
    intro x m z e hc hx he hi
    obtain ⟨he, hne⟩ := mem_answered_cache he hi
    refine haw x hc (fun hk => ?_) e (h.awaited p e he hi) fun ht hcached => absurd ht.symm (hne hcached)
    rw [Port.keepsCommit, hx, fillPlace_isReservedFor .command .commit m z _ (by simp)]
    exact hk
  rw [complete_eq hq]
  refine holds_setPort h ((h.bounded p).completed hq res) (fun e he hi => ?_) ?_ fun o ho => by simp [ho]
  · cases res with
    | reply r => exact hanswer _ _ none e (fun c hc => hc) rfl he hi
    | resetAccepted scope r => exact hanswer _ _ (some scope) e (fun c hc => List.mem_cons_of_mem _ hc) rfl he hi
    | deferred =>
      have hk : ((t.port p).completed q rest .deferred).keepsCommit := keepForCommit_any hheld
      refine haw _ (fun c hc => hc) (fun _ => hk) e (h.awaited p e he hi) fun ht hcached => ?_
      exact .inr ⟨_, by rw [setPort_engine]; exact (record_eq_some_iff _ _).mp (hd rfl), rfl, ht, hcached, by
        rw [show ∀ x, (t.setPort p x).port p = x from fun x => by simp]; exact hk⟩
  · rw [completed_held, h.held p, if_pos hp, if_neg (by simp)]

/-- A command whose place is reserved is executed: the limits hold again, no place is lost, and what waits at the other
port goes on waiting (R139, R140). -/
theorem executeCommand_holds (h : s.holds l) (hp : p ∈ l) {q : Queued} {rest : List Queued}
    (hq : (s.port p).commands = q :: rest) :
    (s.executeCommand p q).holds (l.filter (· ≠ p)) ∧
      (∀ o, (s.port o).transmit.length ≤ ((s.executeCommand p q).port o).transmit.length) ∧
      (∀ o, o ≠ p → ((s.executeCommand p q).port o).commands = (s.port o).commands) ∧
      (((s.executeCommand p q).port p).commands = rest ∨
        ((s.executeCommand p q).port p).commands = { q with started := true } :: rest) := by
  have hrenew : s.spares (s.renewLease p) := spares_of_acts (acts_renewLease s p)
  have hacts : (s.renewLease p).acts p := acts_of_commands (by simp [hq])
  obtain ⟨h1, h2, h3⟩ := runCommand_holds (holds_of_spares h hrenew) (q := q) hacts
  have hcmd : ∀ o, ((runCommand p q (s.renewLease p)).1.port o).commands = (s.port o).commands := fun o => by
    rw [runCommand_commands, (hrenew.ports o).commands]
  have hlen : ∀ o, (s.port o).transmit.length ≤ ((runCommand p q (s.renewLease p)).1.port o).transmit.length :=
    fun o => (hrenew.ports o).length.trans (h2 o)
  have hqr := (hcmd p).trans hq
  refine ⟨holds_complete h1 hp hqr h3, fun o => ?_, fun o ho => ?_, ?_⟩
  · refine (hlen o).trans (le_of_eq ?_)
    rw [State.executeCommand, complete_eq hqr]
    by_cases ho : p = o
    · subst ho
      simp [completed_length]
    · simp [ho]
  · rw [State.executeCommand, complete_eq hqr]
    simpa [ho.symm] using hcmd o
  · rw [State.executeCommand, complete_eq hqr, show ∀ x (u : State), (u.setPort p x).port p = x from fun x u => by simp]
    exact completed_commands _ _ _ _

/-! ### Commands that start one after another (R139) -/

theorem reservePlace_holds (h : s.holds l) (hp : p ∉ l) (hplace : (s.port p).hasPlace = true) :
    (s.reservePlace p).holds (p :: l) := by
  refine holds_setPort h ((h.bounded p).append hplace fun m z e => by cases e) (fun e he hi => ?_) ?_
    fun o ho => by simp [ho]
  · exact awaited_setPort (h.awaited p e he hi) (fun q hq _ _ => hq)
      fun hk => by simp only [Port.keepsCommit, List.any_append, Bool.or_eq_true] at hk ⊢; exact .inl hk
  · have h0 : (s.port p).held = 0 := by rw [h.held, if_neg hp]
    have : (s.port p).transmit.countP (Place.isReservedFor .command) = 0 := h0
    simp [Port.held, this, Place.isReservedFor]

theorem runQueue_holds (n : Nat) (h : s.holds []) (hw : ∀ o, o ≠ p → (s.port o).waitsForPlace)
    (hn : (s.port p).commands.length ≤ n ∨ ∃ q rest, (s.port p).commands = q :: rest ∧ q.started = true) :
    (runQueue n p s).holds [] ∧ ∀ o, ((runQueue n p s).port o).waitsForPlace := by
  induction n generalizing s with
  | zero =>
    refine ⟨h, fun o => ?_⟩
    by_cases ho : o = p
    · subst ho
      intro q rest hq hs
      simp only [runQueue] at hq
      rcases hn with hn | ⟨q', rest', hq', hs'⟩
      · rw [hq] at hn
        simp at hn
      · rw [hq] at hq'
        cases hq'
        rw [hs] at hs'
        cases hs'
    · exact hw o ho
  | succ n ih =>
    unfold runQueue
    split
    · rename_i hq
      refine ⟨h, fun o => ?_⟩
      by_cases ho : o = p
      · subst ho
        intro q rest hq' hs
        rw [hq] at hq'
        cases hq'
      · exact hw o ho
    · rename_i q rest hq
      split
      · rename_i hgo
        obtain ⟨hplace, hs⟩ := Bool.and_eq_true_iff.mp hgo
        have hs : q.started = false := by simpa using hs
        have hres := reservePlace_holds h (p := p) (by simp) hplace
        have hqr : ((s.reservePlace p).port p).commands = q :: rest := by simpa [State.reservePlace] using hq
        obtain ⟨h1, h2, h3, h4⟩ := executeCommand_holds hres (p := p) List.mem_cons_self hqr
        have h1' : (s.startCommand p q).holds [] := by
          rw [State.startCommand]
          simpa using h1
        refine ih h1' (fun o ho => ?_) ?_
        · have hport : (s.reservePlace p).port o = s.port o := by simp [State.reservePlace, ho.symm]
          intro q' rest' hq' hs'
          have hc : ((s.startCommand p q).port o).commands = (s.port o).commands := (h3 o ho).trans (by rw [hport])
          have := hw o ho q' rest' (hc.symm.trans hq') hs'
          have hle := h2 o
          rw [hport] at hle
          exact this.trans hle
        · rcases h4 with h4 | h4
          · left
            rw [State.startCommand, h4]
            rcases hn with hn | ⟨q', rest', hq', hs'⟩
            · rw [hq] at hn
              simpa using hn
            · rw [hq] at hq'
              cases hq'
              rw [hs] at hs'
              cases hs'
          · exact .inr ⟨_, _, h4, rfl⟩
      · rename_i hgo
        refine ⟨h, fun o => ?_⟩
        by_cases ho : o = p
        · subst ho
          intro q' rest' hq' hs'
          rw [hq] at hq'
          cases hq'
          by_contra hlt
          refine hgo (Bool.and_eq_true_iff.mpr ⟨?_, by simp [hs']⟩)
          exact (Port.hasPlace_iff _).mpr (by omega)
        · exact hw o ho

theorem runPort_holds (h : s.holds []) (hw : ∀ o, o ≠ p → (s.port o).waitsForPlace) :
    (s.runPort p).holds [] ∧ ∀ o, ((s.runPort p).port o).waitsForPlace := runQueue_holds _ h hw (.inl le_rfl)

/-! ### A message (R135 to R137) -/

/-- A command is admitted: it waits, and its entry awaits it (R137). -/
theorem enqueue_portsOk (h : s.portsOk) {m : Message} (ht : m.tag = 0 ∨ ∀ e ∈ (s.port p).cache, e.tag ≠ m.tag)
    (hlen : (s.port p).commands.length < 4) (c : Command) : (s.enqueue p m c).portsOk := by
  obtain ⟨h, hw⟩ := (portsOk_iff s).mp h
  let q : Queued := { tag := m.tag, check := m.check, command := c, cached := decide (m.tag ≠ 0), started := false }
  let x : Port := { s.port p with
    commands := (s.port p).commands ++ [q]
    cache := if m.tag = 0 then (s.port p).cache
      else insertEntry { tag := m.tag, check := m.check, state := .inProgress } (s.port p).cache }
  have heq : s.enqueue p m c = (s.setPort p x).runPort p := by
    unfold State.enqueue State.cacheMessage
    by_cases h0 : m.tag = 0
    · simp only [h0, if_true, x, q]
    · simp only [h0, if_false, setPort_setPort, port_setPort, if_true, x, q]
  have hlen' : (s.port p).commands.length + 1 ≤ 4 := hlen
  have hx : x.bounded := by
    by_cases h0 : m.tag = 0
    · simp only [x, h0, if_true]
      exact (h.bounded p).withCommands (by simpa using hlen')
    · simp only [x, h0, if_false]
      exact ((h.bounded p).insert (e := { tag := m.tag, check := m.check, state := .inProgress }) (ht.resolve_left h0) h0
        (exists_done h p) fun n hn => by cases hn).withCommands (by simpa using hlen')
  have hold : ∀ e ∈ (s.port p).cache, e.state = .inProgress → (s.setPort p x).awaited p e := fun e he hi =>
    awaited_setPort (h.awaited p e he hi) (fun q hq _ _ => List.mem_append_left _ hq) id
  have hq : (s.setPort p x).holds [] := by
    refine holds_setPort h hx (fun e he hi => ?_) (h.held p) fun _ _ => Iff.rfl
    by_cases h0 : m.tag = 0
    · simp only [x, h0, if_true] at he
      exact hold e he hi
    · simp only [x, h0, if_false] at he
      rcases mem_insertEntry he with rfl | he
      · exact .inl ⟨q, by simp [x], rfl, decide_eq_true h0⟩
      · exact hold e he hi
  rw [heq]
  exact (portsOk_iff _).mpr (runPort_holds hq fun o ho => by simpa [ho.symm] using hw o)

theorem receiveNew_portsOk (h : s.portsOk) {m : Message} (ht : m.tag = 0 ∨ ∀ e ∈ (s.port p).cache, e.tag ≠ m.tag) :
    (s.receiveNew p m).portsOk := by
  unfold State.receiveNew
  split
  · exact receipt_portsOk h ht _
  · split
    · exact enqueue_portsOk h ht ‹_› _
    · exact busy_portsOk h m

theorem cached_none {x : Port} {tag : Octet} (h : x.cached tag = none) : ∀ e ∈ x.cache, e.tag ≠ tag := by
  simpa [Port.cached] using h

/-- A good message keeps the limits of the ports (R135). -/
theorem receive_portsOk (h : s.portsOk) (p : PortId) (m : Message) : (s.receive p m).portsOk := by
  have hcount : (s.countDuplicate p).portsOk := portsOk_of_spares h (spares_countPort s p _)
  unfold State.receive
  split
  · exact receiveNew_portsOk h (.inl ‹_›)
  · split
    · rename_i hc
      exact receiveNew_portsOk h (.inr (cached_none hc))
    · rename_i e he
      split
      · split
        · rename_i response hs
          have hmem : e ∈ (s.port p).cache := List.mem_of_find?_eq_some he
          exact offerAnswer_portsOk hcount ((((portsOk_iff s).mp h).1.bounded p).whole.2 e hmem response hs)
        · exact hcount
      · obtain ⟨h1, h2⟩ := forgetEntry_portsOk (p := p) h m.tag
        exact receiveNew_portsOk h1 (.inr h2)

theorem framerOctet_portsOk (h : s.portsOk) (p : PortId) (o : Octet) : (s.framerOctet p o).portsOk := by
  have hf := portsOk_of_spares h (spares_setFramer s p ((s.port p).framer.take o).1)
  unfold State.framerOctet
  simp only
  split
  · exact hf
  · exact portsOk_of_spares hf ((spares_countPort _ p _).trans (spares_raise _ _ _))
  · exact portsOk_of_spares hf ((spares_countPort _ p _).trans (spares_raise _ _ _))
  · split
    · exact receive_portsOk hf p _
    · exact hf

theorem completeFrame_portsOk (h : s.portsOk) (k : Highway) (f : InFrame) (order : CompletionOrder) :
    (s.completeFrame k f order).portsOk := by
  have htask : ∀ (t : State) (a : Align) (x : CompletionTask), t.portsOk → (t.completionTask k a f x).portsOk := by
    intro t a x ht
    by_cases hx : x = .framer
    · subst hx
      unfold State.completionTask
      simp only
      split
      · unfold State.framerFrame
        split
        · exact foldl_keeps State.portsOk _ _ _ ht fun u o _ hu => framerOctet_portsOk hu _ o
        · exact ht
      · exact ht
    · exact portsOk_of_spares ht (spares_completionTask t k a f hx)
  unfold State.completeFrame
  split
  · split
    · exact h
    · exact h
    · exact portsOk_of_spares h (spares_setAlign s k _ _)
    · exact foldl_keeps State.portsOk _ _ _ (portsOk_of_spares h (spares_setAlign s k _ _)) fun t x _ ht => htask t _ x ht
  · exact h

end

end Sys2Proof.Machine
end

section
/-! SUPPORT. The limits of the ports during an output frame start (R143). -/

namespace Sys2Proof.Machine

/-! ### The places that a frame frees (R141, R143) -/

theorem takeOctets_drop (n : Nat) {places : List Place} {z : Place} (h : z ∈ (takeOctets n places).2.1.drop 1) :
    z ∈ places.drop 1 := by
  induction n generalizing places with
  | zero => exact h
  | succ n ih =>
    have h := ih h
    unfold takeOctet at h
    split at h
    · exact List.mem_of_mem_drop h
    · exact h
    · exact h

theorem takeOctets_count (r : Reservation) (n : Nat) (places : List Place) :
    (takeOctets n places).2.1.countP (Place.isReservedFor r) = places.countP (Place.isReservedFor r) := by
  induction n generalizing places with
  | zero => rfl
  | succ n ih =>
    refine (ih _).trans ?_
    unfold takeOctet
    split <;> simp [Place.isReservedFor]

theorem takeOctets_spent (n : Nat) (x : Option Scope) (rest : List Place) :
    (takeOctets n (.message [] x :: rest)).2.1 = .message [] x :: rest := by
  induction n with
  | zero => rfl
  | succ n ih => exact ih

/-- With whole messages behind the head no frame frees more than one place (R143). -/
theorem takeOctets_frees {n : Nat} (hn : n ≤ 6) {places : List Place}
    (h : ∀ m z, .message m z ∈ places.drop 1 → 7 ≤ m.length) :
    places.length ≤ (takeOctets n places).2.1.length + 1 := by
  match places with
  | [] => simp
  | .reserved r :: rest => rw [takeOctets_reserved]; simp
  | .message m x :: rest =>
    by_cases hlong : n < m.length
    · rw [(takeOctets_of_longer hlong x rest).2]
      simp
    · by_cases h0 : m = []
      · subst h0
        rw [takeOctets_spent]
        simp
      · rw [(takeOctets_of_shorter (List.length_pos_iff.mpr h0) (by omega) x rest).2]
        match rest, h with
        | [], _ => simp
        | .reserved r :: rest, _ => rw [takeOctets_reserved]; simp
        | .message m' x' :: rest, h =>
          have h7 := h m' x' List.mem_cons_self
          rw [(takeOctets_of_longer (by omega) x' rest).2]
          simp

/-- Port `x` after `n` octets have been taken from its transmit queue. -/
def Port.giving (x : Port) (n : Nat) : Port := { x with transmit := (takeOctets n x.transmit).2.1 }

section
variable {s : State} {l : List PortId} {p : PortId} {n : Nat}

theorem Port.bounded.giving {x : Port} (hx : x.bounded) (n : Nat) : (x.giving n).bounded where
  commands := hx.commands
  transmit := (takeOctets_places_le _ _).trans hx.transmit
  cache := hx.cache
  whole := ⟨fun m z hm => hx.whole.1 m z (takeOctets_drop n hm), hx.whole.2⟩
  tags := hx.tags
  zero := hx.zero

/-- A port gives its octets: the limits hold (R141). -/
theorem holds_giving (h : s.holds l) (n : Nat) : (s.setPort p ((s.port p).giving n)).holds l := by
  refine holds_setPort h ((h.bounded p).giving n) (fun e he hi => ?_)
    ((takeOctets_count _ _ _).trans (h.held p)) fun _ _ => Iff.rfl
  exact awaited_setPort (h.awaited p e he hi) (fun q hq _ _ => hq)
    fun hk => (any_reserved_iff _ _).mpr (mem_takeOctets_reserved ((any_reserved_iff _ _).mp hk))

/-- State `s` after port `p` has given `n` octets: the command waiting at its head takes the place that is freed. -/
def State.giving (s : State) (p : PortId) (n : Nat) : State :=
  if ((s.port p).giving n).canStart then (s.setPort p ((s.port p).giving n)).reservePlace p
  else s.setPort p ((s.port p).giving n)

theorem giving_port (s : State) (p : PortId) (n : Nat) : (s.giving p n).port p =
    if ((s.port p).giving n).canStart then
      { (s.port p).giving n with transmit := ((s.port p).giving n).transmit ++ [.reserved .command] }
    else (s.port p).giving n := by
  unfold State.giving
  split <;> simp [State.reservePlace]

theorem giving_other (s : State) {p o : PortId} (ho : o ≠ p) (n : Nat) : (s.giving p n).port o = s.port o := by
  unfold State.giving
  split <;> simp [State.reservePlace, ho.symm]

theorem giving_engine (s : State) (p : PortId) (n : Nat) : (s.giving p n).engine = s.engine := by
  unfold State.giving
  split <;> simp [State.reservePlace]

/-- What waits behind a command that takes the freed place goes on waiting (R143). -/
theorem waits_giving (h : s.holds l) (hw : ∀ q, (s.port q).waitsForPlace) (hn : n ≤ 6) (o : PortId) :
    ((s.giving p n).port o).waitsForPlace := by
  by_cases ho : o = p
  · subst ho
    have hfree : (s.port o).transmit.length ≤ ((s.port o).giving n).transmit.length + 1 :=
      takeOctets_frees hn (h.bounded o).whole.1
    rw [giving_port]
    intro q rest hq hs
    have hq' : (s.port o).commands = q :: rest := by
      rw [← hq]
      split <;> rfl
    have h6 := hw o q rest hq' hs
    by_cases hc : ((s.port o).giving n).canStart = true
    · simp only [if_pos hc, List.length_append, List.length_singleton]
      omega
    · have hplace : ¬((s.port o).giving n).transmit.length < 6 := fun hlt => hc (by
        simp [Port.canStart, show ((s.port o).giving n).commands = q :: rest from hq', hs, (Port.hasPlace_iff _).mpr hlt])
      rw [if_neg hc]
      omega
  · rw [giving_other s ho]
    exact hw o

theorem Port.hasPlace_of_canStart {x : Port} (h : x.canStart = true) : x.hasPlace = true := by
  unfold Port.canStart at h
  split at h
  · exact (Bool.and_eq_true_iff.mp h).1
  · cases h

/-- The command that takes the freed place is being executed from there on (R143). -/
theorem holds_given (h : s.holds l) (hp : p ∉ l) (n : Nat) :
    (s.giving p n).holds (if ((s.port p).giving n).canStart then p :: l else l) := by
  have hg := holds_giving (p := p) h n
  unfold State.giving
  split
  · rename_i hc
    exact reservePlace_holds hg hp (by simpa using Port.hasPlace_of_canStart hc)
  · exact hg

theorem runQueue_of_full (n : Nat) (h : (s.port p).hasPlace = false) : runQueue n p s = s := by
  cases n with
  | zero => rfl
  | succ n =>
    unfold runQueue
    split
    · rfl
    · rw [h]; rfl

end

/-! ### The start on its way -/

/-- What the ports' limits become while a start is on its way: a command has the place reserved for it, and the swap still
to be made is that of the pending commit, at the boundary. -/
structure StartRun.sturdy (r : StartRun) : Prop where
  holds : r.state.holds r.reserved
  waits : ∀ p, (r.state.port p).waitsForPlace
  swap  : ∀ c, r.swap = some c → r.state.engine.record = some c ∧ r.boundary = true

section
variable {s : State} {done : Bool} {r : StartRun}

theorem sturdy_of_spares (h : r.sturdy) {t : State} (ht : r.state.spares t) (begun : Bool) (handed : List Highway) :
    StartRun.sturdy { r with state := t, begun := begun, handed := handed } where
  holds := holds_of_spares h.holds ht
  waits := waits_of_spares h.waits ht
  swap c hc := ⟨ht.record.trans (h.swap c hc).1, (h.swap c hc).2⟩

theorem spares_of_ports {s t : State} (he : t.engine = s.engine) (hp : ∀ p, t.port p = s.port p) : s.spares t :=
  ⟨by rw [he], fun p => by rw [hp p]; exact .refl _⟩

theorem takeTiming_sturdy (h : r.sturdy) : r.takeTiming.sturdy :=
  sturdy_of_spares h (spares_of_touches (touches_setTiming _ _) (by simp) (by simp) (by simp)) true r.handed

theorem takeSlip_sturdy (h : r.sturdy) (k : Highway) : (r.takeSlip k).sturdy := by
  unfold StartRun.takeSlip
  split
  · exact sturdy_of_spares h (spares_of_hears (touches_repeatSlip _ k) (by simp) (repeatSlip_raisesOnce _ k).1)
      r.begun r.handed
  · exact h

/-- The swap answers the pending COMMIT (R26). -/
theorem takeSwap_sturdy (h : r.sturdy) : r.takeSwap.sturdy ∧ r.takeSwap.swap = none := by
  unfold StartRun.takeSwap
  split
  · rename_i c hc
    have ht := takeTiming_sturdy h
    have hr : (r.takeTiming.state.setActiveBank r.takeTiming.state.standbyBank).engine.record = some c := by
      simpa [StartRun.takeTiming] using (h.swap c hc).1
    have hbank := spares_of_touches (touches_setActiveBank r.takeTiming.state r.takeTiming.state.standbyBank) (by simp)
      (by simp) (by simp)
    refine ⟨⟨holds_of_spares (holds_answered (holds_of_spares ht.holds hbank) hr _ _) (spares_raise _ _ _), ?_,
      fun _ e => (by cases e)⟩, rfl⟩
    refine waits_of_spares (answerCommit_waits (fun q => ?_) _ _) (spares_raise _ _ _)
    rw [setEngine_port]
    exact waits_of_spares ht.waits hbank q
  · rename_i hn
    exact ⟨⟨h.holds, h.waits, h.swap⟩, hn⟩

theorem syncStep_record (s : State) : s.syncStep.engine.record = s.engine.record := by
  unfold State.syncStep
  split
  · rename_i pos marks he
    simp only [he]
    split
    · rw [(touches_raise _ _ _).engine (by simp)]
      rfl
    · rfl
  · rfl
  · rfl

theorem takeCopy_sturdy (h : r.sturdy) : r.takeCopy.sturdy := by
  unfold StartRun.takeCopy
  split
  · exact h
  · exact sturdy_of_spares h ⟨syncStep_record _, fun p => ((syncStep_raisesOnce _).1 p).goes⟩ true r.handed

/-- The octets of a port: the blocks of the ports and of the engine are those of `State.giving`. -/
theorem takeOctets_gives {p : PortId} (hp : p ∉ r.taken) : ∃ n ≤ 6,
    (r.state.giving p n).spares (r.takeOctets p).state ∧
      (r.takeOctets p).reserved = if ((r.state.port p).giving n).canStart then p :: r.reserved else r.reserved := by
  obtain ⟨n, hn, hg⟩ : ∃ n ≤ 6, (r.frame.octetsFrom p (r.state.port p).transmit).2.1 =
      (takeOctets n (r.state.port p).transmit).2.1 := by
    unfold State.octetsFrom
    split
    · exact ⟨_, (strapWidth_le _).trans (by omega), rfl⟩
    · exact ⟨0, by omega, rfl⟩
  have hgive : { r.state.port p with transmit := (r.frame.octetsFrom p (r.state.port p).transmit).2.1 } =
      (r.state.port p).giving n := by rw [hg]; rfl
  refine ⟨n, hn, ?_, by simp only [StartRun.takeOctets, if_neg hp, hgive]⟩
  simp only [StartRun.takeOctets, if_neg hp, hgive, State.giving]
  have hplaced : ∀ x k mgmt, ((r.state.setPort p x).placeOctets r.frame k mgmt).engine = r.state.engine :=
    fun x k mgmt => by simp [State.placeOctets]
  refine spares_of_ports ?_ fun q => ?_
  · split <;> split <;> simp [State.reservePlace, hplaced]
  · by_cases hq : p = q
    · subst hq
      split <;> split <;> simp [State.reservePlace]
    · split <;> split <;> simp [State.reservePlace, hq]

theorem takeOctets_swap (r : StartRun) (p : PortId) :
    (r.takeOctets p).swap = r.swap ∧ (r.takeOctets p).boundary = r.boundary := by
  unfold StartRun.takeOctets
  split
  · exact ⟨rfl, rfl⟩
  · exact ⟨rfl, rfl⟩

theorem takeOctets_sturdy (hs : r.serves s done) (h : r.sturdy) (p : PortId) : (r.takeOctets p).sturdy := by
  by_cases hp : p ∈ r.taken
  · rwa [takeOctets_of_taken hp]
  · obtain ⟨n, hn, hsp, hres⟩ := takeOctets_gives hp
    obtain ⟨hswap, hbound⟩ := takeOctets_swap r p
    refine ⟨?_, waits_of_spares (fun o => waits_giving h.holds h.waits hn o) hsp, fun c hc => ?_⟩
    · rw [hres]
      exact holds_of_spares (holds_given h.holds (fun hm => hp (hs.reserved p hm).1) n) hsp
    · rw [hswap] at hc
      rw [hsp.record, giving_engine, hbound]
      exact h.swap c hc

theorem spares_captureOctet (s : State) (o : Octet) : s.spares (s.captureOctet o) :=
  spares_of_hears (touches_captureOctet s o) (by simp) (captureOctet_raisesOnce s o).1

theorem handOctet_sturdy (hs : r.serves s done) (h : r.sturdy) (k : Highway) : (r.handOctet k).sturdy := by
  have hskip : StartRun.sturdy { r with handed := k :: r.handed } := ⟨h.holds, h.waits, h.swap⟩
  unfold StartRun.handOctet
  split
  · exact h
  · split
    · split
      · simp only
        split
        · exact sturdy_of_spares (takeOctets_sturdy hs h _) (spares_captureOctet _ _) true _
        · exact sturdy_of_spares h (spares_captureOctet _ _) true _
      · exact hskip
    · exact hskip
    · exact hskip

theorem takeCapture_sturdy (hs : r.serves s done) (h : r.sturdy) : r.takeCapture.sturdy :=
  (foldl_keeps (fun r : StartRun => r.serves s done ∧ r.sturdy) _ _ _ ⟨hs, h⟩ fun _ k _ hr =>
    ⟨handOctet_serves hr.1 k, handOctet_sturdy hr.1 hr.2 k⟩).2

/-! ### The commands that start -/

theorem before_sturdy (hs : r.serves s done) (h : r.sturdy) (c : Command) : (r.before c).sturdy := by
  cases c with
  | abortCommit =>
    unfold StartRun.before
    simp only
    split
    · exact (takeSwap_sturdy h).1
    · exact h
  | setOutput k =>
    unfold StartRun.before
    simp only
    split
    · exact handOctet_sturdy hs h _
    · exact h
  | readHighway k => exact takeTiming_sturdy h
  | _ => exact h

theorem takeOctets_keepsReserved (r : StartRun) (o : PortId) {p : PortId} (h : p ∈ r.reserved) :
    p ∈ (r.takeOctets o).reserved := by
  unfold StartRun.takeOctets
  split
  · exact h
  · simp only
    split
    · exact List.mem_cons_of_mem _ h
    · exact h

/-- What comes before a command takes no reserved place. -/
theorem before_reserved (r : StartRun) (c : Command) {p : PortId} (h : p ∈ r.reserved) : p ∈ (r.before c).reserved := by
  cases c with
  | abortCommit =>
    unfold StartRun.before StartRun.takeSwap
    simp only
    split
    · split <;> exact h
    · exact h
  | setOutput k =>
    unfold StartRun.before
    simp only
    split
    · unfold StartRun.handOctet
      split
      · exact h
      · split
        · split
          · simp only
            split
            · exact takeOctets_keepsReserved r _ h
            · exact h
          · exact h
        · exact h
        · exact h
    · exact h
  | _ => exact h

/-- No command but an ABORT_COMMIT takes a pending commit away (R22, R27). -/
theorem executeCommand_record {p : PortId} {q : Queued} {t : State} (hq : (t.port p).commands ≠ [])
    (hab : q.command ≠ .abortCommit) {c : PendingCommit} (h : t.engine.record = some c) :
    (t.executeCommand p q).engine.record = some c := by
  have hrenew : (t.renewLease p).engine.record = some c := (spares_of_acts (acts_renewLease t p)).record.trans h
  have hacts : (t.renewLease p).acts p := acts_of_commands (by simpa using hq)
  have hcomplete : ∀ (u : State) res, (u.complete p q res).engine = u.engine := fun u res => by
    cases res <;> simp [State.complete, State.answerCommand, State.dropHead, State.keepPlace, State.holdHead]
  rw [State.executeCommand, hcomplete]
  by_cases hc : q.command = .commit
  · have hrun : runCommand p q (t.renewLease p) = runCommit p q.tag q.cached (t.renewLease p) := by
      unfold runCommand
      rw [hc]
    have he := (record_eq_some_iff _ _).mp hrenew
    rw [hrun]
    unfold runCommit State.leased
    rw [he]
    split
    · rw [he]; rfl
    · rw [he]; rfl
  · exact (spares_of_acts (acts_runCommand _ p hacts hc hab)).record.trans hrenew

/-- The boundary is asked again what it finds (R24, R28). -/
theorem checkSwap_sturdy (hh : r.state.holds r.reserved) (hw : ∀ p, (r.state.port p).waitsForPlace)
    (hswap : (r.boundary && !r.begun) = true ∨ ∀ c, r.swap = some c → r.state.engine.record = some c ∧ r.boundary = true) :
    r.checkSwap.sturdy := by
  unfold StartRun.checkSwap
  split
  · rename_i hb
    have hbound : r.boundary = true := (Bool.and_eq_true_iff.mp hb).1
    unfold StartRun.setSwap
    split
    · exact ⟨hh, hw, fun c hc => ⟨hc, hbound⟩⟩
    · have hsp : r.state.spares (r.state.rebuildFrames (r.frame.setActiveBank (otherBank r.frame.activeBank))) :=
        spares_of_ports rfl fun _ => rfl
      exact ⟨holds_of_spares hh hsp, waits_of_spares hw hsp, fun c hc => ⟨hc, hbound⟩⟩
  · rename_i hb
    exact ⟨hh, hw, hswap.resolve_left hb⟩

/-- A command whose place is reserved fills it, or leaves it to the COMMIT (R139, R140). -/
theorem execute_sturdy (hs : r.serves s done) (h : r.sturdy) (p : PortId) : (r.execute p).sturdy := by
  unfold StartRun.execute
  split
  · rename_i hp
    split
    · rename_i q rest hq
      have hu := before_sturdy hs h q.command
      have hpu := before_reserved r q.command hp
      have hqu := ((before_keepsQueues r q.command).commands p).trans hq
      obtain ⟨h1, h2, h3, -⟩ := executeCommand_holds hu.holds hpu hqu
      have hfull := (hu.waits p q rest hqu ((hs.reserved p hp).2 q rest hq)).trans (h2 p)
      have hnone : (((r.before q.command).state.executeCommand p q).port p).hasPlace = false := by
        exact decide_eq_false (Nat.not_lt.mpr hfull)
      simp only [State.runPort, runQueue_of_full _ hnone]
      refine checkSwap_sturdy h1 (fun o => ?_) ?_
      · by_cases ho : o = p
        · subst ho
          exact fun _ _ _ _ => hfull
        · intro q' rest' hq' hs'
          exact (hu.waits o q' rest' ((h3 o ho).symm.trans hq') hs').trans (h2 o)
      · by_cases hab : q.command = .abortCommit
        · by_cases hb : r.begun = true
          · refine .inr fun c hc => ?_
            have hn : (r.before q.command).swap = none := by
              rw [hab]
              simp only [StartRun.before, if_pos hb]
              exact (takeSwap_sturdy h).2
            exact absurd (hn.symm.trans hc) (by simp)
          · have hr : r.before q.command = r := by
              rw [hab]
              simp only [StartRun.before, if_neg hb]
            cases hsw : r.swap with
            | none => exact .inr fun c hc => absurd (hsw.symm.trans (by simpa [hr] using hc)) (by simp)
            | some c => exact .inl (by simp [hr, (h.swap c hsw).2, hb])
        · exact .inr fun c hc => ⟨executeCommand_record (by simp [hqu]) hab (hu.swap c hc).1, (hu.swap c hc).2⟩
    · exact h
  · exact h

theorem startCommand_sturdy (hs : r.serves s done) (h : r.sturdy) (p : PortId) : (r.startCommand p).sturdy := by
  have hq := takeOctets_sturdy hs h p
  have hqs := takeOctets_serves hs p
  unfold StartRun.startCommand
  simp only
  split
  · exact execute_sturdy (execute_serves hqs _) (execute_sturdy hqs hq _) p
  · exact hq

/-! ### The whole start -/

theorem initialPort_portsOk {t : State} (h : ∀ p, t.port p = initialPort) : t.portsOk := by
  intro p
  rw [h p]
  exact ⟨Nat.zero_le _, Nat.zero_le _, Nat.zero_le _, rfl, fun _ _ e => (by cases e), ⟨fun _ _ e => (by cases e),
    fun _ e => (by cases e)⟩, List.nodup_nil, fun _ e => (by cases e), fun _ e => (by cases e)⟩

theorem resetCold_port (u : State) (p : PortId) : u.resetCold.port p = initialPort := by cases p <;> rfl

/-- A reset gives the ports their reset state (R149). -/
theorem takeReset_sturdy (h : r.sturdy) (bFirst : Bool) : (r.takeReset bFirst).cold = r.cold ∧ (r.takeReset bFirst).sturdy ∨
    (r.takeReset bFirst).cold = true ∧ (r.takeReset bFirst).state.portsOk := by
  unfold StartRun.takeReset
  split
  · rename_i hready
    simp only [StartRun.resetReady, Bool.and_eq_true, Option.isNone_iff_eq_none, List.isEmpty_iff] at hready
    obtain ⟨⟨⟨hn, -⟩, -⟩, hres⟩ := hready
    split
    · have hp : r.state.resetWarm.portsOk := initialPort_portsOk fun p => by cases p <;> rfl
      obtain ⟨h1, h2⟩ := (portsOk_iff _).mp hp
      exact .inl ⟨rfl, by rw [hres]; exact h1, h2, fun c hc => absurd (hn.symm.trans hc) (by simp)⟩
    · exact .inr ⟨rfl, initialPort_portsOk fun p => resetCold_port _ p⟩
    · exact .inl ⟨rfl, h⟩
  · exact .inl ⟨rfl, h⟩

theorem task_sturdy (hs : r.serves s done) (h : r.sturdy) (order : StartOrder) {x : StartTask} (hx : x ≠ .reset) :
    (r.task order x).sturdy := by
  unfold StartRun.task
  rw [if_neg (by simp [hs.warm])]
  cases x with
  | timing => exact takeTiming_sturdy h
  | slip k => exact takeSlip_sturdy h k
  | swap => exact (takeSwap_sturdy h).1
  | copy => exact takeCopy_sturdy h
  | take p => exact takeOctets_sturdy hs h p
  | start p => exact startCommand_sturdy hs h p
  | capture => exact takeCapture_sturdy hs h
  | leaseTick =>
    simp only
    split
    · exact sturdy_of_spares h (spares_of_hears (touches_leaseTick _) (by simp) (leaseTick_raises _).1) r.begun r.handed
    · exact h
  | listTick =>
    simp only
    split
    · exact sturdy_of_spares h (spares_of_hears (touches_listTick _ _ _) (by simp) (hears_listTick _ _ _).ports)
        r.begun r.handed
    · exact h
  | reset => exact absurd rfl hx

theorem beginStart_sturdy (h : s.portsOk) : s.beginStart.sturdy := by
  have hsp : s.spares s.beginStart.state := spares_of_ports rfl fun _ => rfl
  obtain ⟨h1, h2⟩ := (portsOk_iff s).mp h
  refine ⟨holds_of_spares h1 hsp, waits_of_spares h2 hsp, fun c hc => ?_⟩
  obtain ⟨hb, he⟩ := (dueSwap_eq_some s c).mp hc
  exact ⟨(record_eq_some_iff _ _).mpr he, hb⟩

/-! ### Every part, and the end -/

/-- A warm reset empties the command queues, and sends no other RA flag (R89, R149). -/
theorem takeReset_sound {l : List PortId} (h : r.sound s false l) (bFirst : Bool) :
    (r.takeReset bFirst).cold = true ∨ (r.takeReset bFirst).sound s false l := by
  unfold StartRun.takeReset
  split
  · rename_i hready
    simp only [StartRun.resetReady, Bool.and_eq_true, List.isEmpty_iff] at hready
    split
    · exact .inr ⟨fun e => (by cases e), fun p hp => (by simp [hready.2] at hp), h.settled, h.raSent⟩
    · exact .inl rfl
    · exact .inr h
  · exact .inr h

/-- The limits of the ports while the start of state `s` is on its way and the ports of `l` have started what they start,
or once a cold reset has taken effect. -/
def StartRun.steady (s : State) (l : List PortId) (r : StartRun) : Prop :=
  (∃ done, r.serves s done) ∧ r.sound s false l ∧ r.sturdy ∨ r.cold = true ∧ r.state.portsOk

theorem task_steady {l : List PortId} (h : r.steady s l) (order : StartOrder) (x : StartTask) :
    (r.task order x).steady s (partSettles x ++ l) := by
  rcases h with ⟨⟨d, hs⟩, hsound, hst⟩ | ⟨hc, hp⟩
  · have hserves : (r.task order x).cold = false → ∃ d', (r.task order x).serves s d' := fun hw =>
      ⟨_, (task_serves hs order x).resolve_right fun he => by simp [he.cold] at hw⟩
    by_cases hx : x = .reset
    · subst hx
      have ht : r.task order .reset = r.takeReset order.resetBFirst := by
        rw [StartRun.task, if_neg (by simp [hs.warm])]
      rw [ht] at hserves ⊢
      refine (takeReset_sturdy hst _).imp (fun ⟨hw, hst'⟩ => ?_) id
      have hw := hw.trans hs.warm
      exact ⟨hserves hw, (takeReset_sound hsound _).resolve_left (by simp [hw]), hst'⟩
    · obtain ⟨hw, hsound'⟩ := task_sound_of_ne hs hsound order hx
      exact .inl ⟨hserves hw, hsound', task_sturdy hs hst order hx⟩
  · rw [task_of_cold hc]
    exact .inr ⟨hc, hp⟩

theorem foldl_steady (order : StartOrder) (m : List StartTask) {l : List PortId} (h : r.steady s l) :
    ∃ l', (m.foldl (fun r x => r.task order x) r).steady s l' ∧ ∀ p, p ∈ l ∨ .start p ∈ m → p ∈ l' := by
  induction m generalizing r l with
  | nil => exact ⟨l, h, by simp⟩
  | cons x m ih =>
    obtain ⟨l', h', hl⟩ := ih (task_steady h order x)
    refine ⟨l', h', fun p hp => hl p ?_⟩
    rcases hp with hp | hp
    · exact .inl (List.mem_append_right _ hp)
    · rcases List.mem_cons.mp hp with rfl | hp
      · exact .inl (by simp [partSettles])
      · exact .inr hp

/-- An output frame start keeps the limits of the ports (R143). -/
theorem outputStart_portsOk (h : s.portsOk) (order : StartOrder) : (s.outputStart order).portsOk := by
  have hb : s.beginStart.steady s [] :=
    .inl ⟨⟨false, beginStart_serves s⟩, beginStart_sound s false, beginStart_sturdy h⟩
  obtain ⟨l, hl, hmem⟩ := foldl_steady order (startParts order) hb
  rcases task_steady hl order .reset with ⟨-, hsound, hst⟩ | ⟨-, hp⟩
  · have hres : ((((startParts order).foldl (fun r x => r.task order x) s.beginStart).task order .reset).reserved) = [] :=
      List.eq_nil_iff_forall_not_mem.mpr fun p =>
        (hsound.settled p (hmem p (.inr (mem_startParts order _)))).2
    refine (portsOk_iff _).mpr ⟨?_, hst.waits⟩
    have hh := hst.holds
    rw [hres] at hh
    exact hh
  · exact hp

/-! ### Every step -/

theorem does_portsOk {t : State} (h : s.portsOk) (ht : s.Does t) : t.portsOk := by
  cases ht with
  | power pins => exact initialPort_portsOk fun p => by cases p <;> rfl
  | start order => exact outputStart_portsOk h order
  | pinned pins order => exact outputStart_portsOk (portsOk_of_spares (t := s.setPins pins) h (spares_of_ports rfl fun _ => rfl)) order
  | hunt k bits => exact portsOk_of_spares h (spares_huntBits s k bits)
  | marker k o => exact portsOk_of_spares h (spares_markerPosition s k o)
  | complete k f order => exact completeFrame_portsOk h k f order
  | receive p m => exact receive_portsOk h p m
  | stay => exact h

end

/-- Settles O55: every happening keeps the limits, and an output frame start with them that a command has the place
reserved for it. -/
theorem stepKeepsThePorts : Obligations.StepKeepsThePorts := by
  intro s t h hstep
  unfold step at hstep
  split at hstep
  · injection hstep with hstep
    exact hstep ▸ h
  · rename_i c rest _
    obtain ⟨u, hu, hdoes⟩ := exec_does c { s with pending := rest }
    rw [hu] at hstep
    injection hstep with hstep
    exact hstep ▸ does_portsOk (portsOk_of_spares (t := { s with pending := rest }) h
      (spares_of_ports rfl fun _ => rfl)) hdoes

end Sys2Proof.Machine
end

section
/-! SUPPORT. What a command of a port does not look at: where the output timing stands within its multiframe, and the codes
that a supervisor is collecting. A command does the same before such a change as after it (R139). -/

namespace Sys2Proof.Machine

/-! ### Changes that no command looks at -/

/-- A change of the output timing that keeps the stamp, and of the records of the supervisors that keeps their slots and
stamps. -/
structure Veil where
  timing : Timing → Timing
  sup    : Highway → Supervisor → Supervisor
  stamp  : ∀ t, (timing t).stamp = t.stamp
  slots  : ∀ k x, (sup k x).slots = x.slots
  last   : ∀ k x, (sup k x).lastEvaluation = x.lastEvaluation
  watch  : ∀ k x first count setting, (sup k x).watch first count setting = sup k (x.watch first count setting)

/-- The state with the change made. -/
def Veil.on (v : Veil) (s : State) : State :=
  { s with timing := v.timing s.timing, sups := Vector.ofFn fun k : Highway => v.sup k (s.sup k) }

/-- The same of a command's state and result. -/
def Veil.pair (v : Veil) (x : State × Result) : State × Result := (v.on x.1, x.2)

section
variable (v : Veil) (s : State)

@[simp] theorem veil_straps : (v.on s).straps = s.straps := (rfl)
@[simp] theorem veil_activeBank : (v.on s).activeBank = s.activeBank := (rfl)
@[simp] theorem veil_standbyBank : (v.on s).standbyBank = s.standbyBank := (rfl)
@[simp] theorem veil_bank (b : BankId) : (v.on s).bank b = s.bank b := by cases b <;> rfl
@[simp] theorem veil_engine : (v.on s).engine = s.engine := (rfl)
@[simp] theorem veil_receiver (k : Highway) : (v.on s).receiver k = s.receiver k := (rfl)
@[simp] theorem veil_queue (k : Highway) : (v.on s).queue k = s.queue k := (rfl)
@[simp] theorem veil_output (k : Highway) : (v.on s).output k = s.output k := (rfl)
@[simp] theorem veil_sup (k : Highway) : (v.on s).sup k = v.sup k (s.sup k) := by simp [Veil.on, State.sup]
@[simp] theorem veil_stamp : (v.on s).timing.stamp = s.timing.stamp := v.stamp _
@[simp] theorem veil_events : (v.on s).events = s.events := (rfl)
@[simp] theorem veil_port (p : PortId) : (v.on s).port p = s.port p := by cases p <;> rfl
@[simp] theorem veil_lease : (v.on s).lease = s.lease := (rfl)
@[simp] theorem veil_capture : (v.on s).capture = s.capture := (rfl)
@[simp] theorem veil_draws : (v.on s).draws = s.draws := (rfl)
@[simp] theorem veil_portEnabled (p : PortId) : (v.on s).portEnabled p = s.portEnabled p := (rfl)
@[simp] theorem veil_portPair (p : PortId) : (v.on s).portPair p = s.portPair p := (rfl)
@[simp] theorem veil_inService (k : Highway) : (v.on s).inService k = s.inService k := (rfl)
@[simp] theorem veil_isProtected (k : Highway) (n : Slot) : (v.on s).isProtected k n = s.isProtected k n := (rfl)
@[simp] theorem veil_isMgmtHighway (k : Highway) : (v.on s).isMgmtHighway k = s.isMgmtHighway k := (rfl)
@[simp] theorem veil_holdsLease (p : PortId) : (v.on s).holdsLease p = s.holdsLease p := (rfl)
@[simp] theorem veil_holderOctet : (v.on s).holderOctet = s.holderOctet := (rfl)
@[simp] theorem veil_noLease : (v.on s).noLease = s.noLease := (rfl)
@[simp] theorem veil_dropsNotice (p : PortId) : (v.on s).dropsNotice p = s.dropsNotice p := by simp [State.dropsNotice]

@[simp] theorem veil_setBank (b : BankId) (x : Bank) : (v.on s).setBank b x = v.on (s.setBank b x) := by cases b <;> rfl
@[simp] theorem veil_setEngine (e : Engine) : (v.on s).setEngine e = v.on (s.setEngine e) := rfl
@[simp] theorem veil_setReceiver (k : Highway) (x : Receiver) : (v.on s).setReceiver k x = v.on (s.setReceiver k x) := rfl
@[simp] theorem veil_setQueue (k : Highway) (x : FrameQueue) : (v.on s).setQueue k x = v.on (s.setQueue k x) := rfl
@[simp] theorem veil_setOutput (k : Highway) (x : Output) : (v.on s).setOutput k x = v.on (s.setOutput k x) := rfl
@[simp] theorem veil_setEvents (l : EventList) : (v.on s).setEvents l = v.on (s.setEvents l) := rfl
@[simp] theorem veil_setPort (p : PortId) (x : Port) : (v.on s).setPort p x = v.on (s.setPort p x) := by cases p <;> rfl
@[simp] theorem veil_setLease (l : Lease) : (v.on s).setLease l = v.on (s.setLease l) := rfl
@[simp] theorem veil_setCapture (u : Capture) : (v.on s).setCapture u = v.on (s.setCapture u) := rfl
@[simp] theorem veil_useDraw : (v.on s).useDraw = v.on s.useDraw := rfl

@[simp] theorem veil_setSup (k : Highway) (x : Supervisor) : (v.on s).setSup k (v.sup k x) = v.on (s.setSup k x) := by
  have hsups : (Vector.ofFn fun j : Highway => v.sup j (s.sup j)).set k (v.sup k x) =
      Vector.ofFn fun j : Highway => v.sup j ((s.setSup k x).sup j) := by
    ext j hj
    by_cases hkj : k.val = j
    · subst hkj
      simp
    · have hne : k ≠ ⟨j, hj⟩ := fun e => hkj (congrArg Fin.val e)
      simp [hkj, hne]
  rw [State.setSup, Veil.on, Veil.on, hsups]
  rfl

@[simp] theorem veil_countHighway (k : Highway) (f : HighwayCounters → HighwayCounters) :
    (v.on s).countHighway k f = v.on (s.countHighway k f) := by simp [State.countHighway]

@[simp] theorem veil_countPort (p : PortId) (f : PortCounters → PortCounters) :
    (v.on s).countPort p f = v.on (s.countPort p f) := by simp [State.countPort]

theorem veil_ite {c : Prop} [Decidable c] (a b : State) : (if c then v.on a else v.on b) = v.on (if c then a else b) :=
  (apply_ite v.on c a b).symm

/-! ### The event list (R109, R122 to R124) -/

@[simp] theorem veil_takeOccurrence (key : EventKey) (x : EventValue) :
    (v.on s).takeOccurrence key x = v.on (s.takeOccurrence key x) := by simp [State.takeOccurrence]

@[simp] theorem veil_queueNotice (p : PortId) (notice : List Octet) :
    (v.on s).queueNotice p notice = v.on (s.queueNotice p notice) := by simp [State.queueNotice, veil_ite]

@[simp] theorem veil_noticeDropped (p : PortId) : (v.on s).noticeDropped p = v.on (s.noticeDropped p) := by
  simp [State.noticeDropped]

@[simp] theorem veil_offerNotices : (v.on s).offerNotices = v.on s.offerNotices := by
  simp only [State.offerNotices, veil_events, veil_queueNotice, veil_dropsNotice, veil_draws, veil_useDraw,
    veil_noticeDropped, veil_ite]
  split <;> rfl

@[simp] theorem veil_settleAttention : (v.on s).settleAttention = v.on s.settleAttention := by
  simp [State.settleAttention, veil_ite]

@[simp] theorem veil_raise (key : EventKey) (x : EventValue) : (v.on s).raise key x = v.on (s.raise key x) := by
  simp [State.raise]

@[simp] theorem veil_restartTimer : (v.on s).restartTimer = v.on s.restartTimer := rfl

/-! ### Banks, capture and lease -/

@[simp] theorem veil_checkEntries (k : Highway) (first i : Nat) (es : List RawEntry) :
    (v.on s).checkEntries k first i es = s.checkEntries k first i es := by
  induction es generalizing i with
  | nil => rfl
  | cons e es ih =>
    rw [State.checkEntries, State.checkEntries, ih]
    rfl

@[simp] theorem veil_writeStandby (k : Highway) (first : Nat) (es : List Entry) :
    (v.on s).writeStandby k first es = v.on (s.writeStandby k first es) := by
  simp only [State.writeStandby, veil_standbyBank, veil_bank, veil_setBank, veil_engine, veil_setEngine,
    setBank_engine]
  cases s.engine <;> rfl

@[simp] theorem veil_clearStandbyBank : (v.on s).clearStandbyBank = v.on s.clearStandbyBank := by
  simp [State.clearStandbyBank]

@[simp] theorem veil_readRun (b : BankId) (k : Highway) (first count : Nat) :
    (v.on s).readRun b k first count = s.readRun b k first count := by simp [State.readRun]

@[simp] theorem veil_dirtyCount : (v.on s).dirtyCount = s.dirtyCount := rfl

@[simp] theorem veil_differenceCount : (v.on s).differenceCount = s.differenceCount := rfl

@[simp] theorem veil_answerCommit (r : PendingCommit) (reply : Reply) :
    (v.on s).answerCommit r reply = v.on (s.answerCommit r reply) := by simp [State.answerCommit, veil_ite]

@[simp] theorem veil_breakCapture (down : Source → Bool) : (v.on s).breakCapture down = v.on (s.breakCapture down) := by
  simp only [State.breakCapture, veil_capture, veil_setCapture, veil_raise, veil_ite]
  split <;> rfl

@[simp] theorem veil_loseLink (k : Highway) : (v.on s).loseLink k = v.on (s.loseLink k) := by
  simp only [State.loseLink, veil_straps, veil_holdsLease, veil_lease, veil_setLease, veil_raise, veil_ite]
  split <;> rfl

@[simp] theorem veil_resetFramer (k : Highway) : (v.on s).resetFramer k = v.on (s.resetFramer k) := by
  simp only [State.resetFramer, State.setFramer, veil_straps, veil_port, veil_setPort]
  split <;> rfl

@[simp] theorem veil_setAlign (k : Highway) (a : Align) (inFrame : Bool) :
    (v.on s).setAlign k a inFrame = v.on (s.setAlign k a inFrame) := rfl

/-! ### Entry into SEARCH and DISABLED (R49, R50) -/

/-- The change is one that a freeze of the supervisor of highway `k` leaves (R97). -/
def Veil.thaws (v : Veil) (k : Highway) : Prop := ∀ x, (v.sup k x).frozen = v.sup k x.frozen

variable {v s}

theorem veil_leaveTraffic {k : Highway} (h : v.thaws k) : (v.on s).leaveTraffic k = v.on (s.leaveTraffic k) := by
  simp [State.leaveTraffic, h _]

theorem veil_enterSearch {k : Highway} (h : v.thaws k) (history : List Bool) :
    (v.on s).enterSearch k history = v.on (s.enterSearch k history) := by
  simp [State.enterSearch, veil_leaveTraffic h]

theorem veil_enterDisabled {k : Highway} (h : v.thaws k) : (v.on s).enterDisabled k = v.on (s.enterDisabled k) := by
  simp [State.enterDisabled, veil_leaveTraffic h, veil_ite]

variable (v s)

/-! ### The commands (R139) -/

@[simp] theorem veil_leased (p : PortId) (x : State × Result) : (v.on s).leased p (v.pair x) = v.pair (s.leased p x) := by
  unfold State.leased
  rw [veil_holdsLease]
  split <;> rfl

/-- SET_INPUT may enable or disable any highway whose record is not looked at, and no highway of an enabled port whose
receiver is enabled. -/
def Veil.suits (v : Veil) (s : State) : Prop :=
  ∀ k, v.thaws k ∨ s.isMgmtHighway k = true ∧ (s.receiver k).align.enabled = true

end

section
variable {v : Veil} {s : State} {p : PortId}

theorem veil_setInputEnable {k : Highway} {e : Bool} (h : v.thaws k ∨ e = (s.receiver k).align.enabled) :
    (v.on s).setInputEnable k e = v.on (s.setInputEnable k e) := by
  unfold State.setInputEnable
  rw [veil_receiver]
  by_cases he : e = (s.receiver k).align.enabled
  · rw [if_pos he, if_pos he]
  · rw [if_neg he, if_neg he, veil_enterSearch (h.resolve_right he), veil_enterDisabled (h.resolve_right he), veil_ite]

theorem veil_runSetInput (h : v.suits s) (k e x g : Octet) :
    runSetInput p k e x g (v.on s) = v.pair (runSetInput p k e x g s) := by
  unfold runSetInput
  rw [← veil_leased]
  congr 1
  split
  · rename_i k e hk he
    by_cases hr : x.toNat = 0 ∨ 7 < x.toNat ∨ 15 < g.toNat
    · rw [if_pos hr, if_pos hr]
      rfl
    by_cases hno : (!e && s.isMgmtHighway k) = true
    · rw [if_neg hr, if_neg hr, if_pos (c := (!e && (v.on s).isMgmtHighway k) = true) hno, if_pos hno]
      rfl
    · have hgo : v.thaws k ∨ e =
          ((s.setReceiver k { s.receiver k with persistence := x.toNat, guardLength := g.toNat }).receiver k).align.enabled :=
        (h k).imp_right fun ⟨hm, hen⟩ => by
          rw [receiver_setReceiver, if_pos rfl, hen]
          cases e with
          | true => rfl
          | false => simp [hm] at hno
      rw [if_neg hr, if_neg hr, if_neg (c := (!e && (v.on s).isMgmtHighway k) = true) hno, if_neg hno]
      simp only [veil_receiver, veil_setReceiver, veil_setInputEnable hgo]
      rfl
  · rfl

theorem veil_runSetOutput (k e i c : Octet) : runSetOutput p k e i c (v.on s) = v.pair (runSetOutput p k e i c s) := by
  unfold runSetOutput
  rw [← veil_leased]
  congr 1
  split
  · simp only [veil_isMgmtHighway, veil_output, veil_setOutput, veil_breakCapture, veil_ite]
    split_ifs <;> rfl
  · rfl

theorem veil_runWriteEntries (k n c : Octet) (es : List Octet) :
    runWriteEntries p k n c es (v.on s) = v.pair (runWriteEntries p k n c es s) := by
  unfold runWriteEntries
  rw [← veil_leased, veil_engine]
  congr 1
  cases s.engine with
  | pending r => rfl
  | idle | syncing pos marks =>
    simp only [veil_checkEntries, veil_writeStandby, veil_standbyBank]
    cases highwayOf k with
    | none => rfl
    | some k =>
      simp only
      split_ifs
      · rfl
      · cases s.checkEntries k n.toNat 0 (rawEntries es) <;> rfl

theorem veil_runReadEntries (r k n c : Octet) : runReadEntries r k n c (v.on s) = v.pair (runReadEntries r k n c s) := by
  unfold runReadEntries
  split
  · simp only [veil_standbyBank, veil_activeBank, veil_readRun]
    split_ifs <;> rfl
  · rfl

theorem veil_runClaim : runClaim p (v.on s) = v.pair (runClaim p s) := by
  unfold runClaim
  simp only [veil_receiver, veil_portPair, veil_lease, veil_setLease]
  split_ifs
  · rfl
  · cases s.lease.holder with
    | none => rfl
    | some h =>
      simp only
      split_ifs <;> rfl

theorem veil_runClearStandby : runClearStandby p (v.on s) = v.pair (runClearStandby p s) := by
  unfold runClearStandby
  rw [← veil_leased, veil_engine]
  congr 1
  cases s.engine with
  | pending r => rfl
  | idle => simp [Veil.pair]
  | syncing pos marks => simp [Veil.pair]

theorem veil_runAbortCommit : runAbortCommit p (v.on s) = v.pair (runAbortCommit p s) := by
  unfold runAbortCommit
  rw [← veil_leased, veil_engine]
  congr 1
  cases s.engine with
  | pending r => simp [Veil.pair]
  | idle | syncing pos marks => rfl

theorem veil_portGroup (q : PortId) : (v.on s).portGroup q = s.portGroup q := by simp [State.portGroup]

theorem veil_runReadCounters (g n c : Octet) : runReadCounters p g n c (v.on s) = v.pair (runReadCounters p g n c s) := by
  unfold runReadCounters
  rw [veil_holdsLease]
  split_ifs
  · rfl
  · split
    · unfold runReadCountersHighway
      split
      · simp only [veil_countHighway, veil_ite, veil_receiver]
        rfl
      · rfl
    · unfold runReadCountersPort
      split
      · simp only [veil_countPort, veil_ite, veil_portGroup]
        rfl
      · rfl
    · rfl

theorem veil_runWatch (k n c x : Octet) : runWatch p k n c x (v.on s) = v.pair (runWatch p k n c x s) := by
  unfold runWatch
  rw [← veil_leased]
  congr 1
  split
  · simp only [veil_sup, v.watch, veil_setSup]
    split_ifs
    · rfl
    · simp [Veil.pair, Supervisor.watchedCount, v.slots]
  · rfl

theorem veil_runReadSignaling (k : Octet) : runReadSignaling k (v.on s) = v.pair (runReadSignaling k s) := by
  unfold runReadSignaling
  split
  · simp [Veil.pair, State.signallingData, v.slots, v.last]
  · rfl

theorem veil_fetch (ack : Option Octet) : (v.on s).fetch p ack = (v.on (s.fetch p ack).1, (s.fetch p ack).2) := by
  simp [State.fetch]

theorem veil_fetchDelivers (ack : Option Octet) : (v.on s).fetchDelivers p ack = s.fetchDelivers p ack := by
  simp [State.fetchDelivers, veil_fetch]

theorem veil_runFetchEvents (ack : Option Octet) : runFetchEvents p ack (v.on s) = v.pair (runFetchEvents p ack s) := by
  unfold runFetchEvents
  simp only [veil_fetch, veil_fetchDelivers, veil_restartTimer, veil_ite, veil_useDraw]
  rfl

theorem veil_runSetAttention (a b i h : Octet) : runSetAttention p a b i h (v.on s) = v.pair (runSetAttention p a b i h s) := by
  unfold runSetAttention
  rw [← veil_leased]
  congr 1
  simp only [veil_events, veil_setEvents, veil_settleAttention, veil_restartTimer]
  split_ifs <;> rfl

theorem veil_runArmCapture (kind h n t a b c x y : Octet) :
    runArmCapture p kind h n t a b c x y (v.on s) = v.pair (runArmCapture p kind h n t a b c x y s) := by
  unfold runArmCapture
  rw [← veil_leased]
  congr 1
  split
  · have hsource : ∀ x, (v.on s).sourceDisabled x = s.sourceDisabled x := fun x => by cases x <;> rfl
    simp only [veil_capture, hsource, veil_setCapture, veil_useDraw, veil_draws]
    split_ifs <;> rfl
  · rfl

/-- No command but a READ_HIGHWAY, which gives the figures of the frame being assembled (R87), looks at such a change. -/
theorem veil_runCommand (h : v.suits s) (q : Queued) (hq : v.timing s.timing = s.timing ∨ ∀ k, q.command ≠ .readHighway k) :
    runCommand p q (v.on s) = v.pair (runCommand p q s) := by
  unfold runCommand
  cases hc : q.command with
  | claim => exact veil_runClaim
  | release => simp only [runRelease, veil_holdsLease]; split <;> rfl
  | setLease x => simp only [runSetLease]; rw [← veil_leased]; split <;> rfl
  | reset x => simp only [runReset]; rw [← veil_leased]; split_ifs <;> rfl
  | writeEntries k n c es => exact veil_runWriteEntries k n c es
  | readEntries r k n c => exact veil_runReadEntries r k n c
  | clearStandby => exact veil_runClearStandby
  | resync => simp only [runResync]; rw [← veil_leased, veil_engine]; cases s.engine <;> rfl
  | commit => simp only [runCommit]; rw [← veil_leased, veil_engine]; cases s.engine <;> rfl
  | abortCommit => exact veil_runAbortCommit
  | setInput k e x g => exact veil_runSetInput h k e x g
  | setOutput k e i c => exact veil_runSetOutput k e i c
  | readHighway k =>
    have ht := hq.resolve_right fun hn => hn k hc
    simp only [runReadHighway]
    cases highwayOf k with
    | none => rfl
    | some k => simp [Veil.pair, State.inputPart, State.outputPart, Veil.on, ht]; rfl
  | readCounters g n c => exact veil_runReadCounters g n c
  | watch k n c x => exact veil_runWatch k n c x
  | readSignaling k => exact veil_runReadSignaling k
  | fetchEvents ack => exact veil_runFetchEvents ack
  | setAttention a b i h => exact veil_runSetAttention a b i h
  | armCapture kind h n t a b c x y => exact veil_runArmCapture kind h n t a b c x y
  | readCapture => simp only [runReadCapture, veil_capture]; cases s.capture.ready <;> rfl
  | cancelCapture => simp only [runCancelCapture]; rw [← veil_leased]; rfl
  | identify | readBanks => rfl

end

end Sys2Proof.Machine
end

section
/-! SUPPORT. A port and its messages do the same before a change that no command looks at as after it (R135 to R140). -/

namespace Sys2Proof.Machine

/-! ### Start and completion (R139, R140) -/

section
variable (v : Veil) (s : State) (p : PortId)

@[simp] theorem veil_renewLease : (v.on s).renewLease p = v.on (s.renewLease p) := by
  simp [State.renewLease, veil_ite]

@[simp] theorem veil_reservePlace : (v.on s).reservePlace p = v.on (s.reservePlace p) := by simp [State.reservePlace]

@[simp] theorem veil_complete (q : Queued) (res : Result) : (v.on s).complete p q res = v.on (s.complete p q res) := by
  cases res <;>
    simp [State.complete, State.answerCommand, State.dropHead, State.holdHead, State.keepPlace]

end

section
variable {v : Veil} {s : State} {p : PortId}

/-- What a command may do keeps what a change has to leave alone (R55). -/
theorem suits_of_works {t : State} (h : v.suits s) (ht : s.Works t) : v.suits t := fun k =>
  (h k).imp_right fun ⟨hm, he⟩ =>
    ⟨by rw [(touches_of_works ht).isMgmtHighway k (by simp)]; exact hm, by rw [works_align ht hm he]; exact he⟩

theorem suits_of_touches {t : State} {bs : List Block} (h : v.suits s) (ht : s.touches bs t) (hr : .receivers ∉ bs)
    (hs : .straps ∉ bs) : v.suits t := fun k => by
  rw [ht.receiver k hr, ht.isMgmtHighway k hs]
  exact h k

theorem veil_executeCommand (h : v.suits s) (q : Queued)
    (hq : v.timing s.timing = s.timing ∨ ∀ k, q.command ≠ .readHighway k) :
    (v.on s).executeCommand p q = v.on (s.executeCommand p q) := by
  have hrenew := works_of_acts (acts_renewLease s p)
  have htiming : (s.renewLease p).timing = s.timing := by unfold State.renewLease; split <;> rfl
  have hrun := veil_runCommand (p := p) (suits_of_works h hrenew) q (by rwa [htiming])
  simp only [State.executeCommand, veil_renewLease, hrun, Veil.pair, veil_complete]

theorem veil_startCommand (h : v.suits s) (q : Queued)
    (hq : v.timing s.timing = s.timing ∨ ∀ k, q.command ≠ .readHighway k) :
    (v.on s).startCommand p q = v.on (s.startCommand p q) := by
  have hres : v.suits (s.reservePlace p) := suits_of_touches h (touches_setPort s p _) (by simp) (by simp)
  rw [State.startCommand, veil_reservePlace, veil_executeCommand hres q (by simpa [State.reservePlace] using hq),
    State.startCommand]

/-! ### Receipt (R135 to R139), where the change leaves the timing -/

theorem veil_runQueue (ht : ∀ x, v.timing x = x) (n : Nat) (h : v.suits s) :
    runQueue n p (v.on s) = v.on (runQueue n p s) := by
  induction n generalizing s with
  | zero => rfl
  | succ n ih =>
    unfold runQueue
    rw [veil_port]
    cases hc : (s.port p).commands with
    | nil => rfl
    | cons q rest =>
      simp only
      split
      · rw [veil_startCommand h q (.inl (ht _))]
        exact ih (suits_of_works h (works_startCommand q (by simp [hc])))
      · rfl

theorem veil_offerAnswer (m : List Octet) : (v.on s).offerAnswer p m = v.on (s.offerAnswer p m) := by
  simp [State.offerAnswer, veil_ite]

theorem veil_cacheMessage (m : Message) (x : CacheState) : (v.on s).cacheMessage p m x = v.on (s.cacheMessage p m x) := by
  simp [State.cacheMessage, veil_ite]

theorem veil_enqueue (ht : ∀ x, v.timing x = x) (h : v.suits s) (m : Message) (c : Command) :
    (v.on s).enqueue p m c = v.on (s.enqueue p m c) := by
  have hc : s.touches [.portA, .portB] (s.cacheMessage p m .inProgress) := by
    unfold State.cacheMessage
    split
    · exact touches_refl _ s
    · exact touches_setPort s p _
  simp only [State.enqueue, State.runPort, veil_cacheMessage, veil_port, veil_setPort]
  exact veil_runQueue ht _ (suits_of_touches h (hc.trans (touches_setPort _ p _)) (by simp) (by simp))

theorem veil_receiveNew (ht : ∀ x, v.timing x = x) (h : v.suits s) (m : Message) :
    (v.on s).receiveNew p m = v.on (s.receiveNew p m) := by
  unfold State.receiveNew
  split
  · simp [State.answerReceipt, veil_cacheMessage, veil_offerAnswer]
  · rw [veil_port, veil_enqueue ht h]
    split
    · rfl
    · simp [State.answerBusy, veil_offerAnswer]

theorem veil_forgetEntry (tag : Octet) : (v.on s).forgetEntry p tag = v.on (s.forgetEntry p tag) := by
  simp only [State.forgetEntry, veil_port, veil_setPort, veil_engine, setPort_engine, veil_setEngine]
  cases s.engine with
  | pending r => simp only [veil_ite]
  | idle | syncing pos marks => rfl

/-- A good message does the same before the change as after it (R135). -/
theorem veil_receive (ht : ∀ x, v.timing x = x) (h : v.suits s) (m : Message) :
    (v.on s).receive p m = v.on (s.receive p m) := by
  have hforget : v.suits (s.forgetEntry p m.tag) :=
    suits_of_touches h (touches_forgetEntry s p m.tag) (by simp) (by simp)
  unfold State.receive
  rw [veil_receiveNew ht h, veil_port]
  split
  · rfl
  · cases (s.port p).cached m.tag with
    | none => rfl
    | some e =>
      simp only [veil_forgetEntry, veil_receiveNew ht hforget, State.countDuplicate, veil_countPort, veil_offerAnswer]
      split
      · split <;> rfl
      · rfl

end

end Sys2Proof.Machine
end

section
/-! SUPPORT. A frame whose management octets complete one thing: an error, or a message, which leaves the framer of its own
port (R132 to R134). -/

namespace Sys2Proof.Machine

/-! ### What a message leaves of the framer that completed it (R134) -/

/-- State `t` has the framer of port `p` that state `s` has. -/
def State.keepsFramer (p : PortId) (s t : State) : Prop := (t.port p).framer = (s.port p).framer

section
variable {s t : State} {p : PortId} {k : Highway}

theorem State.keepsFramer.trans {u : State} (h : s.keepsFramer p t) (h' : t.keepsFramer p u) : s.keepsFramer p u :=
  Eq.trans h' h

theorem keepsFramer_of_hears (h : ∀ q, (s.port q).hears (t.port q)) : s.keepsFramer p t := (h p).kept.1

theorem keepsFramer_setPort (q : PortId) {x : Port} (h : x.framer = (s.port q).framer) : s.keepsFramer p (s.setPort q x) := by
  by_cases hq : q = p
  · subst hq
    simpa [State.keepsFramer] using h
  · simp [State.keepsFramer, hq]

/-- No move of a command touches the framer of a port whose own highway is enabled (R49, R55). -/
theorem State.Act.keepsFramer {bs : List Block} (h : s.Act bs t) (hk : portOn s.straps k = some p)
    (he : (s.receiver k).align.enabled = true) : s.keepsFramer p t := by
  have ht := h.work.touches
  cases h with
  | news key v => exact keepsFramer_of_hears (hears_raise s key v).ports
  | fetch q ack =>
    exact (keepsFramer_of_hears (hears_setEvents s _).ports).trans (keepsFramer_of_hears (hears_settleAttention _).ports)
  | attention mask interval hold h =>
    exact (keepsFramer_of_hears (hears_setEvents s _).ports).trans (keepsFramer_of_hears (hears_settleAttention _).ports)
  | clearPort q => exact keepsFramer_setPort q rfl
  | enabled j hd =>
    have hj : j ≠ k := fun e => by rw [e, he] at hd; cases hd
    have hleave : ∀ q, ((s.setAlign j (.search []) false).leaveTraffic j).port q = s.port q := fun q => by
      rw [(touches_leaveTraffic _ j).port q (by simp) (by simp), (touches_setAlign s j _ _).port q (by simp) (by simp)]
    have hreset : s.keepsFramer p (((s.setAlign j (.search []) false).leaveTraffic j).resetFramer j) := by
      unfold State.keepsFramer State.resetFramer
      split
      · rename_i q hq
        have hqp : q ≠ p := fun e => hj (by
          have h1 := ((portOn_eq_some_iff _ _ _).mp (hq : portOn s.straps j = some q)).2
          have h2 := ((portOn_eq_some_iff _ _ _).mp hk).2
          rw [(touches_leaveTraffic _ j).straps (by simp), (touches_setAlign s j _ _).straps (by simp)] at h1
          rw [← h1, ← h2, e])
        simp [State.setFramer, hqp, hleave]
      · rw [hleave]
    exact (hreset.trans (keepsFramer_of_hears fun q => loseLink_ports ..)).trans
      (keepsFramer_of_hears fun q => breakCapture_ports ..)
  | disabled j hd =>
    exact (keepsFramer_of_hears (leftForDisabled_news s j).2.1).trans (keepsFramer_of_hears fun q => breakCapture_ports ..)
  | broken down => exact keepsFramer_of_hears fun q => breakCapture_ports ..
  | _ =>
    unfold State.keepsFramer
    rw [ht.port p (by simp) (by simp)]

/-- The port is the one on highway `k`, and the highway is enabled. -/
structure State.serving (s : State) (k : Highway) (p : PortId) : Prop where
  port    : portOn s.straps k = some p
  enabled : (s.receiver k).align.enabled = true

theorem serving_of_works (h : s.serving k p) (ht : s.Works t) : t.serving k p := by
  have hm : s.isMgmtHighway k = true := by simp [State.isMgmtHighway, h.port]
  exact ⟨by rw [(touches_of_works ht).straps (by simp)]; exact h.port, by rw [works_align ht hm h.enabled]; exact h.enabled⟩

theorem acts_keepsFramer (h : s.Acts t) (hs : s.serving k p) : s.keepsFramer p t := by
  induction h with
  | refl => rfl
  | tail hw h ih =>
    have hu := serving_of_works hs (works_of_acts hw)
    exact ih.trans (h.choose_spec.keepsFramer hu.port hu.enabled)

theorem answerCommit_keepsFramer (s : State) (r : PendingCommit) (reply : Reply) :
    s.keepsFramer p (s.answerCommit r reply) := by
  rw [answerCommit_eq]
  split
  · exact keepsFramer_setPort _ rfl
  · rfl

theorem runCommand_keepsFramer (hs : s.serving k p) {q : Queued} {o : PortId} (ha : s.acts o) :
    s.keepsFramer p (runCommand o q s).1 := by
  by_cases hc : q.command = .commit
  · have hrun : runCommand o q s = runCommit o q.tag q.cached s := by unfold runCommand; rw [hc]
    rw [hrun]
    unfold State.keepsFramer runCommit State.leased
    split
    · split <;> simp
    · rfl
  by_cases hab : q.command = .abortCommit
  · have hrun : runCommand o q s = runAbortCommit o s := by unfold runCommand; rw [hab]
    rw [hrun]
    rcases runAbortCommit_cases s o with heq | ⟨r, reply, -, heq⟩
    · rw [heq]; rfl
    · rw [heq]
      have h1 : s.keepsFramer p (s.setEngine .idle) := by simp [State.keepsFramer]
      exact (h1.trans (answerCommit_keepsFramer _ r reply)).trans (keepsFramer_of_hears (hears_raise _ _ _).ports)
  · exact acts_keepsFramer (acts_runCommand s o ha hc hab) hs

theorem complete_keepsFramer (s : State) (o : PortId) (q : Queued) (res : Result) :
    s.keepsFramer p (s.complete o q res) := by
  unfold State.keepsFramer
  by_cases ho : o = p
  · subst ho
    cases res <;> simp [State.complete, State.answerCommand, State.dropHead, State.keepPlace, State.holdHead]
  · cases res <;> simp [State.complete, State.answerCommand, State.dropHead, State.keepPlace, State.holdHead, ho]

theorem keepsFramer_countPort (s : State) (o : PortId) (f : PortCounters → PortCounters) :
    s.keepsFramer p (s.countPort o f) := keepsFramer_setPort o rfl

theorem keepsFramer_withCommands (s : State) (o : PortId) (c : List Queued) :
    s.keepsFramer p (s.setPort o { s.port o with commands := c }) := keepsFramer_setPort o rfl

theorem keepsFramer_reservePlace (s : State) (o : PortId) : s.keepsFramer p (s.reservePlace o) := keepsFramer_setPort o rfl

theorem startCommand_keepsFramer (hs : s.serving k p) {q : Queued} {o : PortId} (hq : (s.port o).commands ≠ []) :
    s.keepsFramer p (s.startCommand o q) := by
  have hres : s.keepsFramer p (s.reservePlace o) := keepsFramer_reservePlace s o
  have hs1 := serving_of_works hs (works_reservePlace hq)
  have hrenew := acts_renewLease (s.reservePlace o) o
  have hacts : ((s.reservePlace o).renewLease o).acts o := acts_of_commands (by simpa [State.reservePlace] using hq)
  exact ((hres.trans (acts_keepsFramer hrenew hs1)).trans
    (runCommand_keepsFramer (serving_of_works hs1 (works_of_acts hrenew)) hacts)).trans (complete_keepsFramer _ o q _)

theorem runQueue_keepsFramer (n : Nat) (hs : s.serving k p) (o : PortId) : s.keepsFramer p (runQueue n o s) := by
  induction n generalizing s with
  | zero => rfl
  | succ n ih =>
    unfold runQueue
    split
    · rfl
    · rename_i q rest hq
      split
      · have hne : (s.port o).commands ≠ [] := by simp [hq]
        exact (startCommand_keepsFramer hs hne).trans (ih (serving_of_works hs (works_startCommand q hne)))
      · rfl

theorem offerAnswer_keepsFramer (s : State) (o : PortId) (m : List Octet) : s.keepsFramer p (s.offerAnswer o m) := by
  unfold State.offerAnswer
  split
  · exact keepsFramer_setPort o rfl
  · exact (keepsFramer_countPort s o _).trans (keepsFramer_of_hears (hears_raise _ _ _).ports)

theorem cacheMessage_keepsFramer (s : State) (o : PortId) (m : Message) (x : CacheState) :
    s.keepsFramer p (s.cacheMessage o m x) := by
  unfold State.cacheMessage
  split
  · rfl
  · exact keepsFramer_setPort o rfl

theorem serving_of_touches {bs : List Block} (h : s.serving k p) (ht : s.touches bs t) (hr : .receivers ∉ bs)
    (hs : .straps ∉ bs) : t.serving k p :=
  ⟨by rw [ht.straps hs]; exact h.port, by rw [ht.receiver k hr]; exact h.enabled⟩

theorem touches_cacheMessage (s : State) (o : PortId) (m : Message) (x : CacheState) :
    s.touches [.portA, .portB] (s.cacheMessage o m x) := by
  unfold State.cacheMessage
  split
  · exact touches_refl _ s
  · exact touches_setPort s o _

theorem receiveNew_keepsFramer (hs : s.serving k p) (o : PortId) (m : Message) : s.keepsFramer p (s.receiveNew o m) := by
  unfold State.receiveNew
  split
  · exact (cacheMessage_keepsFramer s o m _).trans (offerAnswer_keepsFramer _ o _)
  · split
    · unfold State.enqueue State.runPort
      simp only
      exact ((cacheMessage_keepsFramer s o m .inProgress).trans (keepsFramer_withCommands _ o _)).trans
        (runQueue_keepsFramer _ (serving_of_touches hs
          ((touches_cacheMessage s o m .inProgress).trans (touches_setPort _ o _)) (by simp) (by simp)) o)
    · exact (keepsFramer_countPort s o _).trans (offerAnswer_keepsFramer _ o _)

theorem forgetEntry_keepsFramer (s : State) (o : PortId) (tag : Octet) : s.keepsFramer p (s.forgetEntry o tag) := by
  have hset : s.keepsFramer p (s.setPort o ((s.port o).forgetting tag)) := keepsFramer_setPort o rfl
  rcases forgetEntry_eq s o tag with heq | ⟨r, -, -, -, heq⟩
  · rw [heq]
    exact hset
  · rw [heq]
    exact hset.trans (by rw [State.keepsFramer, setEngine_port])

/-- A message leaves the framer of the port whose highway is enabled (R134, R135). -/
theorem receive_keepsFramer (hs : s.serving k p) (o : PortId) (m : Message) : s.keepsFramer p (s.receive o m) := by
  have hcount : s.keepsFramer p (s.countDuplicate o) := keepsFramer_countPort s o _
  unfold State.receive
  split
  · exact receiveNew_keepsFramer hs o m
  · split
    · exact receiveNew_keepsFramer hs o m
    · split
      · split
        · exact hcount.trans (offerAnswer_keepsFramer _ o _)
        · exact hcount
      · exact (forgetEntry_keepsFramer s o m.tag).trans
          (receiveNew_keepsFramer (serving_of_touches hs (touches_forgetEntry s o m.tag) (by simp) (by simp)) o m)

end

/-! ### The octets of a frame that complete one thing (R132) -/

/-- What one thing that a framer completes brings about at its port (R132, R133, R135). -/
def State.brought (s : State) (p : PortId) : FramerEvent → State
  | .none => s
  | .lengthError => s.lengthError p
  | .checkError => s.checkError p
  | .good body =>
    match messageOf body with
    | some m => s.receive p m
    | none => s

theorem framerOctet_eq (s : State) (p : PortId) (o : Octet) :
    s.framerOctet p o = (s.setFramer p ((s.port p).framer.take o).1).brought p ((s.port p).framer.take o).2 := by
  unfold State.framerOctet State.brought
  simp only <;> cases ((s.port p).framer.take o).2 <;> rfl

theorem take_hunts {f : Framer} {o : Octet} (h : (f.take o).2 ≠ .none) : (f.take o).1 = .hunt := by
  unfold Framer.take at h ⊢
  split at h
  · exact absurd rfl h
  · split at h
    · exact absurd rfl h
    · rename_i hn
      simp only [if_neg hn]
  · split at h <;> exact absurd rfl h
  · exact absurd rfl h
  · split <;> rfl

/-- Octets that complete exactly one thing: those before it, the one that completes it, and those after it. -/
theorem takeAll_split {f after : Framer} {os : List Octet} {a b : Nat} {x : FramerEvent} (hx : x ≠ .none)
    (h : Framer.takeAll f os = (after, List.replicate a .none ++ x :: List.replicate b .none)) :
    ∃ front o behind, os = front ++ o :: behind ∧ (∀ y ∈ (Framer.takeAll f front).2, y = .none) ∧
      (Framer.takeAll f front).1.take o = (.hunt, x) ∧ (∀ y ∈ (Framer.takeAll .hunt behind).2, y = .none) ∧
      (Framer.takeAll .hunt behind).1 = after := by
  induction os generalizing f a with
  | nil =>
    simp [Framer.takeAll] at h
  | cons o os ih =>
    rw [Framer.takeAll] at h
    obtain ⟨h1, h2⟩ := Prod.mk.inj h
    cases a with
    | zero =>
      obtain ⟨hhead, htail⟩ := List.cons.inj h2
      refine ⟨[], o, os, rfl, by simp [Framer.takeAll], ?_, ?_⟩
      · have hh := take_hunts (f := f) (o := o) (by rw [hhead]; exact hx)
        exact Prod.ext hh hhead
      · have hh := take_hunts (f := f) (o := o) (by rw [hhead]; exact hx)
        rw [hh] at h1 htail
        exact ⟨fun y hy => List.eq_of_mem_replicate (htail ▸ hy), h1⟩
    | succ a =>
      obtain ⟨hhead, htail⟩ := List.cons.inj h2
      obtain ⟨front, o', behind, rfl, hf, ho, hb⟩ := ih (f := (f.take o).1) (a := a) (Prod.ext h1 htail)
      refine ⟨o :: front, o', behind, rfl, ?_, ho, hb⟩
      intro y hy
      rw [Framer.takeAll] at hy
      rcases List.mem_cons.mp hy with rfl | hy
      · exact hhead
      · exact hf y hy

theorem setFramer_setFramer (s : State) (p : PortId) (f g : Framer) : (s.setFramer p f).setFramer p g = s.setFramer p g := by
  simp [State.setFramer]

/-- The frame brings about that one thing, with the framer in HUNT, and the framer is then left as its last octets leave
it (R132). -/
theorem framerFrame_once {s : State} {p : PortId} {k : Highway} {f : Payload} {after : Framer} {a b : Nat} {x : FramerEvent}
    (hx : x ≠ .none) (hk : portOn s.straps k = some p)
    (h : Framer.takeAll (s.port p).framer (mgmtOctetsOf s.straps f) =
      (after, List.replicate a .none ++ x :: List.replicate b .none))
    (hkeep : (s.setFramer p .hunt).keepsFramer p ((s.setFramer p .hunt).brought p x)) :
    s.framerFrame k f = ((s.setFramer p .hunt).brought p x).setFramer p after := by
  obtain ⟨front, o, behind, hos, hfront, ho, hbehind, hafter⟩ := takeAll_split hx h
  have hframer : (((s.setFramer p .hunt).brought p x).port p).framer = .hunt := by
    rw [hkeep]
    simp [State.setFramer]
  unfold State.framerFrame
  rw [hk]
  simp only
  rw [hos, List.foldl_append, List.foldl_cons, foldl_framerOctet_quiet p front s hfront, framerOctet_eq]
  have hport : ((s.setFramer p (Framer.takeAll (s.port p).framer front).1).port p).framer =
      (Framer.takeAll (s.port p).framer front).1 := by simp [State.setFramer]
  rw [hport, ho, setFramer_setFramer, foldl_framerOctet_quiet p behind _ (by rw [hframer]; exact hbehind), hframer, hafter]

end Sys2Proof.Machine
end

section
/-! SUPPORT. A message that finds no place (R137 to R139), and a completed frame around the share of the port framer (R51). -/

namespace Sys2Proof.Machine

/-! ### A command that waits (R137, R139) -/

section
variable {s : State} {p : PortId}

theorem receive_of_fresh {m : Message} (h : m.tag = 0 ∨ ∀ e ∈ (s.port p).cache, e.tag ≠ m.tag) :
    s.receive p m = s.receiveNew p m := by
  rcases h with h | h
  · rw [State.receive, if_pos h]
  · exact receive_of_absent h

/-- Nothing starts behind an accepted RESET (R145). -/
theorem runQueue_of_started (n : Nat) {q : Queued} {rest : List Queued} (hq : (s.port p).commands = q :: rest)
    (hs : q.started = true) : runQueue n p s = s := by
  cases n with
  | zero => rfl
  | succ n => simp [runQueue, hq, hs]

/-- A command that cannot start waits at the tail, with its cache entry IN_PROGRESS (R137, R139). -/
theorem receive_waits {tag : Octet} {c : Command} (hf : tag = 0 ∨ ∀ e ∈ (s.port p).cache, e.tag ≠ tag)
    (h4 : (s.port p).commands.length < 4)
    (h : 6 ≤ (s.port p).transmit.length ∨ ∃ q rest, (s.port p).commands = q :: rest ∧ q.started = true) :
    s.receive p (commandMessage tag c) = s.queuedUp p tag c := by
  have henqueue : s.enqueue p (commandMessage tag c) c = (s.queuedUp p tag c).runPort p := by
    unfold State.enqueue State.cacheMessage State.queuedUp State.cacheWith
    by_cases h0 : tag = 0
    · simp only [commandMessage, h0, if_true]
      rfl
    · simp only [commandMessage, h0, if_false, setPort_setPort, port_setPort, if_true]
      rfl
  have hport : (s.queuedUp p tag c).port p = { s.port p with
      commands := (s.port p).commands ++ [queuedCommand tag c], cache := s.cacheWith p tag c .inProgress } := by
    simp [State.queuedUp]
  rw [receive_of_fresh (m := commandMessage tag c) hf]
  have hnew : s.receiveNew p (commandMessage tag c) = s.enqueue p (commandMessage tag c) c := if_pos h4
  rw [hnew, henqueue, State.runPort]
  rcases h with h | ⟨q, rest, hq, hs⟩
  · exact runQueue_of_full _ (by rw [hport]; exact decide_eq_false (Nat.not_lt.mpr h))
  · exact runQueue_of_started _ (q := q) (rest := rest ++ [queuedCommand tag c]) (by rw [hport]; simp [hq]) hs

end

/-! ### A completed frame around the framer's share (R51) -/

section
variable {s : State} {k : Highway} {a : Align} {f : InFrame} {g : Framer} {p : PortId}

theorem quietTask_hears {x : CompletionTask} (hx : x ≠ .framer) (q : PortId) :
    (s.port q).hears ((s.quietTask k a f g x).port q) := by
  rw [quietTask_of_ne hx]
  exact (completionTask_raises s k a f hx).1 q

theorem quietTasks_hear {l : List CompletionTask} (hl : .framer ∉ l) (q : PortId) :
    (s.port q).hears ((s.quietTasks k a f g l).port q) :=
  quietTasks_keep s k a f g (fun t => (s.port q).hears (t.port q)) l (.refl _) fun _ _ hx h =>
    h.trans (quietTask_hears (fun e => hl (e ▸ hx)) q)

theorem quietTasks_servesAs {l : List CompletionTask} (hl : .framer ∉ l) (h : s.servesAs k a) :
    (s.quietTasks k a f g l).servesAs k a :=
  quietTasks_keep s k a f g (fun t => t.servesAs k a) l h fun _ x hx h => by
    rw [quietTask_of_ne fun e => hl (e ▸ hx)]
    exact (inputs_completionTask h f x).2

/-- A completion that hands the frame over: the shares before the framer's, the framer's own, and the shares after it. -/
theorem completeFrame_around (hf : (s.receiver k).inFrame = true) (ho : (s.receiver k).align.handsOver = true)
    (order : CompletionOrder) (g : Framer) :
    ∃ before after, s.completeFrame k f order =
        (((s.setAlign k (s.receiver k).align false).quietTasks k (s.receiver k).align f g before).framerFrame k
          f.payload).quietTasks k (s.receiver k).align f g after ∧
      .framer ∉ before ∧ .framer ∉ after ∧ firstMentions (order ++ completionTasks) = before ++ .framer :: after ∧
      ((s.setAlign k (s.receiver k).align false).quietTasks k (s.receiver k).align f g before).events.load ≤
        s.events.ordinaryCount + (s.sup k).watchedCount + 5 := by
  have ht := touches_setAlign s k (s.receiver k).align false
  obtain ⟨before, after, hl, hb, ha, hcost⟩ := completionOrder_cost order .framer (s.sup k).watchedCount
  have same : ∀ {l : List CompletionTask}, .framer ∉ l → ∀ t : State,
      l.foldl (fun t x => t.completionTask k (s.receiver k).align f x) t = t.quietTasks k (s.receiver k).align f g l :=
    fun h t => foldl_congr_of_mem (fun u x hx => (quietTask_of_ne (fun e => h (e ▸ hx)) u k _ f _).symm) t
  refine ⟨before, after, ?_, hb, ha, hl, ?_⟩
  · rw [completeFrame_of_handsOver hf ho, State.handOver, hl, List.foldl_append, List.foldl_cons, same hb, same ha]
    congr 1
    exact if_pos ho
  · obtain ⟨-, -, hg⟩ := quietTasks_run (s.setAlign k (s.receiver k).align false) k (s.receiver k).align f g before
    have hload := hg.load
    rw [ht.sup k (by simp), ht.events (by simp)] at hload
    have h2 := load_le s.events
    simp only [State.quietTasks]
    omega

/-- What the state before the framer's share has of the state before the completion. -/
structure State.readied (s t : State) (k : Highway) (p : PortId) : Prop where
  serving : t.serving k p
  straps  : t.straps = s.straps
  hears   : ∀ q, (s.port q).hears (t.port q)

theorem readied_quietTasks (ho : (s.receiver k).align.handsOver = true) (hk : portOn s.straps k = some p)
    {before : List CompletionTask} (hb : .framer ∉ before) :
    s.readied ((s.setAlign k (s.receiver k).align false).quietTasks k (s.receiver k).align f g before) k p := by
  have ht := touches_setAlign s k (s.receiver k).align false
  have hstraps := (ht.trans (quietTasks_kept (k := k) (a := (s.receiver k).align) (f := f) (after := g) before)).straps
    (by simp [completionBlocks])
  refine ⟨⟨by rw [hstraps]; exact hk, enabled_of_handsOver
    (quietTasks_servesAs hb (servesAs_setAlign_same ho false)).handsOver⟩, hstraps, fun q => ?_⟩
  have h := quietTasks_hear (s := s.setAlign k (s.receiver k).align false) (k := k) (a := (s.receiver k).align) (f := f)
    (g := g) hb q
  rwa [ht.port q (by simp) (by simp)] at h

/-! ### While the condition holds and ATTN stands, no share offers a NOTICE (R122) -/

/-- The condition goes on holding, the ports are as they were, and the list reports the errors of the ports that it
reported. -/
structure State.unheard (s t : State) : Prop where
  asserted : t.events.asserted
  ports    : ∀ q, t.port q = s.port q
  errors   : ∀ q v, s.events.reports (.mgmtError q) v → t.events.reports (.mgmtError q) v

theorem State.unheard.refl (h : s.events.asserted) : s.unheard s := ⟨h, fun _ => rfl, fun _ _ => id⟩

theorem unheard_of_touches {t : State} {bs : List Block} (h : s.events.asserted) (ht : s.touches bs t)
    (he : Block.events ∉ bs) (ha : Block.portA ∉ bs) (hb : Block.portB ∉ bs) : s.unheard t :=
  ⟨by rw [ht.events he]; exact h, fun q => ht.port q ha hb, fun q v => by rw [ht.events he]; exact id⟩

theorem State.unheard.trans {t u : State} (h : s.unheard t) (h' : t.unheard u) : s.unheard u :=
  ⟨h'.asserted, fun q => (h'.ports q).trans (h.ports q), fun q v hr => h'.errors q v (h.errors q v hr)⟩

theorem State.unheard.next {t u : State} (h : s.unheard t) (h' : t.events.asserted → t.unheard u) : s.unheard u :=
  h.trans (h' h.asserted)

theorem unheard_raise (h : s.events.asserted) {key : EventKey} (hk : ∀ q, key ≠ .mgmtError q) (v : EventValue) :
    s.unheard (s.raise key v) :=
  ⟨asserted_raise h key v, fun q => by rw [raise_of_attending h.2 h.1, setEvents_port], fun q v' hr => by
    rw [raise_of_attending h.2 h.1, setEvents_events]
    exact take_reports_other (hk q).symm hr _⟩

theorem unheard_handAcceptance (h : s.events.asserted) (x : Slot × Code × Bool) : s.unheard (s.handAcceptance k x) := by
  have hc := unheard_of_touches h (touches_setCapture s (s.capture.acceptance s.timing.stamp k x.1 x.2.1)) (by simp)
    (by simp) (by simp)
  unfold State.handAcceptance
  simp only
  split
  · exact hc.next fun hc => unheard_raise hc (by simp) _
  · exact hc

theorem unheard_superviseFrame (h : s.events.asserted) (n : FrameNumber) (fly : Bool) :
    s.unheard (s.superviseFrame k n f fly) := by
  have hset : ∀ {t : State} (x : Supervisor), t.events.asserted → t.unheard (t.setSup k x) := fun x ht =>
    unheard_of_touches ht (touches_setSup _ k x) (by simp) (by simp) (by simp)
  unfold State.superviseFrame
  simp only
  split
  · refine (hset ((s.sup k).collect n f fly) h).next fun h1 => ?_
    rw [endMultiframe_eq]
    split
    · exact foldl_keeps (fun u => State.unheard _ u) _ _ _ (hset _ h1)
        fun u x _ hu => hu.next fun h3 => unheard_handAcceptance h3 x
    · exact hset _ h1
  · exact hset _ h

theorem unheard_quietTask {x : CompletionTask} (hx : x ≠ .framer) (h : s.events.asserted) :
    s.unheard (s.quietTask k a f g x) := by
  have hrefl : s.unheard s := .refl h
  rw [quietTask_of_ne hx]
  cases x with
  | framer => exact absurd rfl hx
  | queue =>
    rw [queueTask_eq]
    split
    · have hq := unheard_of_touches h (touches_setQueue s k ((s.queue k).append f.payload)) (by simp) (by simp) (by simp)
      unfold State.appendFrame
      simp only
      split
      · exact hq
      · refine (hq.next fun h1 => ?_).next fun h2 => unheard_raise h2 (by simp) _
        exact unheard_of_touches h1 (touches_countHighway _ k _) (by simp) (by simp) (by simp)
    · exact hrefl
  | supervisor =>
    rw [supervisorTask_eq]
    split
    · exact unheard_superviseFrame h _ _
    · exact hrefl
  | capture =>
    have hocts : ∀ o, s.unheard (s.captureOctet o) := fun o => by
      unfold State.captureOctet
      split
      · exact unheard_of_touches h (touches_setCapture s _) (by simp) (by simp) (by simp)
      · exact (unheard_of_touches h (touches_setCapture s _) (by simp) (by simp) (by simp)).next
          fun h1 => unheard_raise h1 (by simp) _
    unfold State.completionTask
    simp only
    split
    · split
      · split
        · exact hocts _
        · exact hrefl
      · exact hrefl
      · exact hrefl
    · exact hrefl
  | guard =>
    have hset := fun al => unheard_of_touches h (touches_setAlign s k al false) (by simp) (by simp) (by simp)
    rw [guardTask_eq]
    unfold State.guardTick
    split
    · split
      · split
        · exact (hset _).next fun h1 => unheard_raise h1 (by simp) _
        · exact hset _
      · exact hrefl
    all_goals exact hrefl

theorem unheard_quietTasks {l : List CompletionTask} (hl : .framer ∉ l) (h : s.events.asserted) :
    s.unheard (s.quietTasks k a f g l) :=
  quietTasks_keep s k a f g (fun t => s.unheard t) l (.refl h) fun _ _ hx ht =>
    ht.trans (unheard_quietTask (fun e => hl (e ▸ hx)) ht.asserted)

end

end Sys2Proof.Machine
end

section
/-! SUPPORT. The errors and messages that a frame completes at its port, and O50 (R62, R63, R132, R133). -/

namespace Sys2Proof.Machine

theorem mgmtOctetsOf_eq (t : Straps) (f : Payload) :
    mgmtOctetsOf t f = f.toList.drop (if t.four then 60 else 63) := by
  unfold mgmtOctetsOf strapWidth
  cases t.four <;> rfl

theorem Port.hears.full {x y : Port} (h : x.hears y) (h6 : 6 ≤ x.transmit.length) : y.transmit = x.transmit := by
  obtain ⟨more, c, rfl, -, hl⟩ := h
  by_cases hm : more = []
  · simp [hm]
  · have h1 := hl hm
    have h2 := List.length_pos_iff.mpr hm
    simp only [List.length_append] at h1
    omega

theorem setFramer_port (s : State) (p : PortId) (g : Framer) : (s.setFramer p g).port p = { s.port p with framer := g } := by
  simp [State.setFramer]

section
variable {s t : State} {k : Highway} {f : InFrame} {p : PortId} {after : Framer} {a b : Nat} {x : FramerEvent}

theorem serving_setFramer (h : t.serving k p) (g : Framer) : (t.setFramer p g).serving k p :=
  serving_of_touches h (touches_setPort t p _) (by simp) (by simp)

theorem brought_keepsFramer (h : t.serving k p) (x : FramerEvent) : t.keepsFramer p (t.brought p x) := by
  cases x with
  | none => rfl
  | lengthError | checkError => exact (keepsFramer_countPort t p _).trans (keepsFramer_of_hears (hears_raise _ _ _).ports)
  | good body =>
    cases hm : messageOf body with
    | some m =>
      simp only [State.brought, hm]
      exact receive_keepsFramer h p m
    | none =>
      simp only [State.brought, hm]
      rfl

/-- The framer's share of a frame that completes exactly one thing at the port. -/
theorem readied_framerFrame (ht : s.readied t k p) (hx : x ≠ .none)
    (h : Framer.takeAll (s.port p).framer (mgmtOctetsOf s.straps f.payload) =
      (after, List.replicate a .none ++ x :: List.replicate b .none)) :
    t.framerFrame k f.payload = ((t.setFramer p .hunt).brought p x).setFramer p after := by
  refine framerFrame_once (a := a) (b := b) hx ht.serving.port ?_ (brought_keepsFramer (serving_setFramer ht.serving _) x)
  rw [ht.straps, (ht.hears p).kept.1, h]

/-! ### The three outcomes of R132 and R133 -/

/-- A frame that completes nothing: the framer alone takes its octets. -/
theorem completeFrame_of_nothing (hf : (s.receiver k).inFrame = true) (hk : portOn s.straps k = some p)
    (ho : (s.receiver k).align.handsOver = true)
    (h : ∀ x ∈ (Framer.takeAll (s.port p).framer (mgmtOctetsOf s.straps f.payload)).2, x = .none) (order : CompletionOrder) :
    ((s.completeFrame k f order).port p).framer = (Framer.takeAll (s.port p).framer (mgmtOctetsOf s.straps f.payload)).1 ∧
      ((s.completeFrame k f order).port p).commands = (s.port p).commands ∧
      ((s.completeFrame k f order).port p).cache = (s.port p).cache := by
  obtain ⟨before, behind, he, hb, hbehind, -, -⟩ := completeFrame_around (f := f) hf ho order .hunt
  have ht := readied_quietTasks (f := f) (g := .hunt) ho hk hb
  rw [he]
  generalize (s.setAlign k (s.receiver k).align false).quietTasks k (s.receiver k).align f .hunt before = t at *
  obtain ⟨h1, h2, h3⟩ := (quietTasks_hear (s := t.framerFrame k f.payload) (k := k) (a := (s.receiver k).align) (f := f)
    (g := .hunt) hbehind p).kept
  obtain ⟨g1, g2, g3⟩ := (ht.hears p).kept
  rw [h1, h2, h3]
  have hfr : t.framerFrame k f.payload =
      t.setFramer p (Framer.takeAll (s.port p).framer (mgmtOctetsOf s.straps f.payload)).1 := by
    unfold State.framerFrame
    rw [ht.serving.port]
    simp only
    rw [ht.straps, foldl_framerOctet_quiet p _ t (by rw [g1]; exact h), g1]
  rw [hfr, setFramer_port]
  exact ⟨rfl, g2, g3⟩

/-- The error that a framer completes, as the list and the port tell of it (R133, R147). -/
def errorValue (x : FramerEvent) : EventValue := if x = .lengthError then .length else .check

/-- The counters of a port after the error that its framer completes (R147). -/
def PortCounters.erring (c : PortCounters) (x : FramerEvent) : PortCounters :=
  if x = .lengthError then { c with lengthErrors := saturate c.lengthErrors }
  else { c with checkErrors := saturate c.checkErrors }

theorem brought_error (ht : t.events.asserted) (hx : x = .lengthError ∨ x = .checkError) :
    t.brought p x = (t.countPort p fun c => c.erring x).setEvents
      (t.events.take (.mgmtError p) (errorValue x) t.timing.stamp) := by
  have hcount := fun f => (touches_countPort t p f)
  have hraise : ∀ f v, (t.countPort p f).raise (.mgmtError p) v =
      (t.countPort p f).setEvents (t.events.take (.mgmtError p) v t.timing.stamp) := fun f v => by
    have he := (hcount f).events (by simp)
    rw [raise_of_attending (by rw [he]; exact ht.2) (by rw [he]; exact ht.1), he, (hcount f).timing (by simp)]
  rcases hx with rfl | rfl
  · exact hraise _ _
  · exact hraise _ _

theorem watchedCount_of_none (h : ∀ m : Slot, (s.slotState k m).watched = false) : (s.sup k).watchedCount = 0 := by
  rw [watchedCount_eq, List.length_eq_zero_iff, List.filter_eq_nil_iff]
  intro n _ hn
  exact absurd (hn.symm.trans (h n)) (by simp)

/-- A frame that completes an error at the port, while ATTN stands: the port counts it, the list reports it, and no NOTICE
is offered (R122, R133). -/
theorem completeFrame_of_error (hf : (s.receiver k).inFrame = true) (hk : portOn s.straps k = some p)
    (ho : (s.receiver k).align.handsOver = true) (hx : x = .lengthError ∨ x = .checkError)
    (h : Framer.takeAll (s.port p).framer (mgmtOctetsOf s.straps f.payload) =
      (after, List.replicate a .none ++ x :: List.replicate b .none))
    (ha : s.events.asserted) (hroom : s.events.roomy) (hw : ∀ m : Slot, (s.slotState k m).watched = false)
    (order : CompletionOrder) :
    (s.completeFrame k f order).port p =
        { s.port p with framer := after, counters := (s.port p).counters.erring x } ∧
      (s.completeFrame k f order).events.reports (.mgmtError p) (errorValue x) := by
  obtain ⟨before, behind, he, hb, hbehind, -, hload⟩ := completeFrame_around (f := f) hf ho order .hunt
  have ht := readied_quietTasks (f := f) (g := .hunt) ho hk hb
  have hset := touches_setAlign s k (s.receiver k).align false
  have hun := (unheard_of_touches ha hset (by simp) (by simp) (by simp)).next fun h1 =>
    unheard_quietTasks (k := k) (a := (s.receiver k).align) (f := f) (g := .hunt) hb h1
  rw [he]
  generalize (s.setAlign k (s.receiver k).align false).quietTasks k (s.receiver k).align f .hunt before = t at *
  have htf : (t.setFramer p .hunt).events.asserted := by
    simpa [State.setFramer] using hun.asserted
  have hbr := brought_error (p := p) htf hx
  have hne : x ≠ .none := by rcases hx with rfl | rfl <;> simp
  have hfr := readied_framerFrame ht hne h
  have hevents : (t.framerFrame k f.payload).events =
      t.events.take (.mgmtError p) (errorValue x) t.timing.stamp := by
    rw [hfr, hbr]
    simp [State.setFramer]
  have hport : (t.framerFrame k f.payload).port p =
      { s.port p with framer := after, counters := (s.port p).counters.erring x } := by
    rw [hfr, hbr, setFramer_port, setEvents_port]
    simp [State.countPort, State.setFramer, hun.ports p]
  have hasserted : (t.framerFrame k f.payload).events.asserted := by
    rw [hevents]
    exact hun.asserted.take _ _ _
  have hend := unheard_quietTasks (k := k) (a := (s.receiver k).align) (f := f) (g := .hunt) hbehind hasserted
  refine ⟨(hend.ports p).trans hport, hend.errors p _ ?_⟩
  rw [hevents]
  refine take_reports (admits_of_load ?_ _) _ _
  have h0 := watchedCount_of_none hw
  have hr : s.events.ordinaryCount ≤ 32 := hroom
  omega

/-- A frame that completes a command at a port without a free place: the command waits (R137, R139). -/
theorem completeFrame_of_waiting (hf : (s.receiver k).inFrame = true) (hk : portOn s.straps k = some p)
    (ho : (s.receiver k).align.handsOver = true) {tag : Octet} {c : Command}
    (h : Framer.takeAll (s.port p).framer (mgmtOctetsOf s.straps f.payload) =
      (after, List.replicate a .none ++ .good (c.body tag) :: List.replicate b .none))
    (hfresh : tag = 0 ∨ ∀ x ∈ (s.port p).cache, x.tag ≠ tag) (h4 : (s.port p).commands.length < 4)
    (h6 : 6 ≤ (s.port p).transmit.length) (order : CompletionOrder) :
    ((s.completeFrame k f order).port p).framer = after ∧
      ((s.completeFrame k f order).port p).commands = (s.port p).commands ++ [queuedCommand tag c] ∧
      ((s.completeFrame k f order).port p).cache = s.cacheWith p tag c .inProgress ∧
      ((s.completeFrame k f order).port p).transmit = (s.port p).transmit := by
  obtain ⟨before, behind, he, hb, hbehind, -, -⟩ := completeFrame_around (f := f) hf ho order .hunt
  have ht := readied_quietTasks (f := f) (g := .hunt) ho hk hb
  rw [he]
  generalize (s.setAlign k (s.receiver k).align false).quietTasks k (s.receiver k).align f .hunt before = t at *
  obtain ⟨-, g2, g3⟩ := (ht.hears p).kept
  have g4 := (ht.hears p).full h6
  have hbrought : (t.setFramer p .hunt).brought p (.good (c.body tag)) = (t.setFramer p .hunt).queuedUp p tag c := by
    unfold State.brought
    simp only [messageOf_body]
    exact receive_waits (by rw [setFramer_port]; simpa [g3] using hfresh) (by rw [setFramer_port]; simpa [g2] using h4)
      (.inl (by rw [setFramer_port]; simpa [g4] using h6))
  have hport : (t.framerFrame k f.payload).port p =
      { t.port p with
        framer := after, commands := (s.port p).commands ++ [queuedCommand tag c]
        cache := s.cacheWith p tag c .inProgress } := by
    rw [readied_framerFrame ht (by simp) h, hbrought, setFramer_port]
    simp [State.queuedUp, State.cacheWith, State.setFramer, g2, g3]
  have hh := quietTasks_hear (s := t.framerFrame k f.payload) (k := k) (a := (s.receiver k).align) (f := f)
    (g := .hunt) hbehind p
  obtain ⟨h1, h2, h3⟩ := hh.kept
  have h5 := hh.full (by rw [hport]; simpa [g4] using h6)
  rw [hport] at h1 h2 h3 h5
  exact ⟨h1, h2, h3, h5.trans g4⟩

end

/-! ### A message inside a guard period -/

theorem collect_watch (x : Supervisor) (n : FrameNumber) (f : InFrame) (b : Bool) (first count : Nat) (setting : Bool) :
    (x.collect n f b).watch first count setting = (x.watch first count setting).collect n f b := by
  simp only [Supervisor.watch, Supervisor.collect]

/-- The supervisor of highway `k` has collected the codes of a frame, which no command looks at (R91). -/
def collecting (k : Highway) (n : FrameNumber) (f : InFrame) : Veil where
  timing := id
  sup j x := if j = k then x.collect n f false else x
  stamp _ := rfl
  slots j x := by
    split
    · exact collect_slots x n f false
    · rfl
  last j x := by split <;> rfl
  watch j x first count setting := by
    split
    · exact collect_watch x n f false first count setting
    · rfl

theorem collecting_on (s : State) (k : Highway) (n : FrameNumber) (f : InFrame) :
    (collecting k n f).on s = s.setSup k ((s.sup k).collect n f false) := by
  have hsups : (Vector.ofFn fun j : Highway => (collecting k n f).sup j (s.sup j)) =
      s.sups.set k ((s.sup k).collect n f false) := by
    ext j hj
    by_cases hkj : k.val = j
    · subst hkj
      simp [collecting]
    · have hne : (⟨j, hj⟩ : Highway) ≠ k := fun e => hkj (congrArg Fin.val e).symm
      simp [collecting, hkj, hne, State.sup]
  rw [Veil.on, hsups]
  rfl

section
variable {s : State} {k : Highway} {f : InFrame} {p : PortId} {e : FrameNumber} {n : Nat} {g : Framer}

/-- Inside a guard period only the supervisor and the port framer take a share of a frame (R51). -/
theorem quietTask_in_guard (he : e ≠ 0) (t : State) {x : CompletionTask} (hx : x ≠ .framer) :
    t.quietTask k (.guard e n) f g x = if x = .supervisor then (collecting k (e - 1) f).on t else t := by
  have hnum : (Align.guard e n).frameNumber = e - 1 := rfl
  have h15 : e - 1 ≠ 15 := fun h => he (by
    have h2 : e = 15 + 1 := by rw [← h]; simp
    rw [h2]
    rfl)
  rw [quietTask_of_ne hx]
  cases x with
  | framer => exact absurd rfl hx
  | queue => rfl
  | capture => rfl
  | guard =>
    rw [guardTask_eq, hnum]
    unfold State.guardTick
    split
    · rw [if_neg h15]
      rfl
    all_goals rfl
  | supervisor =>
    rw [supervisorTask_eq, if_pos (by rfl : (Align.guard e n).handsOver = true), if_pos rfl, hnum, collecting_on]
    unfold State.superviseFrame
    simp only [if_neg h15]
    rfl

theorem quietTasks_in_guard (he : e ≠ 0) (t : State) {l : List CompletionTask} (hl : .framer ∉ l) (hn : l.Nodup) :
    t.quietTasks k (.guard e n) f g l = if .supervisor ∈ l then (collecting k (e - 1) f).on t else t := by
  induction l generalizing t with
  | nil => rfl
  | cons x l ih =>
    obtain ⟨hx, hn⟩ := List.nodup_cons.mp hn
    obtain ⟨hxf, hl⟩ : x ≠ .framer ∧ .framer ∉ l := by
      refine ⟨fun h => hl (h ▸ List.mem_cons_self), fun h => hl (List.mem_cons_of_mem _ h)⟩
    have hstep : t.quietTasks k (.guard e n) f g (x :: l) =
        (t.quietTask k (.guard e n) f g x).quietTasks k (.guard e n) f g l := rfl
    rw [hstep, ih _ hl hn, quietTask_in_guard he t hxf]
    by_cases hs : x = .supervisor
    · subst hs
      simp [hx]
    · simp [hs, Ne.symm hs]

theorem suits_collecting {t : State} (h : t.serving k p) : (collecting k (e - 1) f).suits t := fun j => by
  by_cases hj : j = k
  · subst hj
    exact .inr ⟨by simp [State.isMgmtHighway, h.port], h.enabled⟩
  · exact .inl fun x => by simp [collecting, hj]

theorem veil_setFramer (v : Veil) (t : State) (g : Framer) : (v.on t).setFramer p g = v.on (t.setFramer p g) := by
  simp [State.setFramer]

/-- A message that a frame completes inside a guard period does what the message alone does, with the frame's codes
collected (R51, R135). -/
theorem completeFrame_of_message {after : Framer} {a b : Nat} {body : List Octet} {m : Message}
    (hf : (s.receiver k).inFrame = true) (hk : portOn s.straps k = some p) (ha : (s.receiver k).align = .guard e n)
    (he : e ≠ 0) (h : Framer.takeAll (s.port p).framer (mgmtOctetsOf s.straps f.payload) =
      (after, List.replicate a .none ++ .good body :: List.replicate b .none)) (hm : messageOf body = some m)
    (order : CompletionOrder) :
    s.completeFrame k f order = (collecting k (e - 1) f).on
      ((((s.setAlign k (.guard e n) false).setFramer p .hunt).receive p m).setFramer p after) := by
  have ho : (s.receiver k).align.handsOver = true := by rw [ha]; rfl
  obtain ⟨before, behind, hc, hb, hbehind, hl, -⟩ := completeFrame_around (f := f) hf ho order .hunt
  have ht := readied_quietTasks (f := f) (g := .hunt) ho hk hb
  have hs0 := readied_quietTasks (f := f) (g := .hunt) ho hk (before := []) (by simp)
  have hnodup := firstMentions_nodup (order ++ completionTasks)
  have hsup := mem_completionOrder order .supervisor
  rw [hl] at hnodup hsup
  obtain ⟨hnb, hnr, hdis⟩ := List.nodup_append.mp hnodup
  rw [ha] at hc ht hs0
  have hs0 : s.readied (s.setAlign k (.guard e n) false) k p := hs0
  rw [hc, quietTasks_in_guard he _ hbehind (List.nodup_cons.mp hnr).2]
  rw [quietTasks_in_guard he _ hb hnb] at ht ⊢
  have hsuit := suits_collecting (e := e) (f := f) (serving_setFramer hs0.serving .hunt)
  by_cases hin : .supervisor ∈ before
  · have hout : .supervisor ∉ behind := fun hr => hdis _ hin _ (List.mem_cons_of_mem _ hr) rfl
    rw [if_pos hin] at ht
    rw [if_pos hin, if_neg hout, readied_framerFrame ht (by simp) h, State.brought]
    simp only [hm]
    rw [veil_setFramer, veil_receive (fun _ => rfl) hsuit, veil_setFramer]
  · have hout : .supervisor ∈ behind := by
      rcases List.mem_append.mp hsup with hr | hr
      · exact absurd hr hin
      · exact (List.mem_cons.mp hr).resolve_left (by simp)
    rw [if_neg hin, if_pos hout, readied_framerFrame hs0 (by simp) h, State.brought]
    simp only [hm]

end

theorem messageOf_of_two_le {body : List Octet} (h : 2 ≤ body.length) : ∃ m, messageOf body = some m := by
  match body, h with
  | tag :: code :: arguments, _ => exact ⟨_, rfl⟩

theorem completeFrame_queue {s : State} {k : Highway} {f : InFrame} (hf : (s.receiver k).inFrame = true)
    (ho : (s.receiver k).align.handsOver = true) (order : CompletionOrder) :
    (s.completeFrame k f order).queue k =
        (if s.inService k then (s.queue k).append f.payload else s.queue k) ∧
      (s.inService k = true → ((s.completeFrame k f order).receiver k).inFrame = false ∧
        ((s.completeFrame k f order).receiver k).align = (s.receiver k).align) := by
  rw [completeFrame_of_handsOver hf ho]
  obtain ⟨hq, hr⟩ := handOver_highway (servesAs_setAlign_same ho false) f order
  rw [setAlign_receiver] at hr
  rw [(touches_setAlign s k _ _).queue k (by simp)] at hq
  exact ⟨hq, hr⟩

theorem completeFrame_queue_of_not_handed {s : State} {k : Highway} {f : InFrame}
    (ho : (s.receiver k).align.handsOver = false) (order : CompletionOrder) :
    (s.completeFrame k f order).queue k = s.queue k := by
  unfold State.completeFrame
  split
  · cases ha : (s.receiver k).align with
    | disabled | search history => rfl
    | confirm e c history => exact (touches_setAlign s k _ _).queue k (by simp)
    | guard e c | aligned e | flywheel e c => rw [ha] at ho; cases ho
  · rfl

/-- Settles O50: the queue, the quiet framer, the errors, the command that waits, and the message in a guard period. -/
theorem completionQueuesTheFrame : Obligations.CompletionQueuesTheFrame := by
  intro k f order s hf
  refine ⟨fun hs => ?_, fun hs => ?_, fun p after made hk ho hmade => ?_⟩
  · obtain ⟨hq, hr⟩ := completeFrame_queue hf (handsOver_of_inService hs) order
    obtain ⟨h1, h2⟩ := hr hs
    refine ⟨_, rfl, by rw [hq, if_pos hs]; rfl, h1, h2, fun hquiet => ?_⟩
    obtain ⟨g1, g2, g3, ht⟩ := completeFrame_in_service hf hs hquiet order
    exact ⟨g1, g2, g3, ht.bank0 (by simp [completionBlocks]), ht.bank1 (by simp [completionBlocks]),
      ht.engine (by simp [completionBlocks]), ht.outputs (by simp [completionBlocks]),
      ht.lease (by simp [completionBlocks]), ht.timing (by simp [completionBlocks])⟩
  · refine ⟨_, rfl, ?_⟩
    by_cases ho : (s.receiver k).align.handsOver = true
    · rw [(completeFrame_queue hf ho order).1, if_neg (by simp [hs])]
    · exact completeFrame_queue_of_not_handed (by simpa using ho) order
  · rw [← mgmtOctetsOf_eq] at hmade
    refine ⟨fun hnone => ?_, fun a b x hx herr hattn hcond hroom hw => ?_,
      fun a b tag c hx hlen hfresh h4 h6 => ?_, fun a b body e n hx h2 hlen ha he => ?_⟩
    · obtain ⟨h1, h2, h3⟩ := completeFrame_of_nothing hf hk ho (by rw [← hmade]; exact hnone) order
      rw [← hmade] at h1
      exact ⟨_, rfl, h1, h2, h3⟩
    · subst hx
      obtain ⟨h1, h2⟩ := completeFrame_of_error hf hk ho herr hmade.symm ⟨hattn, hcond⟩ hroom hw order
      exact ⟨_, rfl, h1, h2⟩
    · subst hx
      exact ⟨_, rfl, completeFrame_of_waiting hf hk ho hmade.symm hfresh h4 h6 order⟩
    · subst hx
      obtain ⟨m, hm⟩ := messageOf_of_two_le h2
      have hserving : (s.setAlign k (.guard e n) false).serving k p :=
        ⟨by rw [(touches_setAlign s k _ _).straps (by simp)]; exact hk, by rw [setAlign_receiver]; rfl⟩
      have hbefore : ((s.setReceiver k { s.receiver k with inFrame := false }).setSup k
          ((s.sup k).collect (e - 1) f false)).setPort p { s.port p with framer := .hunt } =
          (collecting k (e - 1) f).on ((s.setAlign k (.guard e n) false).setFramer p .hunt) := by
        rw [← veil_setFramer, collecting_on, ← ha]
        simp [State.setAlign, State.setFramer]
      have hsuit := suits_collecting (e := e) (f := f) (serving_setFramer hserving .hunt)
      refine ⟨(collecting k (e - 1) f).on (((s.setAlign k (.guard e n) false).setFramer p .hunt).receive p m), ?_, ?_⟩
      · obtain ⟨hen, hpair⟩ := (portOn_eq_some_iff s.straps k p).mp hk
        rw [hbefore, ← veil_receive (fun _ => rfl) hsuit]
        refine exec_goodMessage_of_receives hm hlen ?_
        have hpair' : s.portPair p = k := hpair
        have hen' : s.portEnabled p = true := hen
        simp [State.portReceives, State.setFramer, State.setAlign, hpair', hen', Align.handsOver]
      · rw [exec_inputFrameCompletion, completeFrame_of_message hf hk ha he hmade.symm hm order, ← veil_setFramer]
        rfl

end Sys2Proof.Machine
end

section
/-! SUPPORT. A command whose port has four commands waiting (R137), and what an executed command leaves of the engine, the
capture unit and the other port (R139). -/

namespace Sys2Proof.Machine

/-! ### A command that finds four commands waiting (R137) -/

section
variable {s : State} {p : PortId} {tag : Octet} {c : Command}

theorem receive_busy (hf : tag = 0 ∨ ∀ e ∈ (s.port p).cache, e.tag ≠ tag) (h4 : 4 ≤ (s.port p).commands.length) :
    s.receive p (commandMessage tag c) = s.answerBusy p (commandMessage tag c) := by
  rw [receive_of_fresh (m := commandMessage tag c) hf]
  exact if_neg (Nat.not_lt.mpr h4)

/-- BUSY is counted, and sent where a place is free (R137). -/
theorem answerBusy_of_place (h : (s.port p).transmit.length < 6) :
    s.answerBusy p (commandMessage tag c) = s.setPort p
      { s.port p with
        transmit := (s.port p).transmit ++ [.message (responseMessage tag c.code { status := .busy, data := [] }) none]
        counters := { (s.port p).counters with busyRefusals := saturate (s.port p).counters.busyRefusals } } := by
  unfold State.answerBusy
  rw [offerAnswer_of_place (by simpa [State.countPort] using h)]
  simp [State.countPort]
  rfl

/-- Without a free place it is dropped, and BUSY_DROP is reported (R138). -/
theorem answerBusy_of_full (h : 6 ≤ (s.port p).transmit.length) :
    s.answerBusy p (commandMessage tag c) = (s.setPort p
      { s.port p with
        counters :=
          { (s.port p).counters with
            busyRefusals := saturate (s.port p).counters.busyRefusals
            dropped := saturate (s.port p).counters.dropped } }).raise (.mgmtError p) .busyDrop := by
  unfold State.answerBusy
  rw [offerAnswer_of_full (by simpa [State.countPort] using h)]
  simp [State.countPort]

/-- A manager row at a port that hears is the message of its command (R132, R135). -/
theorem exec_of_receives {i : Instr} (hi : managerCommand i = some (p, tag, c)) (hlen : (c.body tag).length ≤ 124)
    (hr : s.portReceives p = true) : exec i s = .next (s.receive p (commandMessage tag c)) := by
  rw [exec_of_managerCommand hi hlen, State.takeCommand, if_pos hr]

end

/-! ### What an executed command leaves alone (R139) -/

/-- No sync runs and no capture is held. -/
structure State.vacant (s : State) : Prop where
  position : s.engine.position = none
  phase    : s.capture.phase = .idle

section
variable {s t : State} {p : PortId}

theorem vacant_of_touches {bs : List Block} (h : s.vacant) (ht : s.touches bs t) (he : .engine ∉ bs) (hc : .capture ∉ bs) :
    t.vacant := ⟨by rw [ht.engine he]; exact h.position, by rw [ht.capture hc]; exact h.phase⟩

theorem vacant_leased (h : s.vacant) {x : State × Result} (hx : x.1.vacant) : (s.leased p x).1.vacant := by
  unfold State.leased
  split
  · exact hx
  · exact h

theorem vacant_breakCapture (h : s.vacant) (down : Source → Bool) : (s.breakCapture down).vacant := by
  unfold State.breakCapture
  rwa [h.phase]

theorem vacant_enterSearch (h : s.vacant) (k : Highway) (history : List Bool) : (s.enterSearch k history).vacant :=
  vacant_breakCapture (vacant_of_touches h
    ((((touches_setAlign s k _ _).trans (touches_leaveTraffic _ k)).trans (touches_resetFramer _ k)).trans
      (touches_loseLink _ k)) (by simp) (by simp)) _

theorem vacant_enterDisabled (h : s.vacant) (k : Highway) : (s.enterDisabled k).vacant := by
  have hleft : ((s.setAlign k .disabled false).leaveTraffic k).vacant :=
    vacant_of_touches h ((touches_setAlign s k _ _).trans (touches_leaveTraffic _ k)) (by simp) (by simp)
  refine vacant_breakCapture ?_ _
  split
  · exact vacant_of_touches hleft (touches_raise _ _ _) (by simp) (by simp)
  · exact hleft

theorem vacant_setInputEnable (h : s.vacant) (k : Highway) (e : Bool) : (s.setInputEnable k e).vacant := by
  unfold State.setInputEnable
  split_ifs
  · exact h
  · exact vacant_enterSearch h k []
  · exact vacant_enterDisabled h k

theorem vacant_writeStandby (h : s.vacant) (k : Highway) (first : Nat) (es : List Entry) :
    (s.writeStandby k first es).vacant := by
  have hset : ∀ x, (s.setBank s.standbyBank x).vacant := fun x =>
    vacant_of_touches h (touches_setBank s s.standbyBank x) (by simp) (by simp)
  unfold State.writeStandby
  simp only
  split
  · rename_i pos marks he
    have := (hset ((s.bank s.standbyBank).set k (writeRow (s.bank s.standbyBank)[k] first es))).position
    rw [he] at this
    cases this
  all_goals exact hset _

theorem vacant_setEngine (h : s.vacant) {e : Engine} (he : e.position = none) : (s.setEngine e).vacant :=
  ⟨by simpa using he, by simpa using h.phase⟩

theorem vacant_runWriteEntries (h : s.vacant) (k n c : Octet) (es : List Octet) :
    (runWriteEntries p k n c es s).1.vacant := by
  refine vacant_leased h ?_
  split
  · exact h
  all_goals
    split
    · exact h
    · split
      · exact h
      · split
        · exact h
        · exact vacant_writeStandby h _ _ _

theorem vacant_runClearStandby (h : s.vacant) : (runClearStandby p s).1.vacant := by
  have hc := vacant_of_touches h (touches_clearStandbyBank s) (by simp) (by simp)
  refine vacant_leased h ?_
  split
  · exact h
  · exact hc
  · exact vacant_of_touches (vacant_setEngine hc rfl) (touches_raise _ _ _) (by simp) (by simp)

theorem vacant_runCommit (h : s.vacant) (tag : Octet) (cached : Bool) : (runCommit p tag cached s).1.vacant := by
  refine vacant_leased h ?_
  split
  · exact h
  · exact h
  · exact vacant_setEngine h rfl

theorem vacant_runAbortCommit (h : s.vacant) : (runAbortCommit p s).1.vacant := by
  rcases runAbortCommit_cases s p with he | ⟨r, reply, -, he⟩
  · rw [he]
    exact h
  · rw [he]
    exact vacant_of_touches (vacant_setEngine h rfl) ((touches_answerCommit _ r reply).trans (touches_raise _ _ _))
      (by simp) (by simp)

theorem vacant_runSetInput (h : s.vacant) (k e x g : Octet) : (runSetInput p k e x g s).1.vacant := by
  refine vacant_leased h ?_
  split
  · split
    · exact h
    · split
      · exact h
      · exact vacant_setInputEnable (vacant_of_touches h (touches_setReceiver s _ _) (by simp) (by simp)) _ _
  · exact h

theorem vacant_runSetOutput (h : s.vacant) (k e i c : Octet) : (runSetOutput p k e i c s).1.vacant := by
  refine vacant_leased h ?_
  split
  · split
    · exact h
    · split
      · exact h
      · have hset : ∀ j x, (s.setOutput j x).vacant := fun j x =>
          vacant_of_touches h (touches_setOutput s j x) (by simp) (by simp)
        simp only
        split
        · exact vacant_breakCapture (hset _ _) _
        · exact hset _ _
  · exact h

theorem vacant_runReadCounters (h : s.vacant) (g n c : Octet) : (runReadCounters p g n c s).1.vacant := by
  unfold runReadCounters
  split
  · exact h
  · split
    · unfold runReadCountersHighway
      split
      · simp only
        split
        · exact vacant_of_touches h (touches_countHighway s _ _) (by simp) (by simp)
        · exact h
      · exact h
    · unfold runReadCountersPort
      split
      · simp only
        split
        · exact vacant_of_touches h (touches_countPort s _ _) (by simp) (by simp)
        · exact h
      · exact h
    · exact h

theorem vacant_runReadCapture (h : s.vacant) : (runReadCapture s).1.vacant := by
  unfold runReadCapture
  split
  · exact vacant_of_touches h (touches_useDraw s) (by simp) (by simp)
  · exact ⟨h.position, h.phase⟩

theorem vacant_runFetchEvents (h : s.vacant) (ack : Option Octet) : (runFetchEvents p ack s).1.vacant := by
  have hf := vacant_of_touches h (touches_fetch s p ack) (by simp) (by simp)
  unfold runFetchEvents
  simp only
  split
  · exact vacant_of_touches hf ((touches_restartTimer _).trans (touches_useDraw _)) (by simp) (by simp)
  · exact vacant_of_touches hf (touches_useDraw _) (by simp) (by simp)

theorem vacant_runSetAttention (h : s.vacant) (a b i t : Octet) : (runSetAttention p a b i t s).1.vacant := by
  refine vacant_leased h ?_
  split
  · exact h
  · exact vacant_of_touches h (((touches_setEvents s _).trans (touches_settleAttention _)).trans (touches_restartTimer _))
      (by simp) (by simp)

/-- No command but a RESYNC and an ARM_CAPTURE starts a sync or arms the capture unit (R33, R162). -/
theorem vacant_runCommand (h : s.vacant) {q : Queued} (hr : q.command ≠ .resync)
    (ha : ∀ a b c d e f g h i, q.command ≠ .armCapture a b c d e f g h i) : (runCommand p q s).1.vacant := by
  have hlease : ∀ l, (s.setLease l).vacant := fun l => vacant_of_touches h (touches_setLease s l) (by simp) (by simp)
  unfold runCommand
  cases hc : q.command with
  | resync => exact absurd hc hr
  | armCapture a b c d e f g h i => exact absurd hc (ha a b c d e f g h i)
  | identify | readBanks => exact h
  | claim =>
    simp only [runClaim]
    split
    · exact h
    · split
      · exact hlease _
      · split
        · exact hlease _
        · exact h
  | release =>
    simp only [runRelease]
    split
    · exact hlease _
    · exact h
  | setLease x =>
    refine vacant_leased h ?_
    split
    · exact h
    · exact hlease _
  | reset x =>
    refine vacant_leased h ?_
    split
    · exact h
    · split <;> exact h
  | writeEntries k n c es => exact vacant_runWriteEntries h k n c es
  | readEntries r k n c =>
    simp only [runReadEntries]
    split
    · split <;> exact h
    · exact h
  | clearStandby => exact vacant_runClearStandby h
  | commit => exact vacant_runCommit h q.tag q.cached
  | abortCommit => exact vacant_runAbortCommit h
  | setInput k e x g => exact vacant_runSetInput h k e x g
  | setOutput k e i c => exact vacant_runSetOutput h k e i c
  | readHighway k =>
    simp only [runReadHighway]
    split <;> exact h
  | readCounters g n c => exact vacant_runReadCounters h g n c
  | watch k n c x =>
    refine vacant_leased h ?_
    split
    · split
      · exact h
      · exact vacant_of_touches h (touches_setSup s _ _) (by simp) (by simp)
    · exact h
  | readSignaling k =>
    simp only [runReadSignaling]
    split
    · exact vacant_of_touches h (touches_useDraw s) (by simp) (by simp)
    · exact h
  | fetchEvents ack => exact vacant_runFetchEvents h ack
  | setAttention a b i t => exact vacant_runSetAttention h a b i t
  | readCapture => exact vacant_runReadCapture h
  | cancelCapture => exact vacant_leased h ⟨h.position, rfl⟩

/-- What a command does before it completes loses no place (R139). -/
theorem runCommand_length {q : Queued} (ha : s.acts p) (o : PortId) :
    (s.port o).transmit.length ≤ ((runCommand p q s).1.port o).transmit.length := by
  by_cases hc : q.command = .commit
  · have hrun : runCommand p q s = runCommit p q.tag q.cached s := by unfold runCommand; rw [hc]
    rw [hrun]
    unfold runCommit State.leased
    split
    · split <;> simp
    · exact le_rfl
  by_cases hab : q.command = .abortCommit
  · have hrun : runCommand p q s = runAbortCommit p s := by unfold runCommand; rw [hab]
    rw [hrun]
    rcases runAbortCommit_cases s p with he | ⟨r, reply, -, he⟩
    · rw [he]
    · rw [he]
      refine le_trans (le_of_eq ?_) ((spares_raise _ .commit .aborted).ports o).length
      rw [answerCommit_length, setEngine_port]
  · exact ((spares_of_acts (acts_runCommand s p ha hc hab)).ports o).length

/-- An executed command leaves its response in a place of its own, the commands of the other port, no sync and no capture
(R139, R140). -/
theorem executeCommand_leaves {q : Queued} {rest : List Queued} (hq : (s.port p).commands = q :: rest) :
    (∀ o, (s.port o).transmit.length ≤ ((s.executeCommand p q).port o).transmit.length) ∧
      (∀ o, o ≠ p → ((s.executeCommand p q).port o).commands = (s.port o).commands) ∧
      (s.vacant → q.command ≠ .resync → (∀ a b c d e f g h i, q.command ≠ .armCapture a b c d e f g h i) →
        (s.executeCommand p q).vacant) := by
  have hrenew : s.spares (s.renewLease p) := spares_of_acts (acts_renewLease s p)
  have hacts : (s.renewLease p).acts p := acts_of_commands (by simp [hq])
  have hcmd : ∀ o, ((runCommand p q (s.renewLease p)).1.port o).commands = (s.port o).commands := fun o => by
    rw [runCommand_commands, (hrenew.ports o).commands]
  have hlen := fun o => (hrenew.ports o).length.trans (runCommand_length (q := q) hacts o)
  have hdone := complete_eq ((hcmd p).trans hq) (runCommand p q (s.renewLease p)).2
  rw [State.executeCommand, hdone]
  refine ⟨fun o => (hlen o).trans (le_of_eq ?_), fun o ho => by simpa [ho.symm] using hcmd o, fun h hr ha => ?_⟩
  · by_cases ho : p = o
    · subst ho
      simp [completed_length]
    · simp [ho]
  · exact vacant_of_touches (vacant_runCommand (vacant_of_touches h (touches_renewLease s p) (by simp) (by simp)) hr ha)
      (touches_setPort _ p _) (by simp) (by simp)

end

end Sys2Proof.Machine
end

section
/-! SUPPORT. An output frame start at which one port alone can do anything: the start without a command, and then the
command's own start (R139, R143). -/

namespace Sys2Proof.Machine

/-! ### The timing of the frame that begins (R75) -/

/-- The output timing has come to that of state `f`, but for its stamp. -/
def catchUp (f : State) : Veil where
  timing t := { f.timing with stamp := t.stamp }
  sup _ x := x
  stamp _ := rfl
  slots _ _ := rfl
  last _ _ := rfl
  watch _ _ _ _ _ := rfl

section
variable {s t f x a b c : State} {p o : PortId} {r : StartRun} {done started : Bool}

theorem catchUp_on (f s : State) : (catchUp f).on s = s.setTiming { f.timing with stamp := s.timing.stamp } := by
  have hsups : (Vector.ofFn fun j : Highway => (catchUp f).sup j (s.sup j)) = s.sups := by
    ext j hj
    simp [catchUp, State.sup]
  rw [Veil.on, hsups]
  rfl

theorem catchUp_same (h : s.timing = f.timing) : (catchUp f).on s = s := by
  rw [catchUp_on, h, show ({ f.timing with stamp := f.timing.stamp } : Timing) = f.timing from rfl, ← h]
  rfl

theorem catchUp_setTiming (h : s.timing.stamp = f.timing.stamp) : s.setTiming f.timing = (catchUp f).on s := by
  rw [catchUp_on, h]

theorem catchUp_twice (f s : State) : (catchUp f).on ((catchUp f).on s) = (catchUp f).on s := by
  simp [catchUp_on, State.setTiming]

theorem suits_catchUp (f s : State) : (catchUp f).suits s := fun _ => .inl fun _ => rfl

theorem veil_given (v : Veil) (s f : State) (p : PortId) : (v.on s).given f p = v.on (s.given f p) := by
  simp [State.given, State.placeOctets, veil_ite]

/-! ### The way of such a start -/

/-- A state that such a start passes: no sync and no capture, no command of the other port, and the stamp of state `f`. -/
structure State.quietBut (f : State) (p : PortId) (x : State) : Prop where
  vacant : x.vacant
  other  : (x.port (otherPort p)).commands = []
  stamp  : x.timing.stamp = f.timing.stamp

/-- Port `p` with the places that are left when it has given its octets to the frame built from state `f`. -/
def State.drained (f x : State) (p : PortId) : Port :=
  { x.port p with transmit := (f.octetsFrom p (x.port p).transmit).2.1 }

/-- Where the start leads: from state `a` before the octets of port `p` to state `c` in the end, by state `b` where a
command starts. The other port gives nothing, and no reset is brought about. -/
structure State.leads (f : State) (p : PortId) (a b c : State) : Prop where
  silent : f.portSends (otherPort p) = false
  first  : f.quietBut p a
  middle : f.quietBut p b
  last   : f.quietBut p c
  freed  : (f.octetsFrom p (a.port p).transmit).2.2 = none
  starts : (f.drained a p).canStart = true → (catchUp f).on ((a.given f p).reservePlace p) = b ∧
    ∃ q rest, (b.port p).commands = q :: rest ∧ (catchUp f).on (b.executeCommand p q) = c ∧ (c.port p).hasPlace = false
  rests  : (f.drained a p).canStart = false → (catchUp f).on (a.given f p) = c

/-- Where the start stands: before the octets, at a reserved place, or past them both. -/
def StartRun.standsAt (f : State) (p : PortId) (a b c : State) (r : StartRun) : Prop :=
  p ∉ r.taken ∧ r.reserved = [] ∧ (catchUp f).on r.state = a ∨
    p ∈ r.taken ∧ ((f.drained a p).canStart = true ∧ r.reserved = [p]) ∧ (catchUp f).on r.state = b ∨
    p ∈ r.taken ∧ r.reserved = [] ∧ (catchUp f).on r.state = c

/-- The start on its way. `done` says that the timing has been taken, `started` that the port has started what
it starts. -/
structure StartRun.lone (f : State) (p : PortId) (a b c : State) (done started : Bool) (r : StartRun) : Prop where
  frame    : r.frame = f
  swap     : r.swap = none
  boundary : r.boundary = false
  slips    : r.slips = []
  tick     : r.tick = false
  warm     : r.cold = false
  due      : ∀ o, r.due o = none
  timed    : done = true → r.state.timing = f.timing
  settled  : started = true → p ∈ r.taken ∧ p ∉ r.reserved
  stands   : r.standsAt f p a b c

theorem quietBut_of_catchUp (h : f.quietBut p ((catchUp f).on x)) : f.quietBut p x :=
  ⟨⟨by simpa using h.vacant.position, by simpa using h.vacant.phase⟩, by simpa using h.other, by simpa using h.stamp⟩

theorem quietBut_of_lone (hl : f.leads p a b c) (h : r.lone f p a b c done started) : f.quietBut p r.state := by
  refine quietBut_of_catchUp ?_
  rcases h.stands with ⟨-, -, he⟩ | ⟨-, -, he⟩ | ⟨-, -, he⟩
  · exact he ▸ hl.first
  · exact he ▸ hl.middle
  · exact he ▸ hl.last

/-- What keeps the state but for its timing keeps what holds of the start. -/
theorem lone_of_state (h : r.lone f p a b c done started) {t : State} (hv : (catchUp f).on t = (catchUp f).on r.state)
    {d : Bool} (ht : d = true → t.timing = f.timing) (begun : Bool) (handed : List Highway) :
    StartRun.lone f p a b c d started { r with state := t, begun := begun, handed := handed } :=
  { h with
    due := fun o => by
      have := h.due o
      cases o <;> exact this
    timed := ht
    stands := by
      have hs := h.stands
      unfold StartRun.standsAt at hs ⊢
      rwa [hv] }

theorem takeTiming_lone (hl : f.leads p a b c) (h : r.lone f p a b c done started) : r.takeTiming.lone f p a b c true started := by
  have ht : r.state.setTiming r.frame.timing = (catchUp f).on r.state := by
    rw [h.frame]
    exact catchUp_setTiming (quietBut_of_lone hl h).stamp
  exact lone_of_state h (by rw [ht, catchUp_twice]) (fun _ => by rw [h.frame]; rfl) _ _

theorem takeSwap_lone (h : r.lone f p a b c done started) : r.takeSwap.lone f p a b c done started := by
  rw [takeSwap_of_none h.swap]
  exact lone_of_state h rfl h.timed _ _

theorem syncStep_of_vacant (h : s.vacant) : s.syncStep = s := by
  unfold State.syncStep
  have hp := h.position
  split
  · rename_i pos marks he
    rw [he] at hp
    cases hp
  · rfl
  · rfl

theorem takeCopy_lone (hl : f.leads p a b c) (h : r.lone f p a b c done started) : r.takeCopy.lone f p a b c done started := by
  unfold StartRun.takeCopy
  split
  · exact h
  · rw [syncStep_of_vacant (quietBut_of_lone hl h).vacant]
    exact lone_of_state h rfl h.timed _ _

theorem handOctet_lone (hl : f.leads p a b c) (h : r.lone f p a b c done started) (k : Highway) :
    (r.handOctet k).lone f p a b c done started := by
  have hp := (quietBut_of_lone hl h).vacant.phase
  unfold StartRun.handOctet
  split
  · exact h
  · rw [hp]
    exact lone_of_state h rfl h.timed _ _

theorem eq_or_other (p o : PortId) : o = p ∨ o = otherPort p := by cases p <;> cases o <;> simp [otherPort]

theorem otherPort_ne (p : PortId) : otherPort p ≠ p := by cases p <;> simp [otherPort]

/-- A port that gives its octets, with what it starts (R141, R143). -/
theorem takeOctets_eq (ho : o ∉ r.taken) : r.takeOctets o =
    { r with
      state := if (r.frame.drained r.state o).canStart then (r.state.given r.frame o).reservePlace o
        else r.state.given r.frame o
      taken := o :: r.taken
      reserved := if (r.frame.drained r.state o).canStart then o :: r.reserved else r.reserved
      resetA := if o = .a then (r.frame.octetsFrom o (r.state.port o).transmit).2.2 else r.resetA
      resetB := if o = .b then (r.frame.octetsFrom o (r.state.port o).transmit).2.2 else r.resetB } := by
  rw [StartRun.takeOctets, if_neg ho]
  rfl

/-- A port that does not send and has no command takes its part without effect. -/
theorem takeOctets_of_silent (hs : r.frame.portSends o = false) (hc : (r.state.port o).commands = []) (ho : o ∉ r.taken)
    (hd : r.due o = none) : r.takeOctets o = { r with taken := o :: r.taken } := by
  have hfrom : r.frame.octetsFrom o (r.state.port o).transmit = ([], (r.state.port o).transmit, none) := by
    rw [State.octetsFrom, if_neg (by simp [hs])]
  have hgiven : r.state.given r.frame o = r.state := by
    rw [State.given, hfrom, if_neg (by simp [hs])]
    exact setPort_same _ _
  rw [takeOctets_of_still ho (by simp [Port.still, hc]), hgiven, hfrom]
  cases o
  · rw [show r.resetA = none from hd]; rfl
  · rw [show r.resetB = none from hd]; rfl

theorem touches_reservePlace (s : State) (p : PortId) : s.touches [.portA, .portB] (s.reservePlace p) := touches_setPort s p _

theorem takeOctets_lone (hl : f.leads p a b c) (h : r.lone f p a b c done started) (o : PortId) :
    (r.takeOctets o).lone f p a b c done started := by
  by_cases ho : o ∈ r.taken
  · rwa [takeOctets_of_taken ho]
  rcases eq_or_other p o with rfl | rfl
  · obtain ⟨-, hres, he⟩ := h.stands.resolve_right fun hx => ho (hx.elim (·.1) (·.1))
    have hport : r.state.port o = a.port o := by rw [← he, veil_port]
    have hgiven : (catchUp f).on (r.state.given f o) = (catchUp f).on (a.given f o) := by
      rw [← veil_given, he, ← veil_given, ← he, catchUp_twice]
    have hdrained : f.drained r.state o = f.drained a o := by rw [State.drained, State.drained, hport]
    have hfreed : (f.octetsFrom o (r.state.port o).transmit).2.2 = none := hport ▸ hl.freed
    have htime : (r.state.given f o).timing = r.state.timing := (touches_given _ f o).timing (by simp)
    rw [takeOctets_eq ho, h.frame, hdrained, hfreed, hres]
    refine { h with
      frame := rfl, due := fun q => ?_, timed := fun hd => ?_, settled := fun hd => absurd (h.settled hd).1 ho
      stands := ?_ }
    · have hq := h.due q
      cases q
      · exact (ite_eq_left_iff.mpr fun _ => hq)
      · exact (ite_eq_left_iff.mpr fun _ => hq)
    · simp only
      split
      · rw [(touches_reservePlace _ o).timing (by simp), htime, h.timed hd]
      · rw [htime, h.timed hd]
    · by_cases hcan : (f.drained a o).canStart = true
      · obtain ⟨hb, -⟩ := hl.starts hcan
        refine .inr (.inl ⟨List.mem_cons_self, ⟨hcan, if_pos hcan⟩, ?_⟩)
        simp only [if_pos hcan]
        rw [← hb, ← veil_reservePlace, ← veil_reservePlace, hgiven]
      · refine .inr (.inr ⟨List.mem_cons_self, if_neg hcan, ?_⟩)
        simp only [if_neg hcan]
        rw [hgiven]
        exact hl.rests (by simpa using hcan)
  · have hq := quietBut_of_lone hl h
    rw [takeOctets_of_silent (by rw [h.frame]; exact hl.silent) hq.other ho (h.due _)]
    refine { h with
      frame := h.frame, due := fun q => ?_, settled := fun hd => ⟨List.mem_cons_of_mem _ (h.settled hd).1, (h.settled hd).2⟩
      stands := ?_ }
    · have := h.due q
      cases q <;> exact this
    · have hmem : p ∈ otherPort p :: r.taken ↔ p ∈ r.taken := by simp [(otherPort_ne p).symm]
      have hs := h.stands
      unfold StartRun.standsAt at hs ⊢
      rwa [hmem]

/-! ### The command that starts -/

/-- What comes before the command keeps what holds of the start, and a READ_HIGHWAY finds the timing of the frame that
begins (R87). -/
theorem before_lone (hl : f.leads p a b c) (h : r.lone f p a b c done started) (q : Queued) :
    (r.before q.command).lone f p a b c done started ∧
      ((r.before q.command).state.timing = f.timing ∨ ∀ k, q.command ≠ .readHighway k) := by
  unfold StartRun.before
  split
  · rename_i hc
    refine ⟨?_, .inr fun k => by rw [hc]; exact nofun⟩
    split
    · exact takeSwap_lone h
    · exact h
  · rename_i hc
    refine ⟨?_, .inr fun k => by rw [hc]; exact nofun⟩
    split
    · exact handOctet_lone hl h _
    · exact h
  · have ht := takeTiming_lone hl h
    exact ⟨{ ht with frame := ht.frame, timed := fun _ => ht.timed rfl }, .inl (ht.timed rfl)⟩
  all_goals
    rename_i hc
    exact ⟨h, .inr fun k => by rw [hc]; exact nofun⟩

theorem checkSwap_of_inside (h : r.boundary = false) : r.checkSwap = r := by
  rw [StartRun.checkSwap, if_neg (by simp [h])]

theorem executeCommand_timing {q : Queued} (hq : (s.port p).commands ≠ []) :
    (s.executeCommand p q).timing = s.timing := (touches_of_works (works_executeCommand q hq)).timing (by simp)

theorem lone_started (h : r.lone f p a b c done started) (ht : p ∈ r.taken) (hr : p ∉ r.reserved) (x : Bool) :
    r.lone f p a b c done x := { h with settled := fun _ => ⟨ht, hr⟩ }

theorem execute_lone (hl : f.leads p a b c) (h : r.lone f p a b c done started) (ho : o ∈ r.reserved) (x : Bool) :
    (r.execute o).lone f p a b c done x := by
  obtain ⟨ht, ⟨hcan, hres⟩, hb⟩ : p ∈ r.taken ∧ ((f.drained a p).canStart = true ∧ r.reserved = [p]) ∧
      (catchUp f).on r.state = b := by
    rcases h.stands with ⟨-, hres, -⟩ | hb | ⟨-, hres, -⟩
    · simp [hres] at ho
    · exact hb
    · simp [hres] at ho
  obtain rfl : o = p := by simpa [hres] using ho
  obtain ⟨-, q, rest, hq, hc, hfull⟩ := hl.starts hcan
  have hqr : (r.state.port o).commands = q :: rest := by rw [← hq, ← hb, veil_port]
  obtain ⟨hu, htime⟩ := before_lone hl h q
  have hku := before_keepsQueues r q.command
  have hres' : (r.before q.command).reserved = [o] := by
    have hmem := before_reserved r q.command ho
    rcases hu.stands with ⟨-, hn, -⟩ | ⟨-, ⟨-, hn⟩, -⟩ | ⟨-, hn, -⟩
    · simp [hn] at hmem
    · exact hn
    · simp [hn] at hmem
  have hub : (catchUp f).on (r.before q.command).state = b := by
    rcases hu.stands with ⟨-, hn, -⟩ | ⟨-, -, he⟩ | ⟨-, hn, -⟩
    · simp [hn] at hres'
    · exact he
    · simp [hn] at hres'
  have huq : ((r.before q.command).state.port o).commands = q :: rest := by rw [hku.commands, hqr]
  have hrun : (catchUp f).on ((r.before q.command).state.executeCommand o q) = c := by
    rw [← hc, ← hub, veil_executeCommand (suits_catchUp f _) q (htime.imp_left fun he => by rw [he]; rfl), catchUp_twice]
  have hport : (((r.before q.command).state.executeCommand o q).port o).hasPlace = false := by
    rw [← hfull, ← hrun, veil_port]
  have hquiet : ((r.before q.command).state.executeCommand o q).runPort o =
      (r.before q.command).state.executeCommand o q := runQueue_of_full _ hport
  unfold StartRun.execute
  rw [if_pos ho, hqr]
  simp only
  rw [hquiet, checkSwap_of_inside (by exact hu.boundary)]
  refine { hu with
    frame := hu.frame, due := fun q => ?_, timed := fun hd => ?_, settled := fun _ => ⟨hku.taken o ht, by simp⟩
    stands := .inr (.inr ⟨hku.taken o ht, ?_, hrun⟩) }
  · have := hu.due q
    cases q <;> exact this
  · exact (executeCommand_timing (List.ne_nil_of_mem (huq ▸ List.mem_cons_self))).trans (hu.timed hd)
  · simp [hres']

/-- A place that is reserved is that of port `p`. -/
theorem reserved_of_lone (h : r.lone f p a b c done started) (ho : o ∈ r.reserved) : o = p := by
  rcases h.stands with ⟨-, hn, -⟩ | ⟨-, ⟨-, hn⟩, -⟩ | ⟨-, hn, -⟩
  · simp [hn] at ho
  · simpa [hn] using ho
  · simp [hn] at ho

theorem startCommand_lone (hl : f.leads p a b c) (h : r.lone f p a b c done started) (o : PortId) :
    (r.startCommand o).lone f p a b c done (started || decide (o = p)) := by
  have hq := takeOctets_lone hl h o
  have ht := mem_taken_takeOctets r o
  unfold StartRun.startCommand
  simp only
  by_cases ho : o ∈ (r.takeOctets o).reserved
  · have hother : otherPort o ∉ (r.takeOctets o).reserved := fun hr =>
      otherPort_ne o ((reserved_of_lone hq hr).trans (reserved_of_lone hq ho).symm)
    have hrest : (r.takeOctets o).execute (otherPort o) = r.takeOctets o := if_neg hother
    rw [if_pos ho, hrest]
    exact execute_lone hl hq ho _
  · rw [if_neg ho]
    by_cases hp : o = p
    · subst hp
      exact lone_started hq ht ho _
    · simpa [hp] using hq

/-- No reset is due, and none takes effect (R146). -/
theorem takeReset_of_not_due (h : ∀ o, r.due o = none) (bFirst : Bool) : r.takeReset bFirst = r := by
  have hd : r.resetDue bFirst = none := by
    unfold StartRun.resetDue
    rw [show r.resetA = none from h .a, show r.resetB = none from h .b]
    cases bFirst <;> rfl
  unfold StartRun.takeReset
  rw [hd]
  split <;> rfl

/-- Every part keeps what holds of the start. -/
theorem task_lone (hl : f.leads p a b c) (h : r.lone f p a b c done started) (order : StartOrder) (x : StartTask) :
    (r.task order x).lone f p a b c (done || decide (x = .timing)) (started || decide (x = .start p)) := by
  have keep : ∀ {q : StartRun}, q.lone f p a b c done started → x ≠ .timing → x ≠ .start p →
      q.lone f p a b c (done || decide (x = .timing)) (started || decide (x = .start p)) :=
    fun hq ht hs => by simpa [ht, hs] using hq
  unfold StartRun.task
  rw [if_neg (by simp [h.warm])]
  cases x with
  | timing => simpa using takeTiming_lone hl h
  | slip k =>
    exact keep (q := r.takeSlip k) (by rw [StartRun.takeSlip, if_neg (by simp [h.slips])]; exact h) (by simp) (by simp)
  | swap => exact keep (takeSwap_lone h) (by simp) (by simp)
  | copy => exact keep (takeCopy_lone hl h) (by simp) (by simp)
  | take o => exact keep (takeOctets_lone hl h o) (by simp) (by simp)
  | start o => simpa using startCommand_lone hl h o
  | capture => exact keep (foldl_keeps _ _ _ _ h fun _ k _ hr => handOctet_lone hl hr k) (by simp) (by simp)
  | leaseTick => exact keep (by simp only [h.tick]; exact h) (by simp) (by simp)
  | listTick => exact keep (by simp only [h.tick]; exact h) (by simp) (by simp)
  | reset => exact keep (by simp only [takeReset_of_not_due h.due]; exact h) (by simp) (by simp)

theorem foldl_lone (hl : f.leads p a b c) (order : StartOrder) (m : List StartTask) (h : r.lone f p a b c done started) :
    (m.foldl (fun r x => r.task order x) r).lone f p a b c (done || decide (.timing ∈ m))
      (started || decide (.start p ∈ m)) := by
  induction m generalizing r done started with
  | nil => simpa using h
  | cons x m ih =>
    have := ih (task_lone hl h order x)
    simpa [Bool.or_assoc, eq_comm] using this

/-- The whole start ends where it leads. -/
theorem outputStart_of_leads (hl : f.leads p a b c) (h : s.beginStart.lone f p a b c false false) (order : StartOrder) :
    s.outputStart order = c := by
  have hr := task_lone hl (foldl_lone hl order (startParts order) h) order .reset
  rw [decide_eq_true (mem_startParts order .timing), decide_eq_true (mem_startParts order (.start p))] at hr
  obtain ⟨ht, hn⟩ := hr.settled rfl
  unfold State.outputStart
  rw [← catchUp_same (hr.timed rfl)]
  rcases hr.stands with ⟨hx, -⟩ | ⟨-, ⟨-, hx⟩, -⟩ | ⟨-, -, he⟩
  · exact absurd ht hx
  · exact absurd (by simp [hx]) hn
  · exact he

end

end Sys2Proof.Machine
end

section
/-! SUPPORT. The start of a port that holds a full transmit queue, where nothing else can come about: the same start
without the command, and then the command's own start (R139, R143). -/

namespace Sys2Proof.Machine

/-- Port `p` of state `s` alone holds anything, the head message of its full transmit queue leaves with the frame that
begins, and nothing else comes about at that frame. -/
structure State.sole (s : State) (p : PortId) (places : List Place) : Prop where
  sends    : s.portSends p = true
  silent   : s.portEnabled (otherPort p) = false
  other    : s.port (otherPort p) = initialPort
  inside   : s.boundaryNext = false
  repeats  : ∀ k, s.repeats k = false
  vacant   : s.vacant
  five     : places.length = 5
  head     : ∃ m, (s.port p).transmit = .message m none :: places ∧ m.length = strapWidth s.straps

/-- The frames are built and the reading frames selected (R64, R78). -/
def State.framesBuilt (s : State) : State := s.selectAll.buildFrames s.frameState

/-- They are built, and port `p` has given its octets, with the timing of the frame that begins (R75, R81). -/
def State.framesGiven (s : State) (p : PortId) : State :=
  (catchUp s.frameState).on (s.framesBuilt.given s.frameState p)

/-- The state with no command waiting at port `p`. -/
def State.uncommanded (s : State) (p : PortId) : State := s.setPort p { s.port p with commands := [] }

section
variable {s x : State} {p : PortId} {places : List Place} {q : Queued} {rest : List Queued}

/-- A head message as long as the frame takes leaves whole, and brings about no reset (R141). -/
theorem takeOctets_of_head {m : List Octet} (hm : m.length = strapWidth s.straps) :
    (takeOctets (strapWidth s.straps) (.message m none :: places)).2 = (places, none) := by
  have h0 := strapWidth_pos s.straps
  have hplaces := (takeOctets_of_shorter (by omega) hm.le none places).2
  rw [hm, Nat.sub_self] at hplaces
  exact Prod.ext hplaces (bringsReset_message hm.ge places)

theorem octetsFrom_of_sole (h : s.sole p places) : (s.frameState.octetsFrom p (s.port p).transmit).2 = (places, none) := by
  obtain ⟨m, ht, hm⟩ := h.head
  rw [octetsFrom_of_sends h.sends, ht]
  exact takeOctets_of_head hm

theorem touches_framesBuilt (s : State) : s.touches [.queues, .outputs] s.framesBuilt :=
  (touches_selectAll s).trans (touches_setOutputs _ _)

theorem framesBuilt_port (s : State) (o : PortId) : s.framesBuilt.port o = s.port o :=
  (touches_framesBuilt s).port o (by simp) (by simp)

/-- Inside a multiframe the stamp stands (R75). -/
theorem frameState_stamp (h : s.boundaryNext = false) : s.frameState.timing.stamp = s.timing.stamp := by
  obtain ⟨hp, hf⟩ : s.timing.startPending = false ∧ s.timing.frame ≠ 15 := by simpa [State.boundaryNext] using h
  rw [frameState_timing, Timing.advance, if_neg (by simp [hp]), if_neg hf]

theorem quietBut_framesBuilt (h : s.sole p places) : s.frameState.quietBut p s.framesBuilt where
  vacant := vacant_of_touches h.vacant (touches_framesBuilt s) (by simp) (by simp)
  other := by rw [framesBuilt_port, h.other]; rfl
  stamp := by rw [(touches_framesBuilt s).timing (by simp), frameState_stamp h.inside]

theorem quietBut_of_touches {f t : State} (h : f.quietBut p x) {bs : List Block} (ht : x.touches bs t) (he : .engine ∉ bs)
    (hc : .capture ∉ bs) (hi : .timing ∉ bs) (ho : (t.port (otherPort p)).commands = (x.port (otherPort p)).commands) :
    f.quietBut p t :=
  ⟨vacant_of_touches h.vacant ht he hc, ho.trans h.other, by rw [ht.timing hi]; exact h.stamp⟩

theorem quietBut_given {f : State} (h : f.quietBut p x) : f.quietBut p (x.given f p) :=
  quietBut_of_touches h (touches_given x f p) (by simp) (by simp) (by simp) (given_commands x f p _)

theorem quietBut_catchUp {f : State} (h : f.quietBut p x) : f.quietBut p ((catchUp f).on x) :=
  ⟨⟨by simpa using h.vacant.position, by simpa using h.vacant.phase⟩, by simpa using h.other, by simpa using h.stamp⟩

theorem quietBut_framesGiven (h : s.sole p places) : s.frameState.quietBut p (s.framesGiven p) :=
  quietBut_catchUp (quietBut_given (quietBut_framesBuilt h))

theorem framesGiven_timing (h : s.sole p places) : (s.framesGiven p).timing = s.frameState.timing := by
  have hs := (quietBut_given (p := p) (quietBut_framesBuilt h)).stamp
  rw [State.framesGiven, catchUp_on, hs]
  rfl

/-- The freed place is the last, and the commands still wait. -/
theorem framesGiven_port (h : s.sole p places) : (s.framesGiven p).port p = { s.port p with transmit := places } := by
  rw [State.framesGiven, veil_port, given_port, framesBuilt_port, octetsFrom_of_sole h]

/-! ### The way of the start -/

theorem beginStart_lone (h : s.sole p places) (b c : State) :
    s.beginStart.lone s.frameState p ((catchUp s.frameState).on s.framesBuilt) b c false false where
  frame := rfl
  swap := by simp [State.beginStart, State.dueSwap, h.inside]
  boundary := h.inside
  slips := by simp [State.beginStart, h.repeats]
  tick := by
    obtain ⟨-, hf⟩ : s.timing.startPending = false ∧ s.timing.frame ≠ 15 := by simpa [State.boundaryNext] using h.inside
    have h15 : (s.timing.frame == 15) = false := beq_eq_false_iff_ne.mpr hf
    simp only [State.beginStart, State.tickNext, h15, Bool.and_false, Bool.false_and]
  warm := rfl
  due o := by cases o <;> rfl
  timed h := by cases h
  settled h := by cases h
  stands := .inl ⟨by simp [State.beginStart], rfl, rfl⟩

theorem given_catchUp (s : State) (p : PortId) :
    ((catchUp s.frameState).on s.framesBuilt).given s.frameState p = s.framesGiven p := veil_given _ _ _ _

theorem drained_commands (s : State) (p : PortId) :
    (s.frameState.drained ((catchUp s.frameState).on s.framesBuilt) p).commands = (s.port p).commands := by
  simp [State.drained, framesBuilt_port]

theorem freed_of_sole (h : s.sole p places) :
    (s.frameState.octetsFrom p (((catchUp s.frameState).on s.framesBuilt).port p).transmit).2 = (places, none) := by
  rw [veil_port, framesBuilt_port, octetsFrom_of_sole h]

theorem frameState_silent (h : s.sole p places) : s.frameState.portSends (otherPort p) = false := by
  rw [frameState_portSends, State.portSends, h.silent]
  rfl

/-- Without a command the start gives the octets and no more. -/
theorem outputStart_of_uncommanded (h : s.sole p places) (hc : (s.port p).commands = []) (order : StartOrder) :
    s.outputStart order = s.framesGiven p := by
  refine outputStart_of_leads (p := p) (b := s.framesGiven p) ?_ (beginStart_lone h _ _) order
  have hno : (s.frameState.drained ((catchUp s.frameState).on s.framesBuilt) p).canStart = false := by
    rw [Port.canStart, drained_commands, hc]
  exact {
    silent := frameState_silent h
    first := quietBut_catchUp (quietBut_framesBuilt h)
    middle := quietBut_framesGiven h
    last := quietBut_framesGiven h
    freed := by rw [freed_of_sole h]
    starts := fun hcan => by rw [hno] at hcan; cases hcan
    rests := fun _ => by rw [given_catchUp, catchUp_same (framesGiven_timing h)] }

/-- With one it starts that command in the freed place, and no other (R139, R143). -/
theorem outputStart_of_commanded (h : s.sole p places) (hc : (s.port p).commands = q :: rest) (hq : q.started = false)
    (hr : q.command ≠ .resync) (ha : ∀ a b c d e f g h i, q.command ≠ .armCapture a b c d e f g h i)
    (order : StartOrder) : s.outputStart order = (s.framesGiven p).startCommand p q := by
  have hport := framesGiven_port h
  have hres : ((s.framesGiven p).reservePlace p).port p =
      { s.port p with transmit := places ++ [.reserved .command] } := by
    rw [State.reservePlace, port_setPort, if_pos rfl, hport]
  have htouch := touches_reservePlace (s.framesGiven p) p
  have hne := otherPort_ne p
  have hb : s.frameState.quietBut p ((s.framesGiven p).reservePlace p) :=
    quietBut_of_touches (quietBut_framesGiven h) htouch (by simp) (by simp) (by simp) (by simp [State.reservePlace, hne.symm])
  have hbt : ((s.framesGiven p).reservePlace p).timing = s.frameState.timing := by
    rw [htouch.timing (by simp), framesGiven_timing h]
  have hbq : (((s.framesGiven p).reservePlace p).port p).commands = q :: rest := by rw [hres, hc]
  obtain ⟨hlen, hothers, hvacant⟩ := executeCommand_leaves hbq
  have hct : (((s.framesGiven p).reservePlace p).executeCommand p q).timing = s.frameState.timing := by
    rw [executeCommand_timing (by simp [hbq]), hbt]
  have hcan : (s.frameState.drained ((catchUp s.frameState).on s.framesBuilt) p).canStart = true := by
    have hroom : (s.frameState.drained ((catchUp s.frameState).on s.framesBuilt) p).hasPlace = true := by
      rw [Port.hasPlace_iff, State.drained, freed_of_sole h]
      simp [h.five]
    rw [Port.canStart, drained_commands, hc]
    simp [hroom, hq]
  refine outputStart_of_leads (p := p) (b := (s.framesGiven p).reservePlace p) ?_ (beginStart_lone h _ _) order
  exact {
    silent := frameState_silent h
    first := quietBut_catchUp (quietBut_framesBuilt h)
    middle := hb
    last := ⟨hvacant hb.vacant hr ha, (hothers _ hne).trans hb.other, congrArg Timing.stamp hct⟩
    freed := by rw [freed_of_sole h]
    starts := fun _ => by
      rw [given_catchUp, catchUp_same hbt]
      refine ⟨rfl, q, rest, hbq, catchUp_same hct, ?_⟩
      have hfull := hlen p
      rw [hres] at hfull
      simp only [List.length_append, List.length_singleton, h.five] at hfull
      exact decide_eq_false (Nat.not_lt.mpr hfull)
    rests := fun hno => by rw [hcan] at hno; cases hno }

/-! ### The same start without the command -/

theorem uncommanded_frameState (s : State) (p : PortId) : (s.uncommanded p).frameState = s.frameState.uncommanded p := by
  rw [frameState_eq, frameState_eq]
  cases p <;> rfl

theorem uncommanded_framesBuilt (s : State) (p : PortId) : (s.uncommanded p).framesBuilt = s.framesBuilt.uncommanded p := by
  rw [State.framesBuilt, uncommanded_frameState]
  cases p <;> rfl

theorem uncommanded_given (x f : State) (p : PortId) :
    (x.uncommanded p).given (f.uncommanded p) p = (x.given f p).uncommanded p := by
  have hsends : (f.uncommanded p).portSends p = f.portSends p := by cases p <;> rfl
  unfold State.given
  rw [hsends]
  simp only
  split <;> cases p <;> rfl

theorem uncommanded_framesGiven (s : State) (p : PortId) :
    (s.uncommanded p).framesGiven p = (s.framesGiven p).uncommanded p := by
  rw [State.framesGiven, uncommanded_frameState, uncommanded_framesBuilt, uncommanded_given]
  cases p <;> rfl

theorem sole_uncommanded (h : s.sole p places) : (s.uncommanded p).sole p places where
  sends := by cases p <;> exact h.sends
  silent := by cases p <;> exact h.silent
  other := by
    have hne := (otherPort_ne p).symm
    simpa [State.uncommanded, hne] using h.other
  inside := by cases p <;> exact h.inside
  repeats := fun k => by cases p <;> exact h.repeats k
  vacant := vacant_of_touches h.vacant (touches_setPort s p _) (by simp) (by simp)
  five := h.five
  head := by
    obtain ⟨m, hm⟩ := h.head
    exact ⟨m, by simpa [State.uncommanded] using hm⟩

/-- The start of a lone command is the start without it, and then the command's own start (R139, R143). -/
theorem outputStart_sole (h : s.sole p places) (hc : (s.port p).commands = q :: rest) (hq : q.started = false)
    (hr : q.command ≠ .resync) (ha : ∀ a b c d e f g h i, q.command ≠ .armCapture a b c d e f g h i)
    (order : StartOrder) : ∃ t, (s.uncommanded p).outputStart order = t ∧
      s.outputStart order = (t.setPort p { t.port p with commands := q :: rest }).startCommand p q := by
  have hback : ((s.framesGiven p).uncommanded p).setPort p
      { ((s.framesGiven p).uncommanded p).port p with commands := q :: rest } = s.framesGiven p := by
    have hsame : ({ (s.framesGiven p).port p with commands := q :: rest } : Port) = (s.framesGiven p).port p := by
      rw [framesGiven_port h, ← hc]
    simp only [State.uncommanded, setPort_setPort, port_setPort, if_true]
    rw [hsame, setPort_same]
  refine ⟨_, outputStart_of_uncommanded (sole_uncommanded h) (by simp [State.uncommanded]) order, ?_⟩
  rw [uncommanded_framesGiven, hback, outputStart_of_commanded h hc hq hr ha]

end

end Sys2Proof.Machine
end

section
/-! SUPPORT. The start of an IDENTIFY in the freed place, whatever else comes about at the same frame start (R139, R143). -/

namespace Sys2Proof.Machine

/-! ### A port whose transmit queue is full -/

/-- Port `x` has this transmit queue, these commands and this cache. -/
structure Port.has (x : Port) (places : List Place) (commands : List Queued) (cache : List CacheEntry) : Prop where
  transmit : x.transmit = places
  commands : x.commands = commands
  cache    : x.cache = cache

/-- No NOTICE finds a place in a full transmit queue (R125). -/
theorem Port.has.goes {x y : Port} {places : List Place} {commands : List Queued} {cache : List CacheEntry}
    (h : x.has places commands cache) (h6 : 6 ≤ places.length) (hg : x.goes y) : y.has places commands cache := by
  obtain ⟨more, f, c, rfl, -, hl⟩ := hg
  have hmore : more = [] := by
    by_contra hne
    have hlen := hl hne
    have hpos := List.length_pos_iff.mpr hne
    simp only [List.length_append, h.transmit] at hlen
    omega
  subst hmore
  exact ⟨by simpa using h.transmit, h.commands, h.cache⟩

/-- What an IDENTIFY that frees the last place of port `p` stands before: its place is the freed one, no swap is due, and
the other port starts nothing and brings no reset about. -/
structure State.frees (s : State) (p : PortId) (q : Queued) (rest : List Queued) (places : List Place) : Prop where
  sends    : s.portSends p = true
  commands : (s.port p).commands = q :: rest
  command  : q.command = .identify
  waiting  : q.started = false
  head     : ∃ m, (s.port p).transmit = .message m none :: places ∧ m.length = strapWidth s.straps
  five     : places.length = 5
  unheld   : ∀ x ∈ places, x ≠ .reserved .command
  noSwap   : s.swapsNext = false
  other    : (s.port (otherPort p)).commands = []
  noReset  : s.resetNext (otherPort p) = none

/-- The response of an IDENTIFY at port `p` (R144). -/
def State.identity (s : State) (p : PortId) (q : Queued) : List Octet :=
  responseMessage q.tag 0x01 (okReply
    [0x6B, 0x08, 0x32, 0x01, portOctet p, highwayOctet s.straps.ma, flagOctet s.straps.mbe, highwayOctet s.straps.mb,
      (if s.straps.mbe = false then 1 else if s.straps.mb = s.straps.ma then 2 else 0), flagOctet s.straps.four])

/-- The cache of port `p` after the response of command `q` (R140). -/
def State.cacheAfter (s : State) (p : PortId) (q : Queued) : List CacheEntry :=
  if q.cached then completeEntry q.tag (s.identity p q) (s.port p).cache else (s.port p).cache

/-- Where the start stands: before the octets of port `p`, at the reserved place, or past the response. -/
def StartRun.identifies (s : State) (p : PortId) (q : Queued) (rest : List Queued) (places : List Place)
    (r : StartRun) : Prop :=
  p ∉ r.taken ∧ r.reserved = [] ∧ (r.state.port p).has (s.port p).transmit (q :: rest) (s.port p).cache ∨
    p ∈ r.taken ∧ r.reserved = [p] ∧
      (r.state.port p).has (places ++ [.reserved .command]) (q :: rest) (s.port p).cache ∨
    p ∈ r.taken ∧ r.reserved = [] ∧
      (r.state.port p).has (places ++ [.message (s.identity p q) none]) rest (s.cacheAfter p q)

/-- The start on its way. `started` says that the port has started what it starts. -/
structure StartRun.freeing (s : State) (p : PortId) (q : Queued) (rest : List Queued) (places : List Place)
    (started : Bool) (r : StartRun) : Prop where
  frame   : r.frame = s.frameState
  swap    : r.swap = none
  bound   : r.boundary = s.boundaryNext
  warm    : r.cold = false
  straps  : r.state.straps = s.straps
  record  : r.state.engine.record = s.engine.record
  due     : ∀ o, r.due o = none
  other   : (r.state.port (otherPort p)).commands = []
  settled : started = true → p ∈ r.taken ∧ p ∉ r.reserved
  stands  : r.identifies s p q rest places

section
variable {s t : State} {p o : PortId} {q : Queued} {rest : List Queued} {places : List Place} {r : StartRun}
  {started done : Bool}

theorem beginStart_freeing (h : s.frees p q rest places) : s.beginStart.freeing s p q rest places false where
  frame := rfl
  swap := by
    have := dueSwap_isSome s
    rw [h.noSwap] at this
    simpa [State.beginStart] using this
  bound := rfl
  warm := rfl
  straps := rfl
  record := rfl
  due o := by cases o <;> rfl
  other := by
    have : s.beginStart.state.port (otherPort p) = s.port (otherPort p) := framesBuilt_port s _
    rw [this, h.other]
  settled h := by cases h
  stands := by
    have : s.beginStart.state.port p = s.port p := framesBuilt_port s _
    exact .inl ⟨by simp [State.beginStart], rfl, by rw [this]; exact ⟨rfl, h.commands, rfl⟩⟩

/-- What leaves the ports to themselves keeps what holds of the start. -/
theorem freeing_of_spares (hf : s.frees p q rest places) (h : r.freeing s p q rest places started)
    (ht : r.state.spares t) (hst : t.straps = r.state.straps) (begun : Bool) (handed : List Highway) :
    StartRun.freeing s p q rest places started { r with state := t, begun := begun, handed := handed } where
  frame := h.frame
  swap := h.swap
  bound := h.bound
  warm := h.warm
  straps := hst.trans h.straps
  record := ht.record.trans h.record
  due o := by
    have := h.due o
    cases o <;> exact this
  other := by
    obtain ⟨more, f, c, he, -⟩ := ht.ports (otherPort p)
    rw [he]
    exact h.other
  settled := h.settled
  stands := by
    obtain ⟨m, hm, -⟩ := hf.head
    have h6 : 6 ≤ (s.port p).transmit.length := by simp [hm, hf.five]
    rcases h.stands with ⟨h1, h2, h3⟩ | ⟨h1, h2, h3⟩ | ⟨h1, h2, h3⟩
    · exact .inl ⟨h1, h2, h3.goes h6 (ht.ports p)⟩
    · exact .inr (.inl ⟨h1, h2, h3.goes (by simp [hf.five]) (ht.ports p)⟩)
    · exact .inr (.inr ⟨h1, h2, h3.goes (by simp [hf.five]) (ht.ports p)⟩)

theorem freeing_of_hears (hf : s.frees p q rest places) (h : r.freeing s p q rest places started) {bs : List Block}
    (ht : r.state.touches bs t) (he : .engine ∉ bs) (hs : .straps ∉ bs) (hp : ∀ o, (r.state.port o).hears (t.port o))
    (begun : Bool) (handed : List Highway) :
    StartRun.freeing s p q rest places started { r with state := t, begun := begun, handed := handed } :=
  freeing_of_spares hf h (spares_of_hears ht he hp) (ht.straps hs) begun handed

/-! ### The octets -/

theorem takeOctets_freeing (hf : s.frees p q rest places) (hs : r.serves s done)
    (h : r.freeing s p q rest places started) (o : PortId) : (r.takeOctets o).freeing s p q rest places started := by
  by_cases ho : o ∈ r.taken
  · rwa [takeOctets_of_taken ho]
  have hne := otherPort_ne p
  rcases eq_or_other p o with rfl | rfl
  · obtain ⟨-, hres, hport⟩ := h.stands.resolve_right fun hx => ho (hx.elim (·.1) (·.1))
    have hfrom : (s.frameState.octetsFrom o (r.state.port o).transmit).2 = (places, none) := by
      obtain ⟨m, hm, hlen⟩ := hf.head
      rw [hport.transmit, octetsFrom_of_sends hf.sends, hm]
      exact takeOctets_of_head hlen
    have hcan : (s.frameState.drained r.state o).canStart = true := by
      have hroom : (s.frameState.drained r.state o).hasPlace = true := by
        rw [Port.hasPlace_iff, State.drained, hfrom]
        simp [hf.five]
      rw [Port.canStart, show (s.frameState.drained r.state o).commands = q :: rest from hport.commands]
      simp [hroom, hf.waiting]
    have ht := (touches_given r.state s.frameState o).trans (touches_reservePlace _ o)
    rw [takeOctets_eq ho, h.frame, hcan, hfrom, hres]
    simp only [if_true]
    exact {
      frame := rfl, swap := h.swap, bound := h.bound, warm := h.warm
      straps := by rw [← h.straps]; exact ht.straps (by simp)
      record := by rw [← h.record]; exact congrArg Engine.record (ht.engine (by simp))
      due := fun x => by
        have hx := h.due x
        cases x
        · exact ite_eq_left_iff.mpr fun _ => hx
        · exact ite_eq_left_iff.mpr fun _ => hx
      other := by
        simp only [State.reservePlace, port_setPort, if_neg hne.symm]
        rw [given_commands, h.other]
      settled := fun hx => absurd (h.settled hx).1 ho
      stands := .inr (.inl ⟨List.mem_cons_self, rfl, by
        simp only [State.reservePlace, port_setPort, if_true]
        rw [given_port, hfrom]
        exact ⟨rfl, hport.commands, hport.cache⟩⟩) }
  · have hreset : (r.frame.octetsFrom (otherPort p) (r.state.port (otherPort p)).transmit).2.2 = none := by
      rw [hs.frame, ← hf.noReset]
      exact octetsFrom_reset_of_same (hs.transmit _ ho)
    have ht := touches_given r.state r.frame (otherPort p)
    rw [takeOctets_of_still ho (by simp [Port.still, h.other]), hreset]
    exact {
      frame := h.frame, swap := h.swap, bound := h.bound, warm := h.warm
      straps := by rw [← h.straps]; exact ht.straps (by simp)
      record := by rw [← h.record]; exact congrArg Engine.record (ht.engine (by simp))
      due := fun x => by
        have hx := h.due x
        cases x
        · exact ite_eq_left_iff.mpr fun _ => hx
        · exact ite_eq_left_iff.mpr fun _ => hx
      other := by
        simp only
        rw [given_commands, h.other]
      settled := fun hx => ⟨List.mem_cons_of_mem _ (h.settled hx).1, (h.settled hx).2⟩
      stands := by
        have hmem : p ∈ otherPort p :: r.taken ↔ p ∈ r.taken := by simp [hne.symm]
        have hst := h.stands
        unfold StartRun.identifies at hst ⊢
        simp only
        rwa [hmem, given_port_other _ _ hne] }

theorem handOctet_freeing (hf : s.frees p q rest places) (hs : r.serves s done)
    (h : r.freeing s p q rest places started) (k : Highway) : (r.handOctet k).freeing s p q rest places started := by
  have hskip : StartRun.freeing s p q rest places started { r with handed := k :: r.handed } :=
    freeing_of_spares hf h (.refl _) rfl r.begun _
  have hcapture : ∀ {x : StartRun} (oct : Octet), x.freeing s p q rest places started → StartRun.freeing s p q rest places started
      { x with state := x.state.captureOctet oct, handed := k :: r.handed, begun := true } := fun oct hx =>
    freeing_of_spares hf hx (spares_captureOctet _ oct) ((touches_captureOctet _ oct).straps (by simp)) true _
  unfold StartRun.handOctet
  split
  · exact h
  · split
    · split
      · simp only
        split
        · exact hcapture _ (takeOctets_freeing hf hs h _)
        · exact hcapture _ h
      · exact hskip
    · exact hskip
    · exact hskip

/-! ### The command -/

/-- The response of an IDENTIFY stands in its place, and nothing else of its port changes but that the command leaves
(R140, R144). -/
theorem executeCommand_identifies (hf : s.frees p q rest places) (hst : t.straps = s.straps)
    (ht : (t.port p).has (places ++ [.reserved .command]) (q :: rest) (s.port p).cache) :
    ((t.executeCommand p q).port p).has (places ++ [.message (s.identity p q) none]) rest (s.cacheAfter p q) ∧
      (t.executeCommand p q).engine = t.engine ∧ (t.executeCommand p q).straps = t.straps ∧
      (t.executeCommand p q).port (otherPort p) = t.port (otherPort p) := by
  have hrenew := touches_renewLease t p
  have hport : ∀ o, (t.renewLease p).port o = t.port o := fun o => hrenew.port o (by simp) (by simp)
  have hrun : runCommand p q (t.renewLease p) = runIdentify p (t.renewLease p) := by
    unfold runCommand
    rw [hf.command]
  have hq : ((t.renewLease p).port p).commands = q :: rest := by rw [hport, ht.commands]
  have hm : responseMessage q.tag q.command.code (okReply
      [0x6B, 0x08, 0x32, 0x01, portOctet p, highwayOctet (t.renewLease p).straps.ma,
        flagOctet (t.renewLease p).straps.mbe, highwayOctet (t.renewLease p).straps.mb,
        (if (t.renewLease p).straps.mbe = false then 1
          else if (t.renewLease p).straps.mb = (t.renewLease p).straps.ma then 2 else 0),
        flagOctet (t.renewLease p).straps.four]) = s.identity p q := by
    rw [hrenew.straps (by simp), hst, hf.command]
    rfl
  have hnone : places.any (Place.isReservedFor .command) = false := by
    rw [List.any_eq_false]
    intro x hx hr
    cases x with
    | message m z => cases hr
    | reserved y => exact hf.unheld _ hx (by rw [of_decide_eq_true hr])
  have hne := (otherPort_ne p).symm
  rw [State.executeCommand, hrun, runIdentify_eq, complete_eq hq, Port.completed, hm]
  refine ⟨?_, ?_, ?_, ?_⟩
  · rw [port_setPort, if_pos rfl]
    refine ⟨?_, rfl, ?_⟩
    · simp only [Port.answered, hport, ht.transmit]
      exact fillPlace_append .command _ none places [] hnone
    · simp only [Port.answered, hport, ht.cache]
      rfl
  · rw [setPort_engine, hrenew.engine (by simp)]
  · rw [setPort_straps, hrenew.straps (by simp)]
  · rw [port_setPort, if_neg hne, hport]

/-- A boundary without a swap finds none (R24, R25). -/
theorem checkSwap_of_freeing (hf : s.frees p q rest places) (h : r.freeing s p q rest places started) :
    r.checkSwap = r := by
  unfold StartRun.checkSwap
  split
  · rename_i hb
    have hbound : s.boundaryNext = true := by
      rw [← h.bound]
      exact (Bool.and_eq_true_iff.mp hb).1
    have hpending : s.engine.isPending = false := by
      have hn := hf.noSwap
      rwa [State.swapsNext, hbound, Bool.true_and] at hn
    have hnone : r.state.engine.record = none := by rw [h.record, record_of_not_pending hpending]
    rw [StartRun.setSwap, hnone, h.swap, if_pos rfl, ← h.swap]
  · rfl

theorem execute_freeing (hf : s.frees p q rest places) (h : r.freeing s p q rest places started) (hp : p ∈ r.reserved)
    (x : Bool) : (r.execute p).freeing s p q rest places x := by
  obtain ⟨ht, hres, hport⟩ : p ∈ r.taken ∧ r.reserved = [p] ∧
      (r.state.port p).has (places ++ [.reserved .command]) (q :: rest) (s.port p).cache := by
    rcases h.stands with ⟨-, hn, -⟩ | hb | ⟨-, hn, -⟩
    · simp [hn] at hp
    · exact hb
    · simp [hn] at hp
  obtain ⟨hdone, hengine, hstraps, hother⟩ := executeCommand_identifies hf h.straps hport
  have hbefore : r.before q.command = r := by rw [hf.command]; rfl
  have hfull : ((r.state.executeCommand p q).port p).hasPlace = false := by
    have hsix : ((r.state.executeCommand p q).port p).transmit.length = 6 := by
      rw [hdone.transmit]
      simp [hf.five]
    exact decide_eq_false (Nat.not_lt.mpr hsix.ge)
  have hquiet : (r.state.executeCommand p q).runPort p = r.state.executeCommand p q := runQueue_of_full _ hfull
  unfold StartRun.execute
  rw [if_pos hp, hport.commands]
  simp only
  rw [hbefore, hquiet]
  have hrun : StartRun.freeing s p q rest places x
      { r with
        state := r.state.executeCommand p q
        reserved := r.reserved.filter (· ≠ p)
        delivered := r.delivered || r.state.delivers p q || (r.state.executeCommand p q).portDelivers p } := {
    frame := h.frame, swap := h.swap, bound := h.bound, warm := h.warm
    straps := hstraps.trans h.straps
    record := by rw [← h.record]; exact congrArg Engine.record hengine
    due := fun o => by
      have := h.due o
      cases o <;> exact this
    other := by
      simp only
      rw [hother, h.other]
    settled := fun _ => ⟨ht, by simp⟩
    stands := .inr (.inr ⟨ht, by simp [hres], hdone⟩) }
  rwa [checkSwap_of_freeing hf hrun]

theorem reserved_of_freeing (h : r.freeing s p q rest places started) (ho : o ∈ r.reserved) : o = p := by
  rcases h.stands with ⟨-, hn, -⟩ | ⟨-, hn, -⟩ | ⟨-, hn, -⟩
  · simp [hn] at ho
  · simpa [hn] using ho
  · simp [hn] at ho

theorem startCommand_freeing (hf : s.frees p q rest places) (hs : r.serves s done)
    (h : r.freeing s p q rest places started) (o : PortId) :
    (r.startCommand o).freeing s p q rest places (started || decide (o = p)) := by
  have hq := takeOctets_freeing hf hs h o
  have ht := mem_taken_takeOctets r o
  unfold StartRun.startCommand
  simp only
  by_cases ho : o ∈ (r.takeOctets o).reserved
  · obtain rfl := reserved_of_freeing hq ho
    have hother : otherPort o ∉ (r.takeOctets o).reserved := fun hr => otherPort_ne o (reserved_of_freeing hq hr)
    have hrest : (r.takeOctets o).execute (otherPort o) = r.takeOctets o := if_neg hother
    rw [if_pos ho, hrest]
    exact execute_freeing hf hq ho _
  · rw [if_neg ho]
    by_cases hp : o = p
    · subst hp
      exact { hq with settled := fun _ => ⟨ht, ho⟩ }
    · simpa [hp] using hq

/-! ### The whole start -/

/-- Every part keeps what holds of the start. -/
theorem task_freeing (hf : s.frees p q rest places) (hs : r.serves s done) (h : r.freeing s p q rest places started)
    (order : StartOrder) (x : StartTask) :
    (r.task order x).freeing s p q rest places (started || decide (x = .start p)) := by
  have keep : ∀ {u : StartRun}, u.freeing s p q rest places started → x ≠ .start p →
      u.freeing s p q rest places (started || decide (x = .start p)) := fun hu hx => by simpa [hx] using hu
  unfold StartRun.task
  rw [if_neg (by simp [h.warm])]
  cases x with
  | timing =>
    exact keep (freeing_of_hears hf h (touches_setTiming _ _) (by simp) (by simp) (fun _ => by simp [Port.hears.refl]) true
      r.handed) (by simp)
  | slip k =>
    refine keep (u := r.takeSlip k) ?_ (by simp)
    unfold StartRun.takeSlip
    split
    · exact freeing_of_hears hf h (touches_repeatSlip _ k) (by simp) (by simp) (repeatSlip_raisesOnce _ k).1 r.begun r.handed
    · exact h
  | swap =>
    refine keep (u := r.takeSwap) ?_ (by simp)
    rw [takeSwap_of_none h.swap]
    exact freeing_of_spares hf h (.refl _) rfl true r.handed
  | copy =>
    refine keep (u := r.takeCopy) ?_ (by simp)
    unfold StartRun.takeCopy
    split
    · exact h
    · exact freeing_of_spares hf h ⟨syncStep_record _, fun o => ((syncStep_raisesOnce _).1 o).goes⟩
        ((touches_syncStep _).straps (by simp)) true r.handed
  | take o => exact keep (takeOctets_freeing hf hs h o) (by simp)
  | start o => simpa using startCommand_freeing hf hs h o
  | capture =>
    exact keep (foldl_keeps (fun r => StartRun.serves s done r ∧ StartRun.freeing s p q rest places started r) _ _ _ ⟨hs, h⟩
      fun _ k _ hr => ⟨handOctet_serves hr.1 k, handOctet_freeing hf hr.1 hr.2 k⟩).2 (by simp)
  | leaseTick =>
    refine keep ?_ (by simp)
    simp only
    split
    · exact freeing_of_hears hf h (touches_leaseTick _) (by simp) (by simp) (leaseTick_raises _).1 r.begun r.handed
    · exact h
  | listTick =>
    refine keep ?_ (by simp)
    simp only
    split
    · exact freeing_of_hears hf h (touches_listTick _ _ _) (by simp) (by simp) (hears_listTick _ _ _).ports r.begun r.handed
    · exact h
  | reset => exact keep (by simp only [takeReset_of_not_due h.due]; exact h) (by simp)

theorem foldl_freeing (hf : s.frees p q rest places) (order : StartOrder) (m : List StartTask)
    (hs : ∃ d, r.serves s d) (h : r.freeing s p q rest places started) :
    (∃ d, (m.foldl (fun r x => r.task order x) r).serves s d) ∧
      (m.foldl (fun r x => r.task order x) r).freeing s p q rest places (started || decide (.start p ∈ m)) := by
  induction m generalizing r started with
  | nil => exact ⟨hs, by simpa using h⟩
  | cons x m ih =>
    obtain ⟨d, hs⟩ := hs
    have ht := task_freeing hf hs h order x
    have hserves := (task_serves hs order x).resolve_right fun he => by
      have hcold := he.cold
      rw [ht.warm] at hcold
      cases hcold
    obtain ⟨h1, h2⟩ := ih ⟨_, hserves⟩ ht
    exact ⟨h1, by simpa [Bool.or_assoc, eq_comm] using h2⟩

/-- The response of an IDENTIFY is in the freed place at the end of the start (R143, R144). -/
theorem outputStart_identifies (hf : s.frees p q rest places) (order : StartOrder) :
    ((s.outputStart order).port p).has (places ++ [.message (s.identity p q) none]) rest (s.cacheAfter p q) := by
  obtain ⟨⟨d, hs⟩, h⟩ := foldl_freeing hf order (startParts order) ⟨false, beginStart_serves s⟩ (beginStart_freeing hf)
  rw [decide_eq_true (mem_startParts order (.start p))] at h
  have hr := task_freeing hf hs h order .reset
  obtain ⟨ht, hn⟩ := hr.settled rfl
  rcases hr.stands with ⟨hx, -⟩ | ⟨-, hx, -⟩ | ⟨-, -, he⟩
  · exact absurd ht hx
  · exact absurd (by simp [hx]) hn
  · exact he

end

/-- Settles O7: the message that waits or finds four waiting, the start that is the start without the command and then the
command's own, and the IDENTIFY in the freed place. -/
theorem commandsWaitOrAreBusy : Obligations.CommandsWaitOrAreBusy := by
  refine ⟨fun i p tag c s hi hlen hr hfresh => ?_,
    fun order p q rest m places s hsend hc hq ht hm hfive hunheld => ⟨?_, ?_⟩⟩
  · rw [exec_of_receives hi hlen hr]
    refine ⟨fun h4 h6 => ?_, fun h4 h6 => ?_, fun h4 h6 => ?_⟩
    · rw [receive_waits hfresh h4 h6]
    · rw [receive_busy hfresh h4, answerBusy_of_place h6]
    · rw [receive_busy hfresh h4, answerBusy_of_full h6]
  · intro hoff hempty hinside hrep hpos hjob hr ha
    have hphase : s.capture.phase = .idle := by
      cases hp : s.capture.phase with
      | idle => rfl
      | armed j | running j n x | ended e j n x => rw [hp] at hjob; cases hjob
    have hsole : s.sole p places :=
      ⟨hsend, hoff, hempty, hinside, hrep, ⟨hpos, hphase⟩, hfive, m, ht, hm⟩
    obtain ⟨t, h1, h2⟩ := outputStart_sole hsole hc hq hr ha order
    exact ⟨t, congrArg _ h1, congrArg _ h2⟩
  · intro hcmd hswap hother hreset
    have hhas := outputStart_identifies (q := q) (rest := rest)
      ⟨hsend, hc, hcmd, hq, ⟨m, ht, hm⟩, hfive, hunheld, hswap, hother, hreset⟩ order
    refine ⟨s.outputStart order, s.identity p q, rfl, rfl, hhas.commands, hhas.transmit, fun e hcached he => ?_⟩
    rw [Port.cached, hhas.cache, State.cacheAfter, if_pos hcached, find_completeEntry]
    rw [Port.cached] at he
    rw [he]
    rfl

end Sys2Proof.Machine
end
